-- ==== Sys2Proof/Word.lean ====
section
/-!
DEFINITION. The word types of the part: 32-bit registers and words (R9, R38), bytes, and 64-bit quantities (R9).
-/

namespace Sys2Proof

/-- A 32-bit register, address or general-register value (R9, R38). -/
abbrev Word := BitVec 32

/-- One byte of a memory (R8). -/
abbrev Byte := BitVec 8

/-- A 64-bit quantity, such as TIME or an LBA (R9, R73). -/
abbrev DWord := BitVec 64

end Sys2Proof
end

