-- ==== Sys2Proof/Syntax.lean ====
section
/-!
DEFINITION. The commands of the part: one constructor per row of the opcode table, with the row's operands.
A command of a Sialven instruction names the processor that issues it (log 1). An operand that can be left out stands for what does
not come to pass in the plain command: a rival in the same resolution, an error of a memory or a bus.
-/

namespace Sys2Proof

/-- A Sialven processor: 0 to 127 the lane processors of E0 to E127, 128 the warden (R37). -/
abbrev Pid := Fin 129
/-- A general register number (R38). -/
abbrev Reg := Fin 32
/-- A 16-bit immediate, offset or length field (R39). -/
abbrev Imm := BitVec 16
/-- A 5-bit field of the REG format (R39). -/
abbrev U5 := BitVec 5
/-- A 10-bit field: a TRAP code or a LOOPI count (R39, R69). -/
abbrev U10 := BitVec 10
/-- The offset field of the JMP format (R39). -/
abbrev Off26 := BitVec 26
/-- A byte-sized field. -/
abbrev U8 := BitVec 8
/-- An engine E0 to E127 (R3). -/
abbrev EngId := Fin 128
/-- A tile T0 to T15 (R3). -/
abbrev TileId := Fin 16
/-- A quadrant Q0 to Q3 (R3). -/
abbrev QuadId := Fin 4
/-- An engine's command slot (R15). -/
abbrev SlotId := Fin 512
/-- A drive index (R302). -/
abbrev DriveId := Fin 64
/-- A virtual controller: FUNC 0 to 1023 (R208). -/
abbrev FuncId := Fin 1024
/-- A port group PG0 to PG15 (R3). -/
abbrev GroupId := Fin 16
/-- An upstream port UP0 to UP3 (R274). -/
abbrev PortId := Fin 4
/-- A mailbox page 0 to 1029 (R344). -/
abbrev PageId := Fin 1030
/-- A molt number 0 to 63 (R187). -/
abbrev MoltId := Fin 64
/-- A tadpole 0 to 7 and its channel context 0 to 7 (R396). -/
abbrev TadId := Fin 8
/-- A link of a port: port 0 to 31 (two a group) and whether it is link B of a DUAL slot (R273). -/
abbrev LinkId := Fin 32 × Bool
/-- A string of bytes. -/
abbrev Bytes := List Byte

/-- An extent record as an NS_EXTENTS request carries it (R214). -/
structure ExtRec where
  nstart : DWord
  len : DWord
  dport : Fin 32
  dnsid : Word
  dstart : DWord
  deriving DecidableEq, Repr

/-- A drive namespace as Identify reported it (R198, R305 to R307). -/
structure DrvNs where
  live : Bool
  nsze : Nat
  lbads : Nat
  /-- metadata bytes per LBA, 0 none -/
  msize : Nat
  /-- metadata as part of an extended LBA -/
  extLba : Bool
  pi : Bool
  /-- the namespace reports its own atomicity values: NSFEAT bit 1, NAWUPF, NABSPF and NABO as Identify Namespace gives them (R198) -/
  nsfeat1 : Bool
  nawupf : Nat
  nabspf : Nat
  nabo : Nat
  /-- NGUID or EUI-64, 0 when none -/
  nguid : Nat
  deriving DecidableEq, Repr

def DrvNs.init : DrvNs :=
  { live := false, nsze := 0, lbads := 0, msize := 0, extLba := false, pi := false, nsfeat1 := false, nawupf := 0, nabspf := 0, nabo := 0, nguid := 0 }

/-- What Identify and the controller registers of a drive reported (R304, R305). -/
structure DrvId where
  serial : Nat
  model : Nat
  cssNvm : Bool
  mpsOk : Bool
  sqs : Nat
  cqs : Nat
  mqes : Nat
  mdts : Nat
  nn : Nat
  /-- AWUPF of Identify Controller, 0's based (R198) -/
  awupf : Nat
  nss : List (Nat × DrvNs)
  deriving DecidableEq, Repr

def DrvId.init : DrvId :=
  { serial := 0, model := 0, cssNvm := false, mpsOk := false, sqs := 0, cqs := 0, mqes := 0, mdts := 0, nn := 0, awupf := 0, nss := [] }

/-- A non-posted request of the part: host data of a transfer, a submission fetch, or a read of a drive (R281, R295). -/
inductive PortReq where
  | transfer (e : EngId) (slot : SlotId)
  /-- the fetch of a transfer's PRP list -/
  | prpList (e : EngId) (slot : SlotId)
  | fetch (f : FuncId)
  | drive (d : DriveId)
  deriving DecidableEq, Repr

/-- What a received TLP, or a link event of R295, is to the port that takes it. -/
inductive Tlp where
  /-- a violation of class 0 to 4: LCRC failure, error recovery, malformed, unexpected completion, poisoned write -/
  | bad (cls : Fin 5)
  /-- a poisoned completion of a request of the part -/
  | poisoned (req : PortReq)
  /-- an Unsupported Request or Completer Abort answer to a request of the part -/
  | refused (req : PortReq)
  /-- a TLP whose IDE check fails -/
  | ideFail (stream : Fin 8)
  /-- a read or write of a function's BAR, on an IDE stream or none -/
  | memRead (f : FuncId) (off : BitVec 15) (stream : Option (Fin 8))
  | memWrite (f : FuncId) (off : BitVec 15) (value : Word) (stream : Option (Fin 8))
  /-- a configuration request to a function -/
  | config (f : FuncId)
  /-- a translated, PASID-prefixed or AtomicOp request, or another that no capability supports -/
  | unsupported (f : FuncId)
  /-- a configuration write of the ASPM L1, L1.1 and L1.2 enables of the port, and of the LTR threshold of L1.2 in nanoseconds -/
  | linkControl (l1 l11 l12 : Bool) (threshold : Word)
  /-- a configuration write of Device Control of a function, or of Device Control 2 of the port's physical function -/
  | devControl (f : FuncId) (value : BitVec 16)
  | devControl2 (value : BitVec 16)
  /-- a configuration write of the AER capabilities and control register of the port's physical function -/
  | aerControl (value : Word)
  /-- configuration writes of a selective IDE stream: its enable, its RID association range, and address association range 0 or 1 -/
  | ideControl (stream : Fin 8) (en : Bool)
  | ideRid (stream : Fin 8) (base limit : BitVec 16)
  | ideAddr (stream : Fin 8) (range : Bool) (base limit : DWord)
  /-- a configuration write of PME_En, and of 1 to PME_Status -/
  | pmControl (f : FuncId) (pmeEn clear : Bool)
  deriving DecidableEq, Repr

/-- The commands of the part: instructions, operations and events, one constructor per row of the opcode table. -/
inductive Instr where
  /-- ADDI (R41): Adds a sign-extended 16-bit immediate to gs and writes gd. -/
  | addi (p : Pid) (gd : Reg) (gs : Reg) (imm : Imm)
  /-- ANDI (R41): ANDs gs with a zero-extended immediate into gd. -/
  | andi (p : Pid) (gd : Reg) (gs : Reg) (imm : Imm)
  /-- ORI (R41): ORs gs with a zero-extended immediate into gd. -/
  | ori (p : Pid) (gd : Reg) (gs : Reg) (imm : Imm)
  /-- XORI (R41): XORs gs with a zero-extended immediate into gd. -/
  | xori (p : Pid) (gd : Reg) (gs : Reg) (imm : Imm)
  /-- ORHI (R41): ORs gs with the immediate shifted left by 16 into gd. -/
  | orhi (p : Pid) (gd : Reg) (gs : Reg) (imm : Imm)
  /-- ADDHI (R41): Adds the immediate shifted left by 16 to gs into gd. -/
  | addhi (p : Pid) (gd : Reg) (gs : Reg) (imm : Imm)
  /-- CMPI (R41): Compares gs with a sign-extended immediate, signed, and writes -1, 0 or +1. -/
  | cmpi (p : Pid) (gd : Reg) (gs : Reg) (imm : Imm)
  /-- CMPUI (R41): Compares gs with a zero-extended immediate, unsigned, and writes -1, 0 or +1. -/
  | cmpui (p : Pid) (gd : Reg) (gs : Reg) (imm : Imm)
  /-- ADRW (R41): Writes PC plus four times the sign-extended immediate to gd. -/
  | adrw (p : Pid) (gd : Reg) (imm : Imm)
  /-- ADD (R43): Writes gs plus gt to gd. -/
  | add (p : Pid) (gd : Reg) (gs : Reg) (gt : Reg)
  /-- SUB (R43): Writes gs minus gt to gd. -/
  | sub (p : Pid) (gd : Reg) (gs : Reg) (gt : Reg)
  /-- AND (R43): Writes gs AND gt to gd. -/
  | and (p : Pid) (gd : Reg) (gs : Reg) (gt : Reg)
  /-- OR (R43): Writes gs OR gt to gd. -/
  | or (p : Pid) (gd : Reg) (gs : Reg) (gt : Reg)
  /-- XOR (R43): Writes gs XOR gt to gd. -/
  | xor (p : Pid) (gd : Reg) (gs : Reg) (gt : Reg)
  /-- SLL (R43): Shifts gs left by gt[4:0] into gd. -/
  | sll (p : Pid) (gd : Reg) (gs : Reg) (gt : Reg)
  /-- SRL (R43): Shifts gs right by gt[4:0] with zero fill into gd. -/
  | srl (p : Pid) (gd : Reg) (gs : Reg) (gt : Reg)
  /-- SRA (R43): Shifts gs right by gt[4:0] with sign fill into gd. -/
  | sra (p : Pid) (gd : Reg) (gs : Reg) (gt : Reg)
  /-- CMP (R43): Compares gs and gt, signed, writing -1, 0 or +1 to gd. -/
  | cmp (p : Pid) (gd : Reg) (gs : Reg) (gt : Reg)
  /-- CMPU (R43): Compares gs and gt, unsigned, writing -1, 0 or +1 to gd. -/
  | cmpu (p : Pid) (gd : Reg) (gs : Reg) (gt : Reg)
  /-- SLLI (R43): Shifts gs left by the 5-bit gt field into gd. -/
  | slli (p : Pid) (gd : Reg) (gs : Reg) (sh : U5)
  /-- SRLI (R43): Shifts gs right by the 5-bit gt field with zero fill into gd. -/
  | srli (p : Pid) (gd : Reg) (gs : Reg) (sh : U5)
  /-- SRAI (R43): Shifts gs right by the 5-bit gt field with sign fill into gd. -/
  | srai (p : Pid) (gd : Reg) (gs : Reg) (sh : U5)
  /-- MUL (R43): Writes the low 32 bits of gs times gt to gd, late under the scoreboard. -/
  | mul (p : Pid) (gd : Reg) (gs : Reg) (gt : Reg)
  /-- MULHS (R43): Writes the high 32 bits of the signed product of gs and gt to gd. -/
  | mulhs (p : Pid) (gd : Reg) (gs : Reg) (gt : Reg)
  /-- MULHU (R43): Writes the high 32 bits of the unsigned product of gs and gt to gd. -/
  | mulhu (p : Pid) (gd : Reg) (gs : Reg) (gt : Reg)
  /-- MACC (R43): Adds the low 32 bits of gs times gt to gd. -/
  | macc (p : Pid) (gd : Reg) (gs : Reg) (gt : Reg)
  /-- DIV (R44): Divides gs by gt signed, rounding toward zero and saturating on the special cases without trapping. -/
  | div (p : Pid) (gd : Reg) (gs : Reg) (gt : Reg)
  /-- DIVU (R44): Divides gs by gt unsigned, giving 0xFFFF_FFFF for a zero divisor. -/
  | divu (p : Pid) (gd : Reg) (gs : Reg) (gt : Reg)
  /-- MOD (R44): Writes the remainder of the signed division, with the sign of gs. -/
  | mod (p : Pid) (gd : Reg) (gs : Reg) (gt : Reg)
  /-- MODU (R44): Writes the remainder of the unsigned division. -/
  | modu (p : Pid) (gd : Reg) (gs : Reg) (gt : Reg)
  /-- CLZ (R43): Counts the leading zeros of gs into gd. -/
  | clz (p : Pid) (gd : Reg) (gs : Reg)
  /-- CTZ (R43): Counts the trailing zeros of gs into gd. -/
  | ctz (p : Pid) (gd : Reg) (gs : Reg)
  /-- POPC (R43): Counts the 1 bits of gs into gd. -/
  | popc (p : Pid) (gd : Reg) (gs : Reg)
  /-- BSWAP (R43): Reverses the four bytes of gs into gd. -/
  | bswap (p : Pid) (gd : Reg) (gs : Reg)
  /-- ROTL (R43): Rotates gs left by gt[4:0] into gd. -/
  | rotl (p : Pid) (gd : Reg) (gs : Reg) (gt : Reg)
  /-- ROTR (R43): Rotates gs right by gt[4:0] into gd. -/
  | rotr (p : Pid) (gd : Reg) (gs : Reg) (gt : Reg)
  /-- ANDN (R43): Writes gs AND NOT gt to gd. -/
  | andn (p : Pid) (gd : Reg) (gs : Reg) (gt : Reg)
  /-- MIN (R43): Writes the signed smaller of gs and gt to gd. -/
  | min (p : Pid) (gd : Reg) (gs : Reg) (gt : Reg)
  /-- MAX (R43): Writes the signed larger of gs and gt to gd. -/
  | max (p : Pid) (gd : Reg) (gs : Reg) (gt : Reg)
  /-- MINU (R43): Writes the unsigned smaller of gs and gt to gd. -/
  | minu (p : Pid) (gd : Reg) (gs : Reg) (gt : Reg)
  /-- MAXU (R43): Writes the unsigned larger of gs and gt to gd. -/
  | maxu (p : Pid) (gd : Reg) (gs : Reg) (gt : Reg)
  /-- CRC32C (R45): Updates the CRC-32C value in gs with 1, 2 or 4 low bytes of gt into gd. -/
  | crc32c (p : Pid) (gd : Reg) (gs : Reg) (gt : Reg) (size : Fin 3)
  /-- BFX (R45): Extracts a bit field of gs at pos and width into gd. -/
  | bfx (p : Pid) (gd : Reg) (gs : Reg) (pos : U5) (wm1 : U5)
  /-- BFI (R45): Inserts the low width bits of gs into gd at pos. -/
  | bfi (p : Pid) (gd : Reg) (gs : Reg) (pos : U5) (wm1 : U5)
  /-- LB (R46): Loads a sign-extended byte from gs plus offset into gd. -/
  | lb (p : Pid) (gd : Reg) (gs : Reg) (imm : Imm)
  /-- LH (R50): Loads a sign-extended halfword, split into two accesses when unaligned. -/
  | lh (p : Pid) (gd : Reg) (gs : Reg) (imm : Imm)
  /-- LW (R50): Loads a word, split into two aligned accesses when unaligned. -/
  | lw (p : Pid) (gd : Reg) (gs : Reg) (imm : Imm)
  /-- LBU (R46): Loads a zero-extended byte into gd. -/
  | lbu (p : Pid) (gd : Reg) (gs : Reg) (imm : Imm)
  /-- LHU (R50): Loads a zero-extended halfword into gd. -/
  | lhu (p : Pid) (gd : Reg) (gs : Reg) (imm : Imm)
  /-- SB (R46): Stores gd[7:0] to memory through the store buffer. -/
  | sb (p : Pid) (gd : Reg) (gs : Reg) (imm : Imm)
  /-- SH (R50): Stores gd[15:0], split when unaligned. -/
  | sh (p : Pid) (gd : Reg) (gs : Reg) (imm : Imm)
  /-- SW (R50): Stores gd, split into two parts when unaligned. -/
  | sw (p : Pid) (gd : Reg) (gs : Reg) (imm : Imm)
  /-- ATSWP (R51): Atomically swaps the word at gs with gt, returning the old value. -/
  | atswp (p : Pid) (gd : Reg) (gs : Reg) (gt : Reg)
  /-- ATADD (R51): Atomically adds gt to the word at gs, returning the old value. -/
  | atadd (p : Pid) (gd : Reg) (gs : Reg) (gt : Reg)
  /-- ATAND (R51): Atomically ANDs gt into the word at gs. -/
  | atand (p : Pid) (gd : Reg) (gs : Reg) (gt : Reg)
  /-- ATOR (R51): Atomically ORs gt into the word at gs. -/
  | ator (p : Pid) (gd : Reg) (gs : Reg) (gt : Reg)
  /-- ATXOR (R51): Atomically XORs gt into the word at gs. -/
  | atxor (p : Pid) (gd : Reg) (gs : Reg) (gt : Reg)
  /-- ATWRAP (R51): Atomically advances a ring index that wraps to 0 past gt. -/
  | atwrap (p : Pid) (gd : Reg) (gs : Reg) (gt : Reg)
  /-- ATDSAT (R51): Atomically subtracts gt from the word, saturating at zero. -/
  | atdsat (p : Pid) (gd : Reg) (gs : Reg) (gt : Reg)
  /-- ATCAS (R51): Atomically writes gt if the word equals gd, returning the old value. -/
  | atcas (p : Pid) (gd : Reg) (gs : Reg) (gt : Reg)
  /-- BEQ (R54): Branches if ga equals gb, after its delay slot. -/
  | beq (p : Pid) (ga : Reg) (gb : Reg) (off : Imm)
  /-- BNE (R54): Branches if ga differs from gb, after its delay slot. -/
  | bne (p : Pid) (ga : Reg) (gb : Reg) (off : Imm)
  /-- BLT (R54): Branches if ga is less than gb, signed. -/
  | blt (p : Pid) (ga : Reg) (gb : Reg) (off : Imm)
  /-- BGE (R54): Branches if ga is at least gb, signed. -/
  | bge (p : Pid) (ga : Reg) (gb : Reg) (off : Imm)
  /-- BLTU (R54): Branches if ga is less than gb, unsigned. -/
  | bltu (p : Pid) (ga : Reg) (gb : Reg) (off : Imm)
  /-- BGEU (R54): Branches if ga is at least gb, unsigned. -/
  | bgeu (p : Pid) (ga : Reg) (gb : Reg) (off : Imm)
  /-- J (R54): Jumps to PC plus four times off26 after the delay slot. -/
  | j (p : Pid) (off : Off26)
  /-- JAL (R82): Jumps and writes PC plus 8 to g31 when the delay slot completes. -/
  | jal (p : Pid) (off : Off26)
  /-- JALR (R82): Jumps to gs plus offset and writes PC plus 8 to gd when the delay slot completes. -/
  | jalr (p : Pid) (gd : Reg) (gs : Reg) (imm : Imm)
  /-- CRD (R72): Reads a control register into gd. -/
  | crd (p : Pid) (gd : Reg) (num : Imm)
  /-- CWR (R72): Writes gs to a writable control register. -/
  | cwr (p : Pid) (num : Imm) (gs : Reg)
  /-- LOOP (R58): Sets up a hardware loop level with the count in gs. -/
  | loop (p : Pid) (gs : Reg) (len : Imm)
  /-- LOOPI (R58): Sets up a hardware loop level with an immediate count. -/
  | loopi (p : Pid) (count : U10) (len : Imm)
  /-- LEXIT (R61): Deactivates the innermost active loop level. -/
  | lexit (p : Pid)
  /-- KLOAD (R64): Requests the key named by a handle into a cipher context; `rival` is the KLOAD of another engine of the tile that reaches the
  mutex in the same resolution (R19, R158). -/
  | kload (p : Pid) (gd : Reg) (gs : Reg) (ctx : Fin 4) (rival : Option (EngId × Reg × Reg × Fin 4) := none)
  /-- KWAIT (R118): Waits for a context's request to resolve and returns its result. -/
  | kwait (p : Pid) (gd : Reg) (ctx : Fin 4)
  /-- KREL (R116): Releases a context's key or withdraws its pending request. -/
  | krel (p : Pid) (ctx : Fin 4)
  /-- KSET (R65): Writes a cipher context parameter. -/
  | kset (p : Pid) (gs : Reg) (ctx : Fin 4) (sel : U5)
  /-- KGET (R65): Reads a cipher context parameter. -/
  | kget (p : Pid) (gd : Reg) (ctx : Fin 4) (sel : U5)
  /-- HINIT (R66): Starts a new hash computation with the chosen algorithm. -/
  | hinit (p : Pid) (alg : U5)
  /-- HABS (R67): Queues the absorption of a memory range into the hash. -/
  | habs (p : Pid) (gs : Reg) (gt : Reg)
  /-- HFIN (R66): Finishes the hash and writes 0 once the digest is ready. -/
  | hfin (p : Pid) (gd : Reg)
  /-- HGET (R66): Reads one word of the digest. -/
  | hget (p : Pid) (gd : Reg) (idx : U5)
  /-- SETMODE (R71): Changes MODE after one shadow instruction. -/
  | setmode (p : Pid) (gs : Reg)
  /-- ERET (R104): Returns from an exception, restoring mode and re-arming a pending SETMODE. -/
  | eret (p : Pid)
  /-- TRAP (R69): Raises the TRAP exception with a 10-bit code. -/
  | trap (p : Pid) (code : U10)
  /-- EVWAIT (R98): Suspends until an enabled event or interrupt is pending. -/
  | evwait (p : Pid)
  /-- FENCE (R53): Completes every earlier access before any later one. -/
  | fence (p : Pid)
  /-- FLUSHI (R57): Waits for instruction-RAM stores and refetches with an empty fetch buffer. -/
  | flushi (p : Pid)
  /-- BREAK (R69): Raises the BREAK exception. -/
  | breakpoint (p : Pid)
  /-- LOAD_DATA_RETURN (R68): A load or atomic's data returns and its destination register is written and released. -/
  | loadDataReturn (p : Pid) (port : Bool) (k : Fin 16) (ecc : Fin 3)
  /-- STORE_PERFORM (R53): A buffered store is performed to memory in the background. -/
  | storePerform (p : Pid) (port : Bool) (k : Fin 16)
  /-- KLOAD_RESOLVE (R64): A context's key request resolves and its result is written to gd. -/
  | kloadResolve (e : EngId) (ctx : Fin 4)
  /-- HABS_COMPLETE (R67): An outstanding absorb finishes reading its range into the hash. -/
  | habsComplete (p : Pid) (ecc : Fin 3 := 0)
  /-- EVWAIT_RESUME (R98): An enabled event arrives and a suspended EVWAIT completes. -/
  | evwaitResume (p : Pid)
  /-- INTERRUPT_ACCEPT (R96): An enabled event with IE set abandons the uncommitted instruction and enters the handler. -/
  | interruptAccept (p : Pid)
  /-- ENGINE_RESET (R92): ENGn_CTRL.RESET resets the engine to its reset state, halted, and runs its self-test. -/
  | engineReset (e : EngId)
  /-- STEP (R92): ENGn_CTRL.STEP runs one instruction of a halted engine. -/
  | stepEngine (e : EngId)
  /-- HALT (R94): Writing ENGn_CTRL.HALT = 1 requests a halt at the next halt point. -/
  | halt (e : EngId)
  /-- ENGINE_RELEASE (R94): Writing HALT = 0 resumes the engine at ENGn_HALTPC with an empty fetch buffer. -/
  | engineRelease (e : EngId)
  /-- HALT_POINT (R94): A halting engine reaches a halt point, abandons uncommitted work and becomes HALTED. -/
  | haltPoint (e : EngId)
  /-- ENG_HALT_LATE (R319): An engine not HALTED 10 µs after HALT = 1 raises a recoverable fault. -/
  | engHaltLate (e : EngId)
  /-- WDBSET_RING (R90): The warden rings an engine's doorbell, advancing ENGn_WDBCNT. -/
  | wdbsetRing (e : EngId)
  /-- DEADLINE_ARM (R91): A write of ENGn_DEADLINE_HI applies the 64-bit deadline and its arming. -/
  | deadlineArm (e : EngId) (value : Word)
  /-- DEADLINE_REACHED (R91): TIME reaches an armed deadline and sets the DEADLINE event. -/
  | deadlineReached (e : EngId)
  /-- DMGO (R134): GO checks the staging registers and starts a transfer bound to a slot. -/
  | dmgo (e : EngId)
  /-- DMREL (R136): Releases a command slot and its transfer. -/
  | dmrel (e : EngId) (slot : SlotId)
  /-- DMDONE_READ (R135): A lane read of ENGn_DMDONE removes the completion entry it returns. -/
  | dmdoneRead (e : EngId)
  /-- CUTEST_RUN (R140): Starts the periodic cipher-unit self-test interleaved with traffic. -/
  | cutestRun (e : EngId)
  /-- SELFTEST_END (R141): A cipher-unit self-test finishes, recording LASTTEST and disabling the unit on failure. -/
  | selftestEnd (e : EngId) (result : U8)
  /-- CU_STAGE_TIMEOUT (R114): A cipher stage holding a token for 1 µs disables the unit with UNIT_FAULT. -/
  | cuStageTimeout (e : EngId)
  /-- TAG_PASS_COMPLETE (R126): The tag pass of a GCM-sector write writes a metadata record and releases drive reads held on it. -/
  | tagPassComplete (e : EngId) (slot : SlotId) (lba : Fin 1024) (data : Bytes) (err : Fin 4)
  /-- HOST_DATA_RETURN (R122): Host memory read data for a transfer arrives and is encrypted toward the drive. -/
  | hostDataReturn (e : EngId) (slot : SlotId) (offset : Nat) (data : Bytes) (err : Fin 4)
  /-- DRIVE_MEM_READ (R28): A drive memory read is decoded through the relay window and served or refused. -/
  | driveMemRead (drive : DriveId) (addr : DWord) (len : Nat) (err : Fin 3)
  /-- DRIVE_MEM_WRITE (R28): A drive memory write is decoded through the relay window and taken, decrypted or discarded. -/
  | driveMemWrite (drive : DriveId) (addr : DWord) (data : Bytes) (err : Fin 3 := 0)
  /-- KEY_FILL_COMPLETE (R155): A key-cache fill's record read returns and it checks, unwraps and installs or fails. -/
  | keyFillComplete (t : TileId) (slot : BitVec 20) (err : Bool)
  /-- EVICT (R157): The tile evictor frees a victim entry when free entries fall below LOWWATER. -/
  | evict (t : TileId)
  /-- KEY_WAIT_GRANT (R159): A queued WAIT request takes a freed entry and starts its fill. -/
  | keyWaitGrant (t : TileId)
  /-- KEY_DELIVERY (R147): A wrapping key and epoch token arrives at a tile's unwrap unit. -/
  | keyDelivery (t : TileId) (err : Bool := false)
  /-- PURGE_LINE (R36): The vault drives the purge line and every powered tile clears keys and acknowledges. -/
  | purgeLine
  /-- KCPURGE_GO (R170): Starts a purge of matching key-cache entries, contexts, fills and write-back items. -/
  | kcpurgeGo (t : TileId) (scope : Fin 4) (key : BitVec 20) (done : Bool)
  /-- KCPIN_PIN (R171): Pins a keyslot's cache entry, filling it if needed. -/
  | kcpinPin (t : TileId) (slot : BitVec 20) (gen : Fin 16)
  /-- KCPIN_UNPIN (R171): Unpins a keyslot's cache entry. -/
  | kcpinUnpin (t : TileId) (slot : BitVec 20)
  /-- KCCTRL_WBFLUSH (R167): Moves every nonzero DELTA to the write-back buffer and drains it. -/
  | kcctrlWbflush (t : TileId)
  /-- WRITEBACK_ITEM (R162): One write-back item performs a read-add-write of a record's USAGE. -/
  | writebackItem (t : TileId)
  /-- DELTA_AGE_EXPIRY (R162): A DELTA nonzero for 1 s moves into the write-back buffer. -/
  | deltaAgeExpiry (t : TileId) (slot : BitVec 20)
  /-- WRITEBACK_PROMOTE (R163): Write-back that lost 256 arbitrations or aged 100 ms is promoted above committed traffic. -/
  | writebackPromote (t : TileId)
  /-- SPREQ (R161): Requests single spill blocks or one contiguous run. -/
  | spreq (e : EngId) (value : Word) (rival : Option (EngId × Word) := none)
  /-- SPILL_GRANT (R161): A queued spill request is granted from freed blocks and raises SPILL. -/
  | spillGrant (t : TileId)
  /-- SPGNT_READ (R161): Reading ENGn_SPGNT collects one granted block or run. -/
  | spgntRead (e : EngId)
  /-- SPRET (R161): Returns a spill block to the tile's pool. -/
  | spret (e : EngId) (value : Word)
  /-- CMDPOP (R227): Removes the head of the engine's command queue. -/
  | cmdpop (e : EngId)
  /-- CMDDEFER (R228): Returns an ELASTIC slot's command to its spill queue and frees the slot. -/
  | cmddefer (e : EngId) (value : Word)
  /-- CPLPOST (R227): Posts a tenant completion entry for a slot's command. -/
  | cplpost (e : EngId) (value : Word)
  /-- SLOTGET (R227): A read of ENGn_SLOTGET claims a free slot. -/
  | slotget (e : EngId)
  /-- SLOTCLS (R228): Sets a slot's arbitration class, or is discarded. -/
  | slotcls (e : EngId) (value : Word)
  /-- DCQPOP (R227): Removes the head of the drive completion inbox. -/
  | dcqpop (e : EngId)
  /-- MOLTPOP (R227): Removes the head of the molt work queue. -/
  | moltpop (e : EngId)
  /-- MOLTPOST_CLAIM (R199): An engine claims a molt window; the warden sets WEND and closes the gates. -/
  | moltpostClaim (e : EngId) (m : MoltId)
  /-- MOLTPOST_FINGERPRINT (R199): The engine reports the window fingerprint; the warden journals it and posts GO. -/
  | moltpostFingerprint (e : EngId) (m : MoltId) (fp : DWord)
  /-- MOLTPOST_DONE (R199): The engine reports the window written; the warden advances WMARK and opens the gates. -/
  | moltpostDone (e : EngId) (m : MoltId)
  /-- MOLTPOST_RESOLVED_NEW (R201): A resolution finds the window under the new key and WMARK advances past it. -/
  | moltpostResolvedNew (e : EngId) (m : MoltId)
  /-- MOLTPOST_RESOLVED_OLD (R201): A resolution finds the window under the old key and WMARK stays. -/
  | moltpostResolvedOld (e : EngId) (m : MoltId)
  /-- MOLTPOST_FAILED (R199): The engine reports a failed window, which is abandoned or resolved again later. -/
  | moltpostFailed (e : EngId) (m : MoltId)
  /-- MOLT_RETRY_TIMER (R199): After 10 ms an abandoned window or failed resolution is tried again. -/
  | moltRetryTimer (m : MoltId)
  /-- MOLT_AGING_PROMOTE (R203): Molt work that lost 256 arbitrations or waited 100 ms is promoted, capped at 1/16. -/
  | moltAgingPromote (m : MoltId)
  /-- SQ_DOORBELL (R242): A host writes a submission or completion queue doorbell, ignored with an event if invalid. -/
  | sqDoorbell (f : FuncId) (index : Fin 130) (value : Word)
  /-- SQ_ENTRY_FETCH (R220): The dispatcher fetches submission entries in ring order and resolves, gates, classifies and dispatches them. -/
  | sqEntryFetch (q : QuadId) (sqe : Bytes) (err : Bool)
  /-- SPILL_SERVICE (R235): The dispatcher serves one spill-queue head per turn when its bucket and tile allow. -/
  | spillService (q : QuadId) (err : Bool := false)
  /-- GATE_CLOSE (R195): QDn_GCTRL.CLOSE flips the gate's phase and holds overlapping commands. -/
  | gateClose (q : QuadId) (m : MoltId)
  /-- GATE_OPEN (R197): QDn_GCTRL.OPEN releases the gate's held commands in order. -/
  | gateOpen (q : QuadId) (m : MoltId)
  /-- GATE_DRAINED (R196): The earlier phase's counter reaches 0 and the gate becomes DRAINED. -/
  | gateDrained (q : QuadId) (m : MoltId)
  /-- GATE_DRAIN_TIMEOUT (R196): A drain missing 2 ms after the close abandons the window and reopens the gate. -/
  | gateDrainTimeout (q : QuadId) (m : MoltId)
  /-- ADMIDX_WR (R231): Writes ADMW0 and ADMW1 into a controller's admission entry. -/
  | admidxWr (q : QuadId) (f : FuncId)
  /-- ADMIDX_RD (R231): Loads a controller's admission entry and spill depth. -/
  | admidxRd (q : QuadId) (f : FuncId)
  /-- LEDGER_COPY (R247): Every 10 ms the dispatcher copies tenant ledger counters to DRAM. -/
  | ledgerCopy (q : QuadId)
  /-- CQ_FULL_TIMEOUT (R225): A completion waiting 1 s on a full completion queue fails the controller. -/
  | cqFullTimeout (f : FuncId)
  /-- DELETE_IO_SQ (R241): Deletes an I/O submission queue, discarding its spilled and held entries. -/
  | deleteIoSq (f : FuncId)
  /-- CREATE_IO_SQ (R216): Creates a physically contiguous I/O submission queue. -/
  | createIoSq (f : FuncId)
  /-- GET_LOG_PAGE (R216): Returns one of the supported log pages. -/
  | getLogPage (f : FuncId)
  /-- DELETE_IO_CQ (R216): Deletes an I/O completion queue. -/
  | deleteIoCq (f : FuncId)
  /-- CREATE_IO_CQ (R216): Creates a physically contiguous I/O completion queue. -/
  | createIoCq (f : FuncId)
  /-- NVME_IDENTIFY (R211): Returns Identify data for the supported CNS values. -/
  | nvmeIdentify (f : FuncId)
  /-- ABORT (R241): Aborts a command unless its first drive command's doorbell has rung. -/
  | abort (f : FuncId)
  /-- SET_FEATURES (R216): Sets one of the supported features. -/
  | setFeatures (f : FuncId) (data : Bytes)
  /-- GET_FEATURES (R216): Returns one of the supported features. -/
  | getFeatures (f : FuncId)
  /-- ASYNC_EVENT_REQUEST (R216): Posts an Asynchronous Event Request to be completed on an event. -/
  | asyncEventRequest (f : FuncId)
  /-- FORMAT_NVM (R218): Crypto-erases a namespace and generates new band keys, or is refused. -/
  | formatNvm (f : FuncId) (late : List TileId)
  /-- SANITIZE (R218): Performs a CONTROLLER-scope crypto erase and regenerates keys for SANACT 100b. -/
  | sanitize (f : FuncId) (late : List TileId)
  /-- FLUSH (R217): Forwards Flush to every drive namespace of the namespace's extents. -/
  | flush (e : EngId) (slot : SlotId)
  /-- WRITE (R217): Writes data through the cipher unit to the drives of the covering extents. -/
  | write (e : EngId) (slot : SlotId)
  /-- READ (R217): Reads and decrypts data from the drives of the covering extents. -/
  | read (e : EngId) (slot : SlotId)
  /-- DATASET_MANAGEMENT (R217): Forwards deallocate ranges to the drives of the covering extents. -/
  | datasetManagement (e : EngId) (slot : SlotId) (ranges : Bytes)
  /-- CC_ENABLE (R456): A host sets CC.EN = 1 and the controller becomes ready once the store is loaded or refused. -/
  | ccEnable (f : FuncId) (asqs : BitVec 12) (acqs : BitVec 12) (asq : DWord) (acq : DWord)
  /-- CONTROLLER_RESET (R241): CC.EN falling ends the controller's commands without completions and drops CSTS.RDY. -/
  | controllerReset (f : FuncId)
  /-- FUNCTION_LEVEL_RESET (R241): A function level reset ends the function's commands and resets its mailbox page. -/
  | functionLevelReset (f : FuncId)
  /-- VF_ENABLE_CHANGE (R347): VF Enable falling resets the virtual functions' mailbox pages. -/
  | vfEnableChange (u : PortId) (enable : Bool) (num : U8)
  /-- INBOUND_TLP (R295): A received TLP is checked and taken, or discarded and counted by violation class. -/
  | inboundTlp (port : Fin 32) (linkB : Bool) (tlp : Tlp)
  /-- COMPLETION_TIMEOUT (R281): A non-posted request of the part times out and its transfer or fetch fails. -/
  | completionTimeout (req : PortReq)
  /-- L1_ENTRY (R285): An idle link with ASPM enabled enters L1 or its substates. -/
  | l1Entry (link : LinkId) (sub : Fin 3) (latency : Word := 0)
  /-- L1_EXIT (R287): Outbound traffic or a due message starts L1 exit back to L0. -/
  | l1Exit (link : LinkId)
  /-- D3HOT_ENTRY (R288): A function entering D3hot holds completions and ends unfinished host transfers. -/
  | d3hotEntry (f : FuncId)
  /-- D0_RETURN (R290): PowerState = D0 writes held completions and sends one MSI-X per vector. -/
  | d0Return (f : FuncId)
  /-- PME_TURN_OFF (R285): PME_Turn_Off with every function in D3hot moves the link to L2/L3 Ready. -/
  | pmeTurnOff (u : PortId)
  /-- PERST_UPSTREAM (R280): PERST# of an upstream port resets every controller of the port. -/
  | perstUpstream (u : PortId) (assert : Bool)
  /-- HOT_RESET (R280): A hot reset received on the link resets every controller of the port. -/
  | hotReset (u : PortId)
  /-- DL_DOWN (R280): An upstream link going down resets every controller of the port. -/
  | dlDown (u : PortId)
  /-- COALESCE_TIMER_EXPIRY (R286): A vector's aggregation timer reaching TIME makes its MSI-X message due. -/
  | coalesceTimerExpiry (f : FuncId) (v : Fin 65)
  /-- MSIX_UNMASK (R286): Unmasking a vector with its pending bit set sends the message. -/
  | msixUnmask (f : FuncId) (v : Fin 65)
  /-- REFCLK_LOSS (R292): The selected reference input becoming ABSENT or OUT_OF_TOLERANCE fails over or enters holdover. -/
  | refclkLoss (oot : Bool)
  /-- REFCLK_QUALIFIED (R291): An input in tolerance for 10 ms becomes GOOD. -/
  | refclkQualified (b : Bool)
  /-- RELOCK_COMPLETE (R292): The port-group loops lock on the new input and links enter Recovery. -/
  | relockComplete
  /-- CLK_FORCE (R301): CLK_CTRL.FORCE switches to the unused input if it is GOOD. -/
  | clkForce
  /-- SLOT_ENABLE (R298): PGn_CTRL.EN enables or disables a slot's port, discarded if its mode is invalid. -/
  | slotEnable (g : GroupId) (k : Fin 2) (en : Bool)
  /-- RETRAIN (R298): PGn_CTRL.RETRAIN retrains a slot's links. -/
  | retrain (g : GroupId) (k : Fin 2)
  /-- PERST_DOWNSTREAM (R298): PGn_CTRL.PERST asserts or releases PERST# to a slot's drives. -/
  | perstDownstream (g : GroupId) (k : Fin 2) (on : Bool)
  /-- DRIVE_LINK_UP (R304): A downstream link reaching L0 starts drive bring-up, with the rate and width it trained to (R299) and the time-outs the
  drive offers (R281). -/
  | driveLinkUp (drive : DriveId) (rate : Fin 7 := 5) (width : Fin 17 := 4) (cto : Fin 16 := 0)
  /-- DRIVE_READY (R304): A drive's CSTS.RDY arrives and bring-up proceeds with Identify and queue creation. -/
  | driveReady (drive : DriveId) (ident : DrvId) (fail : Bool)
  /-- DRIVE_ADMIN_POLL (R304): The warden polls a drive admin completion queue at least every 1 ms. -/
  | driveAdminPoll (drive : DriveId) (kind : Fin 4) (e : EngId) (slot : SlotId)
  /-- DRIVE_COMPLETION (R29): A drive writes a completion entry, routed to the engine named by its CID or discarded as malformed; `cq` is
  the completion queue it is written to. -/
  | driveCompletion (drive : DriveId) (sqid : BitVec 16) (sqhd : BitVec 16) (cid : BitVec 16) (dw0 : Word) (sct : Fin 8) (sc : U8) (dnr : Bool) (beyond : Bool) (cq : Fin 16 := 0)
  /-- DRIVE_INTERRUPT_LANDING (R27): A drive MSI-X write lands in tile queue memory and raises an event at the tile. -/
  | driveInterruptLanding (drive : DriveId) (t : TileId) (data : Word)
  /-- SHORT_TRANSFER_CHECK (R313): A success completion whose transfer is not MOVED within 10 µs completes with Internal Error. -/
  | shortTransferCheck (e : EngId) (slot : SlotId)
  /-- DRIVE_CMD_TIMEOUT (R310): A drive command timeout writes a TIMEOUT record and the warden issues Abort. -/
  | driveCmdTimeout (e : EngId) (slot : SlotId)
  /-- DRIVE_ABORT_TIMEOUT (R310): An unanswered abort after 1 s resets the drive's controller. -/
  | driveAbortTimeout (e : EngId) (slot : SlotId)
  /-- CSTS_POLL (R312): The warden reads each drive's CSTS every 100 ms and resets one with CFS set. -/
  | cstsPoll (drive : DriveId) (cfs : Bool)
  /-- DRIVE_RESET_COMPLETE (R312): CSTS.RDY falls and bring-up reruns, or quarantine follows a missing ready. -/
  | driveResetComplete (drive : DriveId) (ok : Bool)
  /-- DRVN_QUAR (R318): DRVn_CTRL.QUAR quarantines the drive at once. -/
  | drvnQuar (drive : DriveId)
  /-- DRVN_RELEASE (R316): DRVn_CTRL.RELEASE takes a drive out of quarantine through bring-up. -/
  | drvnRelease (drive : DriveId)
  /-- DRIVE_LINK_DOWN (R317): A surprise link down makes the drive ABSENT and completes its commands. -/
  | driveLinkDown (drive : DriveId)
  /-- DIELINK_DOWN (R33): The die-to-die data lanes fail and crossing commands complete with an error. -/
  | dielinkDown
  /-- DIELINK_RETRAIN (R319): The die link retrains every 100 ms until it returns. -/
  | dielinkRetrain (ok : Bool)
  /-- FAULT_EVENT_READ (R320): The warden reads a fault, records it and starts, escalates or absorbs a recovery. -/
  | faultEventRead (die : Bool)
  /-- RECOVERY_DRAIN_DONE (R321): A recovering domain's drive commands have ended and it is reset, self-tested and released. -/
  | recoveryDrainDone (entry : Fin 16) (fails : List Nat) (code : Fin 5)
  /-- QUEUE_FLUSH (R254): QCn_CTRL.FLUSH empties a queue and restores every credit. -/
  | queueFlush (q : Fin 1543)
  /-- QUEUE_ENABLE (R258): QCn_CTRL.EN enables a queue granting every credit, or flushes it on disable. -/
  | queueEnable (q : Fin 1543) (en : Bool)
  /-- QUEUE_MIDDLE_BURST (R251): A 512 B burst moves between a queue's tail, DRAM middle and head. -/
  | queueMiddleBurst (f : FuncId) (up : Bool) (err : Bool)
  /-- REG_ACCESS_TIMEOUT (R329): A warden register access unfinished after 10 µs is ended and recorded in WRD_BUSERR. -/
  | regAccessTimeout (index : Fin 16)
  /-- CROAK (R339): A write of WRD_CROAK.SEQ forwards a heartbeat to the vault. -/
  | croak (seq : BitVec 16)
  /-- CROAK_MISS (R339): A missing or out-of-sequence croak restarts the warden. -/
  | croakMiss
  /-- ICU_SWSET (R337): Sets a software interrupt source. -/
  | icuSwset (value : U8)
  /-- MBX_DOORBELL (R346): The owner rings a mailbox page's doorbell, moving it to PENDING or setting OVERRUN. -/
  | mbxDoorbell (p : PageId)
  /-- MBX_HDATA_ACCESS (R492): A host access to MBX_HDATA reads or writes the page word and advances WORD. -/
  | mbxHdataAccess (p : PageId) (write : Option Word)
  /-- MBX_ACCEPT (R346): MBX_PCMDp.ACCEPT moves a page to ACCEPTED and records the acceptance time. -/
  | mbxAccept (p : PageId)
  /-- MBX_DONE (R493): MBX_PCMDp.DONE moves a page to DONE after its response writes complete. -/
  | mbxDone (p : PageId)
  /-- MBX_PAGE_RESET (R347): MBX_PCMDp.RESET returns a page to IDLE and forgets its sequence state. -/
  | mbxPageReset (p : PageId)
  /-- MCTP_MESSAGE (R357): An SMBus endpoint delivers a complete MCTP message to its page or protocol. -/
  | mctpMessage (k : Fin 2) (inner : Bytes)
  /-- MCTP_ASSEMBLY_TIMEOUT (R359): More than 100 ms between packets of one message drops the assembly. -/
  | mctpAssemblyTimeout (k : Fin 2) (src : U8) (tag : Fin 16)
  /-- SPDM_REQUEST (R360): An SPDM request on a DOE mailbox or MCTP endpoint is answered by the responder. -/
  | spdmRequest (at_ : Fin 6) (kind : Fin 3) (msg : Bytes)
  /-- IDENTIFY (R354): Returns part, stepping, feature and firmware identification. -/
  | identify (p : PageId)
  /-- STATUS (R354): Returns power, tail-drop, restart and epoch status. -/
  | status (p : PageId)
  /-- ATTEST (R363): Returns signed measurements bound to the tenant's nonce. -/
  | attest (p : PageId) (nonce : Bytes)
  /-- CERT_READ (R361): Returns part of a certificate chain. -/
  | certRead (p : PageId) (slot : U8) (off : Word) (len : BitVec 16)
  /-- IMPORT_KEY_GET (R354): Returns the ML-KEM-1024 encapsulation key. -/
  | importKeyGet (p : PageId)
  /-- NONCE_GET (R173): Issues the controller's 16-byte import nonce. -/
  | nonceGet (p : PageId)
  /-- KEY_IMPORT (R175): Imports a sealed key into a band's HANDLE or NEXT slot. -/
  | keyImport (p : PageId) (nsid : Word) (band : U8) (mode : U8) (target : U8) (nonce : Bytes) (ct : Bytes) (sealed : Bytes) (spare : BitVec 20)
  /-- KEY_GENERATE (R176): Has the vault generate a key into a band's slot. -/
  | keyGenerate (p : PageId) (nsid : Word) (band : U8) (mode : U8) (target : U8) (spare : BitVec 20)
  /-- ERASE_BAND (R179): Crypto-erases one keyslot within the erase deadline. -/
  | eraseBand (p : PageId) (band : U8) (f : BitVec 16) (nsid : Word) (late : List TileId)
  /-- ERASE_NAMESPACE (R179): Crypto-erases every keyslot of a namespace. -/
  | eraseNamespace (p : PageId) (f : BitVec 16) (nsid : Word) (late : List TileId)
  /-- ERASE_CONTROLLER (R179): Crypto-erases every keyslot owned by a controller. -/
  | eraseController (p : PageId) (f : BitVec 16) (late : List TileId)
  /-- ERASE_DEVICE (R180): Replaces the epoch secret and purges every tile. -/
  | eraseDevice (p : PageId)
  /-- ERASE_PURGE_ESCALATION (R179): A tile purge not complete 8 ms after acceptance makes the warden have the vault drive the purge line. -/
  | erasePurgeEscalation (index : Fin 2)
  /-- LEDGER_READ (R247): Returns one whole copy of a tenant ledger record. -/
  | ledgerRead (p : PageId) (f : BitVec 16)
  /-- RATE_SET (R353): Sets a controller's mailbox rate limits. -/
  | rateSet (p : PageId) (f : BitVec 16) (gRate : BitVec 16) (gBurst : BitVec 16) (vRate : BitVec 16) (vBurst : BitVec 16)
  /-- MOLT_START (R185): Creates a molt in ARMED for a band with a valid NEXT key. -/
  | moltStart (p : PageId) (nsid : Word) (band : U8)
  /-- MOLT_PAUSE (R186): Pauses a RUNNING molt with cause OPERATOR. -/
  | moltPause (p : PageId) (m : U8)
  /-- MOLT_RESUME (R186): Resumes a molt paused by a cause that only molt-resume clears. -/
  | moltResume (p : PageId) (m : U8)
  /-- MOLT_CANCEL (R186): Deletes an ARMED molt. -/
  | moltCancel (p : PageId) (m : U8)
  /-- MOLT_STATUS (R354): Returns a molt record. -/
  | moltStatus (p : PageId) (m : U8)
  /-- TENANT_SET (R232): Sets a controller's admission contract and home. -/
  | tenantSet (p : PageId) (f : BitVec 16) (commit : BitVec 16) (elastic : BitVec 16) (quota : BitVec 16) (lat : U8) (home : Option (Fin 4))
  /-- TENANT_DELETE (R354): Deletes a tenant with no attached namespace. -/
  | tenantDelete (p : PageId) (f : BitVec 16)
  /-- NS_CREATE (R354): Creates a namespace at the lowest free NSX. -/
  | nsCreate (p : PageId) (nsze : DWord) (lbads : U8) (nbands : U8)
  /-- NS_EXTENTS (R215): Stages extent records and checks them at COMMIT. -/
  | nsExtents (p : PageId) (nsx : BitVec 16) (first : BitVec 16) (recs : List ExtRec) (commit : Bool)
  /-- NS_BANDS (R152): Sets a namespace's band START values. -/
  | nsBands (p : PageId) (nsx : BitVec 16) (starts : List DWord)
  /-- NS_ATTACH (R193): Attaches a namespace to a controller, programming molt gates first. -/
  | nsAttach (p : PageId) (f : BitVec 16) (nsid : Word) (nsx : BitVec 16) (alt : Bool)
  /-- NS_DETACH (R212): Detaches a namespace from a controller. -/
  | nsDetach (p : PageId) (f : BitVec 16) (nsid : Word) (nsx : BitVec 16)
  /-- NS_DELETE (R354): Deletes a namespace whose keyslots are all ERASED or EMPTY. -/
  | nsDelete (p : PageId) (nsx : BitVec 16)
  /-- RAIL_COMMIT (R237): Sets a tile's committed rail. -/
  | railCommit (p : PageId) (t : U8) (mv : BitVec 16)
  /-- IDE_REQUIRE (R283): Requires a controller or operator page to use an IDE stream. -/
  | ideRequire (p : PageId) (who : BitVec 16) (stream : Option (Fin 8))
  /-- GROUP_MODE (R276): Changes a port group's mode while its slots are disabled. -/
  | groupMode (p : PageId) (g : U8) (value : Word)
  /-- DRIVE_ASSIGN (R306): Assigns a drive to an index and records its identity. -/
  | driveAssign (p : PageId) (d : U8)
  /-- DRIVE_RELEASE (R316): Releases a drive from quarantine. -/
  | driveRelease (p : PageId) (d : U8)
  /-- DRIVE_RESET (R312): Has the part reset a drive's controller. -/
  | driveReset (p : PageId) (d : U8)
  /-- DRIVE_STATUS (R303): Returns a drive's state. -/
  | driveStatus (p : PageId) (d : U8)
  /-- FAULT_READ (R354): Returns the fault ledger and quarantine masks. -/
  | faultRead (p : PageId)
  /-- FAULT_CLEAR (R322): Runs a recovery of a quarantined domain. -/
  | faultClear (p : PageId) (level : U8) (index : U8)
  /-- POWER_STATE_ACTIVE (R444): Leaves BASKING for ACTIVE. -/
  | powerStateActive (p : PageId) (flags : U8) (rsv : BitVec 16)
  /-- POWER_STATE_BASKING (R443): Enters BASKING after shutting down drives and tiles. -/
  | powerStateBasking (p : PageId) (flags : U8) (rsv : BitVec 16) (stop : Fin 6)
  /-- POWER_STATE_BRUMATION (R445): Enters BRUMATION through the stage 5 sequence. -/
  | powerStateBrumation (p : PageId) (flags : U8) (rsv : BitVec 16) (stop : Fin 9)
  /-- CAPSULE_CAPTURE (R472): Captures and signs a fault capsule into SPI NOR. -/
  | capsuleCapture (p : PageId)
  /-- CAPSULE_READ (R472): Returns bytes of the stored capsule. -/
  | capsuleRead (p : PageId) (off : Word) (len : BitVec 16)
  /-- CLAIM (R356): Claims a range of a shared resource class, or answers CONFLICT. -/
  | claim (p : PageId) (cls : U8) (first : U8) (count : U8) (label : U8)
  /-- RELEASE (R356): Releases a claim held by the page. -/
  | release (p : PageId) (cls : U8) (first : U8) (count : U8)
  /-- OWNERS (R356): Returns the holders of one resource class. -/
  | owners (p : PageId) (cls : U8)
  /-- FW_STATUS (R465): Returns each bundle slot's version and state. -/
  | fwStatus (p : PageId)
  /-- FW_BEGIN (R465): Erases the non-booted slot for an update. -/
  | fwBegin (p : PageId) (ok : Bool)
  /-- FW_WRITE (R466): Programs bundle data at the next expected offset. -/
  | fwWrite (p : PageId) (off : Word) (data : Bytes) (ok : Bool)
  /-- FW_VERIFY (R465): Runs the boot checks on the non-booted slot. -/
  | fwVerify (p : PageId)
  /-- FW_ACTIVATE (R465): Schedules a part reset into a newer valid slot. -/
  | fwActivate (p : PageId)
  /-- FW_INVALIDATE (R465): Erases the header of the non-booted slot. -/
  | fwInvalidate (p : PageId) (ok : Bool)
  /-- CONFIG_READ (R471): Returns bytes of the configuration block in SPI NOR. -/
  | configRead (p : PageId) (off : Word) (len : BitVec 16)
  /-- CONFIG_STAGE (R465): Writes into the configuration staging buffer. -/
  | configStage (p : PageId) (off : Word) (data : Bytes)
  /-- CONFIG_COMMIT (R471): Checks and programs the staged configuration block. -/
  | configCommit (p : PageId) (ok : Bool)
  /-- TEST_CHALLENGE (R475): Draws a 32-byte test-mode challenge. -/
  | testChallenge (p : PageId)
  /-- TEST_STAGE (R475): Stages test token bytes. -/
  | testStage (p : PageId) (off : Word) (data : Bytes)
  /-- TEST_UNLOCK (R476): Verifies the token, zeroizes and opens the test modes. -/
  | testUnlock (p : PageId)
  /-- TEST_CHALLENGE_EXPIRY (R475): A test challenge lapses after 600 s. -/
  | testChallengeExpiry
  /-- PART_RESET (R465): Schedules a part reset 100 ms after the response. -/
  | partReset (p : PageId)
  /-- STORE_ADOPT (R463): Adopts a refused store by bumping SLOTMAP_VER and loading it. -/
  | storeAdopt (p : PageId) (base : Fin 32)
  /-- CUSTODY_STATUS (R393): Returns vault custody status. -/
  | custodyStatus (p : PageId)
  /-- CUSTODY_INIT (R384): Creates the epoch and sharing polynomials in BLANK. -/
  | custodyInit (p : PageId) (m : U8) (n : U8)
  /-- SHARE_ISSUE (R393): Issues one share to a custodian card, whose words at the activation, GET KEY and STORE SHARE are given. -/
  | shareIssue (p : PageId) (index : U8) (c : Fin 64) (start key store : List (List Word))
  /-- SHARE_ROTATE (R384): Draws new sharing polynomials and raises the generation. -/
  | shareRotate (p : PageId)
  /-- RESTORE_BEGIN (R387): Starts collecting shares for a restore. -/
  | restoreBegin (p : PageId)
  /-- RESTORE_ADD (R387): Collects one card's share and restores the epoch at quorum; the card's words at the activation, SELECT, GET KEY and RELEASE
  SHARE are given. -/
  | restoreAdd (p : PageId) (index : U8) (c : Fin 64) (start select key release : List (List Word))
  /-- RESTORE_ABORT (R387): Ends a restore, erasing held shares. -/
  | restoreAbort (p : PageId)
  /-- TAMPER_ACK (R374): Clears the tamper latch after every armed sensor has been quiet 1 s. -/
  | tamperAck (p : PageId) (noisy : BitVec 7)
  /-- WAKE_CONFIG (R380): Configures a wake pin. -/
  | wakeConfig (p : PageId) (pin : U8) (en : Bool) (pol : Bool) (level : Bool)
  /-- VLEDGER_READ (R393): Returns retained-ledger bytes. -/
  | vledgerRead (p : PageId) (off : Word) (len : BitVec 16)
  /-- DEVICE_ERASE_STATUS (R393): Returns the floor fuses left. -/
  | deviceEraseStatus (p : PageId)
  /-- ERASEREG_REGISTER (R341): Registers an erase with the vault and starts its 8.1 ms timer. -/
  | eraseregRegister
  /-- ERASEREG_WITHDRAW (R341): Withdraws an erase registration. -/
  | eraseregWithdraw (slot : Fin 2)
  /-- ERASE_BACKSTOP (R341): An erase registration still held at 8.1 ms makes the vault drive the purge line. -/
  | eraseBackstop (slot : Fin 2)
  /-- VLT_NONCE (R392): Vault command issuing a controller's import nonce. -/
  | vltNonce (f : FuncId)
  /-- VLT_IMPORT (R392): Vault command running the import checks and wrapping the key. -/
  | vltImport (f : FuncId) (mode : Fin 4) (slot : BitVec 20) (gen : Fin 16) (nsx : BitVec 16) (band : Fin 64) (alt : Option (Fin 1024)) (aad : Bytes) (ct : Bytes) (sealed : Bytes)
  /-- VLT_GENERATE (R392): Vault command generating and wrapping a key. -/
  | vltGenerate (f : FuncId) (mode : Fin 4) (slot : BitVec 20) (gen : Fin 16) (nsx : BitVec 16) (band : Fin 64) (alt : Option (Fin 1024))
  /-- VLT_SIGN (R392): Vault command signing a digest with the slot 0 or 1 key. -/
  | vltSign (slot : Fin 2) (digest : Bytes)
  /-- VLT_DEVICE_ERASE (R392): Vault command blowing a floor fuse and running the device erase. -/
  | vltDeviceErase
  /-- VLT_SLOTMAP_BUMP (R369): Vault command raising SLOTMAP_VER by 1. -/
  | vltSlotmapBump
  /-- VLT_CUSTODY_INIT (R384): Vault command creating the epoch and custody descriptor. -/
  | vltCustodyInit (m : U8) (n : U8)
  /-- VLT_SHARE_ROTATE (R384): Vault command rotating the share polynomials. -/
  | vltShareRotate
  /-- VLT_SHARE_OUT (R392): Vault command returning STORE SHARE data for a card. -/
  | vltShareOut (index : U8) (card : Bytes)
  /-- VLT_RESTORE_BEGIN (R387): Vault command moving EPOCHST to RESTORING. -/
  | vltRestoreBegin
  /-- VLT_CHALLENGE (R386): Vault command returning RELEASE SHARE data. -/
  | vltChallenge (index : U8)
  /-- VLT_SHARE_IN (R388): Vault command taking a card's sealed share and checking it. -/
  | vltShareIn (index : U8) (card : Bytes) (blob : Bytes)
  /-- VLT_RESTORE_ABORT (R387): Vault command ending a restore. -/
  | vltRestoreAbort
  /-- VLT_TAMPER_ACK (R374): Vault command acknowledging the tamper latch. -/
  | vltTamperAck (noisy : BitVec 7)
  /-- VLT_WARDEN_RESET (R340): Vault command restarting the warden. -/
  | vltWardenReset
  /-- VLT_TEST_UNLOCK (R476): Vault command verifying a test token and zeroizing. -/
  | vltTestUnlock (token : Bytes)
  /-- LEDGER_DATA_ACCESS (R369): A VLT_LDATA access reads or writes a retained-ledger word and advances VLT_LADDR. -/
  | ledgerDataAccess (write : Option Word)
  /-- TAMPER_TRIP (R372): A sensor trip erases the epoch latches, drives the purge line and records the trip. -/
  | tamperTrip (sensors : BitVec 7) (first : Fin 7)
  /-- VHOLD_GLITCH_ARM (R371): VHOLD held at or above 6.0 V for 1 s arms the VHOLD glitch sensor. -/
  | vholdGlitchArm
  /-- BROWNOUT (R376): The custody rail at 0.52 V sheds the optional sensors and logs BROWNOUT. -/
  | brownout
  /-- BROWNOUT_RECOVERY (R376): The rail above 0.56 V for 100 ms re-arms the shed sensors. -/
  | brownoutRecovery
  /-- VHOLD_LOW (R375): VHOLD below 6.5 V for 1 s sets VHOLD_LOW and logs it. -/
  | vholdLow (mv : Fin 6500)
  /-- VAULT_CORE_START (R377): The vault core rebuilds the device key and checks ledger and epoch retention. -/
  | vaultCoreStart (lost : Bool) (pufFail : Bool) (noiseOk : Bool) (bad : BitVec 5)
  /-- WAKE (R380): An enabled WAKE pin event logs a wake or starts exit to ACTIVE. -/
  | wake (first : Fin 8) (mask : U8) (levels : U8)
  /-- NONCE_EXPIRY (R173): An import nonce is used up 60 s after issue. -/
  | nonceExpiry (f : FuncId)
  /-- RESTORE_TIMEOUT (R387): A restore ends 600 s after RESTORE_BEGIN. -/
  | restoreTimeout
  /-- POWER_UP (R455): VIN qualified for 10 ms starts the power-up sequence. -/
  | powerUp (mv : Fin 40001) (iin : BitVec 16)
  /-- PART_RST_PIN (R453): PART_RST_N held low resets every VIN domain. -/
  | partRstPin
  /-- PARTRST (R485): GLB_CTRL.PARTRST with the key starts a part reset. -/
  | partrst (key : BitVec 16)
  /-- WARDEN_BOOT (R459): The boot ROM verifies the bundle slots and enters firmware or recovery mode. -/
  | wardenBoot (norOk : Bool) (cfgOk : Bool)
  /-- STORE_LOAD (R463): The warden compares the store version with the vault and loads or refuses it. -/
  | storeLoad (base : Fin 32)
  /-- TAIL_DROP_ENTRY (R448): VIN below a stage threshold for 20 µs enters the next tail-drop stage. -/
  | tailDropEntry (mv : Fin 40001) (iin : BitVec 16)
  /-- TAIL_DROP_EXIT (R449): VIN at the leave value for 1 ms leaves the deepest stage. -/
  | tailDropExit (mv : Fin 40001) (iin : BitVec 16) (volts : List Nat)
  /-- VIN_COLLAPSE (R451): VIN below 4.6 V for 2 µs starts stage 5 at once. -/
  | vinCollapse (mv : Fin 40001) (iin : BitVec 16)
  /-- THERMAL_CLIP (R440): Tj at 110 °C for 100 µs applies the stage-2 overrides. -/
  | thermalClip (tj : U8)
  /-- THERMAL_CLIP_END (R440): Every monitor below 100 °C for 10 ms ends the clip. -/
  | thermalClipEnd (tj : U8) (volts : List Nat)
  /-- THERMAL_SHUTDOWN (R440): Tj at 120 °C for 100 µs acts as stage 5. -/
  | thermalShutdown (tj : U8)
  /-- THERM_THRESHOLD (R487): The hottest Tj crossing TRIP or its hysteresis changes HOT and raises THERM. -/
  | thermThreshold (tj : U8)
  /-- DOMREQ_WRITE (R430): A PWR_DOMREQ write requests domains on or off, discarded if it breaks order. -/
  | domreqWrite (hi : Bool) (value : Word)
  /-- DOMAIN_SWITCH_COMPLETE (R431): A domain finishes switching on or off. -/
  | domainSwitchComplete (index : Fin 40)
  /-- RAIL_TARGET_WRITE (R436): A PWR_TTGT write retargets a tile rail through the budget. -/
  | railTargetWrite (t : TileId) (target : Fin 1024) (mv : Fin 1024)
  /-- RAIL_SETTLED (R432): A tile rail settles at its target and its charge and guarantee update. -/
  | railSettled (t : TileId) (mv : Fin 1024)
  /-- BUDGET_WRITE (R436): A PWR_BUDGET write changes the tile budget without lowering any rail. -/
  | budgetWrite (value : Fin 8192)
  /-- BRUMATE (R445): PWR_CTRL.BRUMATE starts the power die's stage 5 sequence. -/
  | brumate
  /-- TDSTAT_CLR (R438): Sets DEEPEST to the present stage. -/
  | tdstatClr
  /-- DRAM_SELF_REFRESH (R439): An idle DRAM channel enters power-down or self-refresh. -/
  | dramSelfRefresh (ch : Fin 16) (mode : Fin 3)
  /-- GO (R400): Tadpole jump to ADDR when its test passes. -/
  | goTadpole (n : Fin 8) (c : Fin 8) (test : Fin 8) (neg : Bool) (addr : BitVec 6) (balls : DWord)
  /-- CDN (R400): Tadpole count-down of K0 or K1, repeating until zero. -/
  | cdn (n : Fin 8) (c : Fin 8) (k : Bool)
  /-- HOLD (R400): Tadpole stall until a pin, ticker or flag reads the level. -/
  | hold (n : Fin 8) (c : Fin 8) (lvl : Bool) (src : Fin 4) (index : BitVec 6) (balls : DWord)
  /-- SHIN (R402): Tadpole shift of bits into RXR. -/
  | shin (n : Fin 8) (c : Fin 8) (src : Fin 8) (count : BitVec 6) (balls : DWord)
  /-- SHOUT (R402): Tadpole shift of bits out of TXR. -/
  | shout (n : Fin 8) (c : Fin 8) (dst : Fin 8) (count : BitVec 6)
  /-- PUSH (R400): Tadpole move of RXR into the receive FIFO, stalling without credit. -/
  | push (n : Fin 8) (c : Fin 8)
  /-- PULL (R400): Tadpole load of TXR from the transmit FIFO, stalling while empty. -/
  | pull (n : Fin 8) (c : Fin 8)
  /-- PUT (R400): Tadpole drive, release or toggle of SET-window pins. -/
  | put (n : Fin 8) (c : Fin 8) (act : Fin 4) (level : Bool) (mask : BitVec 5)
  /-- LDK (R400): Tadpole load or append of an immediate into a counter. -/
  | ldk (n : Fin 8) (c : Fin 8) (k : Bool) (append : Bool) (imm : BitVec 10)
  /-- XFER (R400): Tadpole copy, invert or bit-reverse between registers and pins. -/
  | xfer (n : Fin 8) (c : Fin 8) (dst : Fin 8) (op : Fin 4) (src : Fin 8) (balls : DWord)
  /-- SIG (R400): Tadpole flag set, flag clear or service request. -/
  | sig (n : Fin 8) (c : Fin 8) (op : Fin 4) (flag : Fin 8)
  /-- END (R400): Tadpole context stop with a service request. -/
  | endContext (n : Fin 8) (c : Fin 8)
  /-- RUN (R407): Starts a stopped tadpole context from ENTRY. -/
  | run (n : Fin 8) (c : Fin 8)
  /-- ARM (R407): Prepares a context to start at the next synchronous START. -/
  | arm (n : Fin 8) (c : Fin 8)
  /-- STOP (R407): Stops a context at its next slot with pins frozen. -/
  | stop (n : Fin 8) (c : Fin 8)
  /-- PIO_FLUSH (R407): Flushes a context's FIFOs. -/
  | pioFlush (n : Fin 8) (c : Fin 8)
  /-- START (R408): Starts ARMED contexts of selected tadpoles on one edge. -/
  | start (mask : U8)
  /-- STOPCLK (R408): Stops selected tadpole clocks at the end of their rounds. -/
  | stopclk (mask : U8)
  /-- RESTART (R408): Restarts selected tadpole clocks together in lockstep. -/
  | restart (mask : U8)
  /-- PIO_TX_WRITE (R415): Writes a word to a context's transmit FIFO, discarded without credit. -/
  | pioTxWrite (n : Fin 8) (c : Fin 8) (data : Word)
  /-- PIO_RX_READ (R415): Reads and removes a word from a context's receive FIFO. -/
  | pioRxRead (n : Fin 8) (c : Fin 8)
  /-- FLAGSET (R414): Sets tadpole flags from the warden. -/
  | flagset (n : Fin 8) (value : U8)
  /-- TICKER_ENABLE (R406): ICU_TKCTL.EN rising loads RELOAD and starts a ticker. -/
  | tickerEnable (k : Fin 8) (value : Word)
  /-- TICKER_EXPIRY (R405): A ticker reaches 0, reloads and advances its expiry count. -/
  | tickerExpiry (k : Fin 8)
  /-- CARD_PRESENCE_LOSS (R417): The presence pin reading absent deactivates the card within 1 ms. -/
  | cardPresenceLoss (c : Fin 64)
  /-- LAMP_VERDICT (R423): A verdict 40 µs into an on-time judges the sink SHORT, OPEN or GOOD. -/
  | lampVerdict (j : Fin 32) (vpin : U8) (cur : BitVec 16)
  /-- LAMP_PROBE (R425): Every 2 s a probing sink lengthens one on-time to 40 µs for a verdict. -/
  | lampProbe (j : Fin 32) (vpin : U8) (cur : BitVec 16)
  /-- LAMP_UNMEASURED_TIMEOUT (R424): 2.1 s without a verdict returns STATUS to UNMEASURED. -/
  | lampUnmeasuredTimeout (j : Fin 32)
  /-- SHORTOFF_RELEASE (R422): Writing 1 to SHORTOFF releases a sink held off after a short. -/
  | shortoffRelease (j : Fin 32)
  /-- REGISTER_WRITE (R11): A write to a register field without behaviour of its own updates it under its access type. -/
  | registerWrite (p : Pid) (addr : Word) (value : Word)
  /-- ILLEGAL (R40): A processor issues an undefined, absent-extension or must-be-zero-violating word and takes the ILLEGAL exception. -/
  | illegal (p : Pid) (word : Word) (parity : Bool)
  /-- ILLEGAL_TADPOLE_WORD (R404): A tadpole context executes an illegal word or a nonzero must-be-zero field and enters FAULT. -/
  | illegalTadpoleWord (n : Fin 8) (c : Fin 8) (word : BitVec 16)
  /-- REKEY_MOVED (R136): A REKEY transfer finishes its scratch-to-scratch passes, reaches MOVED and queues its completion entry. -/
  | rekeyMoved (e : EngId) (slot : SlotId) (err : Fin 3)
  /-- REFCLK_QUALIFYING (R292): Edges return within tolerance on a reference input, which becomes QUALIFYING and is selected out of holdover. -/
  | refclkQualifying (b : Bool)
  /-- REFCLK_STANDBY_LOSS (R291): The reference input not in use becomes ABSENT or OUT_OF_TOLERANCE and restarts its qualification. -/
  | refclkStandbyLoss (oot : Bool)
  /-- SWITCHBACK_LIMIT_EXPIRY (R293): The 1 s since the previous switchback ends while the primary is GOOD, and the switchback begins. -/
  | switchbackLimitExpiry
  /-- UPSTREAM_LINK_UP (R280): An upstream link finishes training to L0 and its port's functions come back. -/
  | upstreamLinkUp (u : PortId) (rate : Fin 7) (width : Fin 17)
  /-- CLKREQ_EDGE (R335): CLKREQ# of an upstream port changes level, is counted by the asynchronous latch, and gates L1.1 and L1.2. -/
  | clkreqEdge (u : PortId) (high : Bool)
  /-- CC_SHN_CHANGE (R336): A host writes CC.SHN of a controller, raising FNSTATE for the warden. -/
  | ccShnChange (f : FuncId) (shn : Fin 4)
  /-- REPLAY_TIMER_EXPIRY (R295): A link's replay timer expires, so the part replays, counts class 0 and reports AER correctable. -/
  | replayTimerExpiry (port : Fin 32) (linkB : Bool)
  /-- MCTP_PACKET (R359): An SMBus packet arrives and is checked for PEC, EID, SOM and sequence, then dropped or added to an assembly. -/
  | mctpPacket (k : Fin 2) (pec : Bool) (dest : U8) (src : U8) (tag : Fin 16) (som : Bool) (eom : Bool) (seq : Fin 4) (data : Bytes)
  /-- SMBUS_BUS_ERROR (R336): A bus error or lost arbitration on an SMBus raises source SMB0 or SMB1. -/
  | smbusBusError (k : Fin 2)
  /-- SPI_ACCESS_COMPLETE (R336): An SPI NOR access completes and raises source SPI. -/
  | spiAccessComplete
  /-- VHOLD_GLITCH_DISARM (R371): VHOLD falls below 5.5 V at a slew below 2 V/µs, and the VHOLD glitch sensor disarms. -/
  | vholdGlitchDisarm
  /-- NOHOLD (R375): VHOLD crosses 4.5 V while custody is in FULL mode, setting or clearing VLT_STAT.NOHOLD. -/
  | nohold (mv : BitVec 16)
  /-- TAP_INSTRUCTION (R495): The test access port takes an instruction on TCK and answers BYPASS or IDCODE. -/
  | tapInstruction (kind : Fin 3)
  deriving DecidableEq, Repr

end Sys2Proof
end

