-- ==== Sys2Proof/Decode.lean ====
section
/-!
DEFINITION. The decoders: of a table word, which this table gives no bits; of a Sialven instruction word (R39 to R72), used where the part
itself reads instruction words (the loop setup check R60, STEP R92, ILLEGAL R40); total, refusing every illegal word.
-/

namespace Sys2Proof

/-- The command that a word of the opcode table spells: the table gives no row any bits, so no word spells one. -/
def decodeTableWord (_nbits _w : Nat) : Option Instr := none

/-- Field [hi:lo] of an instruction word. -/
def wordFld (w : Word) (hi lo : Nat) : Nat := (w.toNat / 2 ^ lo) % 2 ^ (hi + 1 - lo)

/-- Register field [25:21], [20:16], [15:11] of an instruction word (R39). -/
def wGd (w : Word) : Reg := ⟨wordFld w 25 21 % 32, Nat.mod_lt _ (by decide)⟩
def wGs (w : Word) : Reg := ⟨wordFld w 20 16 % 32, Nat.mod_lt _ (by decide)⟩
def wGt (w : Word) : Reg := ⟨wordFld w 15 11 % 32, Nat.mod_lt _ (by decide)⟩
def wImm (w : Word) : Imm := BitVec.ofNat 16 w.toNat
def wGtBits (w : Word) : U5 := BitVec.ofNat 5 (wordFld w 15 11)
def wHi (w : Word) : U5 := BitVec.ofNat 5 (wordFld w 10 6)
def wCtx (w : Word) : Fin 4 := ⟨wordFld w 12 11 % 4, Nat.mod_lt _ (by decide)⟩

/-- The control register numbers of R72. -/
def crNumbers : List Nat :=
  [0, 1, 2, 3, 4, 5, 6, 0x10, 0x11, 0x12, 0x14, 0x15, 0x16, 0x18, 0x20, 0x21, 0x22, 0x23, 0x30, 0x31, 0x32, 0x33, 0x34]

/-- The control registers that CWR may write (R70, R72). -/
def crWritable : List Nat := [1, 2, 3, 4, 5, 6, 0x10, 0x11, 0x12, 0x14, 0x15, 0x16, 0x18]

/-- A selector that KSET writes, and one that KGET reads (R65). -/
def kselWritable (sel : Nat) : Bool := sel ≤ 6
def kselReadable (sel : Nat) : Bool := sel ≤ 6 || sel = 8 || sel = 9

/-- OP: base register operations (R43). -/
def decodeOp (p : Pid) (w : Word) : Option Instr :=
  let f := wordFld w 10 0
  if f = 0x001 then some (.add p (wGd w) (wGs w) (wGt w))
  else if f = 0x002 then some (.sub p (wGd w) (wGs w) (wGt w))
  else if f = 0x003 then some (.and p (wGd w) (wGs w) (wGt w))
  else if f = 0x004 then some (.or p (wGd w) (wGs w) (wGt w))
  else if f = 0x005 then some (.xor p (wGd w) (wGs w) (wGt w))
  else if f = 0x006 then some (.sll p (wGd w) (wGs w) (wGt w))
  else if f = 0x007 then some (.srl p (wGd w) (wGs w) (wGt w))
  else if f = 0x008 then some (.sra p (wGd w) (wGs w) (wGt w))
  else if f = 0x009 then some (.cmp p (wGd w) (wGs w) (wGt w))
  else if f = 0x00A then some (.cmpu p (wGd w) (wGs w) (wGt w))
  else if f = 0x010 then some (.slli p (wGd w) (wGs w) (wGtBits w))
  else if f = 0x011 then some (.srli p (wGd w) (wGs w) (wGtBits w))
  else if f = 0x012 then some (.srai p (wGd w) (wGs w) (wGtBits w))
  else none

/-- OP-M (R43). -/
def decodeOpM (p : Pid) (w : Word) : Option Instr :=
  let f := wordFld w 10 0
  if f = 0 then some (.mul p (wGd w) (wGs w) (wGt w))
  else if f = 1 then some (.mulhs p (wGd w) (wGs w) (wGt w))
  else if f = 2 then some (.mulhu p (wGd w) (wGs w) (wGt w))
  else if f = 3 then some (.macc p (wGd w) (wGs w) (wGt w))
  else if f = 4 then some (.div p (wGd w) (wGs w) (wGt w))
  else if f = 5 then some (.divu p (wGd w) (wGs w) (wGt w))
  else if f = 6 then some (.mod p (wGd w) (wGs w) (wGt w))
  else if f = 7 then some (.modu p (wGd w) (wGs w) (wGt w))
  else none

/-- OP-B: bits [5:0] of func select, bits [10:6] are zero but in CRC32C, BFX and BFI (R43, R45). -/
def decodeOpB (p : Pid) (w : Word) : Option Instr :=
  let f := wordFld w 5 0
  let h := wordFld w 10 6
  if f = 11 then
    if hs : h < 3 then some (.crc32c p (wGd w) (wGs w) (wGt w) ⟨h, hs⟩) else none
  else if f = 12 then
    if wordFld w 15 11 + h + 1 ≤ 32 then some (.bfx p (wGd w) (wGs w) (wGtBits w) (wHi w)) else none
  else if f = 13 then
    if wordFld w 15 11 + h + 1 ≤ 32 then some (.bfi p (wGd w) (wGs w) (wGtBits w) (wHi w)) else none
  else if h ≠ 0 then none
  else if f = 0 then (if wordFld w 15 11 = 0 then some (.clz p (wGd w) (wGs w)) else none)
  else if f = 1 then (if wordFld w 15 11 = 0 then some (.ctz p (wGd w) (wGs w)) else none)
  else if f = 2 then (if wordFld w 15 11 = 0 then some (.popc p (wGd w) (wGs w)) else none)
  else if f = 3 then (if wordFld w 15 11 = 0 then some (.bswap p (wGd w) (wGs w)) else none)
  else if f = 4 then (some (.rotl p (wGd w) (wGs w) (wGt w)))
  else if f = 5 then (some (.rotr p (wGd w) (wGs w) (wGt w)))
  else if f = 6 then (some (.andn p (wGd w) (wGs w) (wGt w)))
  else if f = 7 then (some (.min p (wGd w) (wGs w) (wGt w)))
  else if f = 8 then (some (.max p (wGd w) (wGs w) (wGt w)))
  else if f = 9 then (some (.minu p (wGd w) (wGs w) (wGt w)))
  else if f = 10 then (some (.maxu p (wGd w) (wGs w) (wGt w)))
  else none

/-- OP-K: lane profile only; bits [4:2] of the gt field are zero (R37, R63). -/
def decodeOpK (p : Pid) (w : Word) : Option Instr :=
  let f := wordFld w 5 0
  let h := wordFld w 10 6
  if p.val = 128 || wordFld w 15 13 ≠ 0 then none
  else if f = 0 then (if h = 0 then some (.kload p (wGd w) (wGs w) (wCtx w) none) else none)
  else if f = 1 then (if h = 0 && wordFld w 20 16 = 0 then some (.kwait p (wGd w) (wCtx w)) else none)
  else if f = 2 then (if h = 0 && wordFld w 25 16 = 0 then some (.krel p (wCtx w)) else none)
  else if f = 3 then (if wordFld w 25 21 = 0 && kselWritable h then some (.kset p (wGs w) (wCtx w) (wHi w)) else none)
  else if f = 4 then (if wordFld w 20 16 = 0 && kselReadable h then some (.kget p (wGd w) (wCtx w) (wHi w)) else none)
  else none

/-- OP-H (R66). -/
def decodeOpH (p : Pid) (w : Word) : Option Instr :=
  let f := wordFld w 5 0
  let h := wordFld w 10 6
  if f = 0 then (if h ≤ 5 && wordFld w 25 11 = 0 then some (.hinit p (wHi w)) else none)
  else if h ≠ 0 then none
  else if f = 1 then (if wordFld w 25 21 = 0 then some (.habs p (wGs w) (wGt w)) else none)
  else if f = 2 then (if wordFld w 20 11 = 0 then some (.hfin p (wGd w)) else none)
  else if f = 3 then (if wordFld w 20 16 = 0 then some (.hget p (wGd w) (wGtBits w)) else none)
  else none

/-- OP-A (R51). -/
def decodeOpA (p : Pid) (w : Word) : Option Instr :=
  let f := wordFld w 10 0
  if f = 0 then some (.atswp p (wGd w) (wGs w) (wGt w))
  else if f = 1 then some (.atadd p (wGd w) (wGs w) (wGt w))
  else if f = 2 then some (.atand p (wGd w) (wGs w) (wGt w))
  else if f = 3 then some (.ator p (wGd w) (wGs w) (wGt w))
  else if f = 4 then some (.atxor p (wGd w) (wGs w) (wGt w))
  else if f = 5 then some (.atwrap p (wGd w) (wGs w) (wGt w))
  else if f = 6 then some (.atdsat p (wGd w) (wGs w) (wGt w))
  else if f = 7 then some (.atcas p (wGd w) (wGs w) (wGt w))
  else none

/-- OP-S: fields the table does not name are zero (R69). -/
def decodeOpS (p : Pid) (w : Word) : Option Instr :=
  let f := wordFld w 10 0
  if wordFld w 15 11 ≠ 0 then none
  else if f = 0 then (if wordFld w 25 21 = 0 then some (.setmode p (wGs w)) else none)
  else if f = 2 then some (.trap p (BitVec.ofNat 10 (wordFld w 25 16)))
  else if wordFld w 25 16 ≠ 0 then none
  else if f = 1 then some (.eret p)
  else if f = 3 then some (.evwait p)
  else if f = 4 then some (.fence p)
  else if f = 5 then some (.flushi p)
  else if f = 6 then some (.breakpoint p)
  else if f = 7 then some (.lexit p)
  else none

/-- The instruction that a word is to processor `p`, or none where the word is illegal (R40, R41). -/
def decodeSialven (p : Pid) (w : Word) : Option Instr :=
  let op := wordFld w 31 26
  if op = 0x00 then decodeOp p w
  else if op = 0x01 then (some (.addi p (wGd w) (wGs w) (wImm w)))
  else if op = 0x02 then (some (.andi p (wGd w) (wGs w) (wImm w)))
  else if op = 0x03 then (some (.ori p (wGd w) (wGs w) (wImm w)))
  else if op = 0x04 then (some (.xori p (wGd w) (wGs w) (wImm w)))
  else if op = 0x05 then (some (.orhi p (wGd w) (wGs w) (wImm w)))
  else if op = 0x06 then (some (.addhi p (wGd w) (wGs w) (wImm w)))
  else if op = 0x07 then (some (.cmpi p (wGd w) (wGs w) (wImm w)))
  else if op = 0x08 then (if wordFld w 20 16 = 0 then some (.adrw p (wGd w) (wImm w)) else none)
  else if op = 0x09 then (decodeOpM p w)
  else if op = 0x0A then (decodeOpB p w)
  else if op = 0x0B then (if wordFld w 25 21 = 0 then some (.loop p (wGs w) (wImm w)) else none)
  else if op = 0x0C then (some (.loopi p (BitVec.ofNat 10 (wordFld w 25 16)) (wImm w)))
  else if op = 0x0D then (decodeOpK p w)
  else if op = 0x0E then (decodeOpH p w)
  else if op = 0x0F then (some (.cmpui p (wGd w) (wGs w) (wImm w)))
  else if op = 0x10 then (some (.lb p (wGd w) (wGs w) (wImm w)))
  else if op = 0x11 then (some (.lh p (wGd w) (wGs w) (wImm w)))
  else if op = 0x12 then (some (.lw p (wGd w) (wGs w) (wImm w)))
  else if op = 0x14 then (some (.lbu p (wGd w) (wGs w) (wImm w)))
  else if op = 0x15 then (some (.lhu p (wGd w) (wGs w) (wImm w)))
  else if op = 0x18 then (some (.sb p (wGd w) (wGs w) (wImm w)))
  else if op = 0x19 then (some (.sh p (wGd w) (wGs w) (wImm w)))
  else if op = 0x1A then (some (.sw p (wGd w) (wGs w) (wImm w)))
  else if op = 0x1C then (decodeOpA p w)
  else if op = 0x20 then (some (.beq p (wGd w) (wGs w) (wImm w)))
  else if op = 0x21 then (some (.bne p (wGd w) (wGs w) (wImm w)))
  else if op = 0x22 then (some (.blt p (wGd w) (wGs w) (wImm w)))
  else if op = 0x23 then (some (.bge p (wGd w) (wGs w) (wImm w)))
  else if op = 0x24 then (some (.bltu p (wGd w) (wGs w) (wImm w)))
  else if op = 0x25 then (some (.bgeu p (wGd w) (wGs w) (wImm w)))
  else if op = 0x28 then (some (.j p (BitVec.ofNat 26 w.toNat)))
  else if op = 0x29 then (some (.jal p (BitVec.ofNat 26 w.toNat)))
  else if op = 0x2A then (some (.jalr p (wGd w) (wGs w) (wImm w)))
  else if op = 0x30 then (decodeOpS p w)
  else if op = 0x31 then (if wordFld w 20 16 = 0 && crNumbers.contains (wImm w).toNat then some (.crd p (wGd w) (wImm w)) else none)
  else if op = 0x32 then (if wordFld w 25 21 = 0 && crWritable.contains (wImm w).toNat then some (.cwr p (wImm w) (wGs w)) else none)
  else none

/-! ## The encoder (R39) -/

/-- The formats REG, IMM (with MEM and BRA), JMP and LPI from their fields (R39). -/
def encReg (op gd gs gt func : Nat) : Word := BitVec.ofNat 32 (op * 2 ^ 26 + gd * 2 ^ 21 + gs * 2 ^ 16 + gt * 2 ^ 11 + func)
def encImm (op gd gs : Nat) (imm : BitVec 16) : Word := BitVec.ofNat 32 (op * 2 ^ 26 + gd * 2 ^ 21 + gs * 2 ^ 16 + imm.toNat)
def encJmp (op : Nat) (off : BitVec 26) : Word := BitVec.ofNat 32 (op * 2 ^ 26 + off.toNat)
def encLpi (count : BitVec 10) (len : BitVec 16) : Word := BitVec.ofNat 32 (0x0C * 2 ^ 26 + count.toNat * 2 ^ 16 + len.toNat)

/-- The processor and the word of a Sialven instruction, or none for a command that is none and for operands that no word holds (R39 to R72). -/
def encodeSialven : Instr → Option (Pid × Word)
  | .add p gd gs gt => some (p, encReg 0x00 gd gs gt 0x001)
  | .sub p gd gs gt => some (p, encReg 0x00 gd gs gt 0x002)
  | .xor p gd gs gt => some (p, encReg 0x00 gd gs gt 0x005)
  | .sll p gd gs gt => some (p, encReg 0x00 gd gs gt 0x006)
  | .srl p gd gs gt => some (p, encReg 0x00 gd gs gt 0x007)
  | .sra p gd gs gt => some (p, encReg 0x00 gd gs gt 0x008)
  | .cmp p gd gs gt => some (p, encReg 0x00 gd gs gt 0x009)
  | .cmpu p gd gs gt => some (p, encReg 0x00 gd gs gt 0x00A)
  | .mul p gd gs gt => some (p, encReg 0x09 gd gs gt 0x000)
  | .mulhs p gd gs gt => some (p, encReg 0x09 gd gs gt 0x001)
  | .mulhu p gd gs gt => some (p, encReg 0x09 gd gs gt 0x002)
  | .macc p gd gs gt => some (p, encReg 0x09 gd gs gt 0x003)
  | .div p gd gs gt => some (p, encReg 0x09 gd gs gt 0x004)
  | .divu p gd gs gt => some (p, encReg 0x09 gd gs gt 0x005)
  | .mod p gd gs gt => some (p, encReg 0x09 gd gs gt 0x006)
  | .modu p gd gs gt => some (p, encReg 0x09 gd gs gt 0x007)
  | .rotl p gd gs gt => some (p, encReg 0x0A gd gs gt 0x004)
  | .rotr p gd gs gt => some (p, encReg 0x0A gd gs gt 0x005)
  | .andn p gd gs gt => some (p, encReg 0x0A gd gs gt 0x006)
  | .min p gd gs gt => some (p, encReg 0x0A gd gs gt 0x007)
  | .max p gd gs gt => some (p, encReg 0x0A gd gs gt 0x008)
  | .minu p gd gs gt => some (p, encReg 0x0A gd gs gt 0x009)
  | .maxu p gd gs gt => some (p, encReg 0x0A gd gs gt 0x00A)
  | .atswp p gd gs gt => some (p, encReg 0x1C gd gs gt 0x000)
  | .atadd p gd gs gt => some (p, encReg 0x1C gd gs gt 0x001)
  | .atand p gd gs gt => some (p, encReg 0x1C gd gs gt 0x002)
  | .ator p gd gs gt => some (p, encReg 0x1C gd gs gt 0x003)
  | .atxor p gd gs gt => some (p, encReg 0x1C gd gs gt 0x004)
  | .atwrap p gd gs gt => some (p, encReg 0x1C gd gs gt 0x005)
  | .atdsat p gd gs gt => some (p, encReg 0x1C gd gs gt 0x006)
  | .atcas p gd gs gt => some (p, encReg 0x1C gd gs gt 0x007)
  | .and p gd gs gt => some (p, encReg 0x00 gd gs gt 0x003)
  | .or p gd gs gt => some (p, encReg 0x00 gd gs gt 0x004)
  | .addi p gd gs imm => some (p, encImm 0x01 gd gs imm)
  | .andi p gd gs imm => some (p, encImm 0x02 gd gs imm)
  | .ori p gd gs imm => some (p, encImm 0x03 gd gs imm)
  | .xori p gd gs imm => some (p, encImm 0x04 gd gs imm)
  | .orhi p gd gs imm => some (p, encImm 0x05 gd gs imm)
  | .addhi p gd gs imm => some (p, encImm 0x06 gd gs imm)
  | .cmpi p gd gs imm => some (p, encImm 0x07 gd gs imm)
  | .cmpui p gd gs imm => some (p, encImm 0x0F gd gs imm)
  | .lb p gd gs imm => some (p, encImm 0x10 gd gs imm)
  | .lh p gd gs imm => some (p, encImm 0x11 gd gs imm)
  | .lw p gd gs imm => some (p, encImm 0x12 gd gs imm)
  | .lbu p gd gs imm => some (p, encImm 0x14 gd gs imm)
  | .lhu p gd gs imm => some (p, encImm 0x15 gd gs imm)
  | .sb p gd gs imm => some (p, encImm 0x18 gd gs imm)
  | .sh p gd gs imm => some (p, encImm 0x19 gd gs imm)
  | .sw p gd gs imm => some (p, encImm 0x1A gd gs imm)
  | .jalr p gd gs imm => some (p, encImm 0x2A gd gs imm)
  | .beq p ga gb off => some (p, encImm 0x20 ga gb off)
  | .bne p ga gb off => some (p, encImm 0x21 ga gb off)
  | .blt p ga gb off => some (p, encImm 0x22 ga gb off)
  | .bge p ga gb off => some (p, encImm 0x23 ga gb off)
  | .bltu p ga gb off => some (p, encImm 0x24 ga gb off)
  | .bgeu p ga gb off => some (p, encImm 0x25 ga gb off)
  | .adrw p gd imm => some (p, encImm 0x08 gd 0 imm)
  | .slli p gd gs sh => some (p, encReg 0x00 gd gs sh.toNat 0x010)
  | .srli p gd gs sh => some (p, encReg 0x00 gd gs sh.toNat 0x011)
  | .srai p gd gs sh => some (p, encReg 0x00 gd gs sh.toNat 0x012)
  | .clz p gd gs => some (p, encReg 0x0A gd gs 0 0x000)
  | .ctz p gd gs => some (p, encReg 0x0A gd gs 0 0x001)
  | .popc p gd gs => some (p, encReg 0x0A gd gs 0 0x002)
  | .bswap p gd gs => some (p, encReg 0x0A gd gs 0 0x003)
  | .crc32c p gd gs gt size => some (p, encReg 0x0A gd gs gt (size.val * 64 + 11))
  | .bfx p gd gs pos wm1 => if pos.toNat + wm1.toNat + 1 ≤ 32 then some (p, encReg 0x0A gd gs pos.toNat (wm1.toNat * 64 + 12)) else none
  | .bfi p gd gs pos wm1 => if pos.toNat + wm1.toNat + 1 ≤ 32 then some (p, encReg 0x0A gd gs pos.toNat (wm1.toNat * 64 + 13)) else none
  | .loop p gs len => some (p, encImm 0x0B 0 gs len)
  | .loopi p count len => some (p, encLpi count len)
  | .lexit p => some (p, encReg 0x30 0 0 0 7)
  | .j p off => some (p, encJmp 0x28 off)
  | .jal p off => some (p, encJmp 0x29 off)
  | .crd p gd num => if crNumbers.contains num.toNat then some (p, encImm 0x31 gd 0 num) else none
  | .cwr p num gs => if crWritable.contains num.toNat then some (p, encImm 0x32 0 gs num) else none
  | .kload p gd gs ctx none => if p.val ≠ 128 then some (p, encReg 0x0D gd gs ctx 0) else none
  | .kwait p gd ctx => if p.val ≠ 128 then some (p, encReg 0x0D gd 0 ctx 1) else none
  | .krel p ctx => if p.val ≠ 128 then some (p, encReg 0x0D 0 0 ctx 2) else none
  | .kset p gs ctx sel => if p.val ≠ 128 && kselWritable sel.toNat then some (p, encReg 0x0D 0 gs ctx (sel.toNat * 64 + 3)) else none
  | .kget p gd ctx sel => if p.val ≠ 128 && kselReadable sel.toNat then some (p, encReg 0x0D gd 0 ctx (sel.toNat * 64 + 4)) else none
  | .hinit p alg => if alg.toNat ≤ 5 then some (p, encReg 0x0E 0 0 0 (alg.toNat * 64)) else none
  | .habs p gs gt => some (p, encReg 0x0E 0 gs gt 1)
  | .hfin p gd => some (p, encReg 0x0E gd 0 0 2)
  | .hget p gd index => some (p, encReg 0x0E gd 0 index.toNat 3)
  | .setmode p gs => some (p, encReg 0x30 0 gs 0 0)
  | .eret p => some (p, encReg 0x30 0 0 0 1)
  | .trap p code => some (p, BitVec.ofNat 32 (0x30 * 2 ^ 26 + code.toNat * 2 ^ 16 + 2))
  | .evwait p => some (p, encReg 0x30 0 0 0 3)
  | .fence p => some (p, encReg 0x30 0 0 0 4)
  | .flushi p => some (p, encReg 0x30 0 0 0 5)
  | .breakpoint p => some (p, encReg 0x30 0 0 0 6)
  | _ => none

end Sys2Proof
end

