-- ==== Sys2Proof/Machine/Tbl.lean ====
section
/-!
DEFINITION. Sparse tables: the one form in which the model keeps registers files, memories and every array of units.
A table is a list of (key, value) pairs with strictly rising keys and no value equal to the default, so equal tables are
equal data. A memory is the table of its bytes.
-/

namespace Sys2Proof.Machine

/-- A sparse table from natural-number keys; an unlisted key holds the default that the reader names. -/
abbrev Tbl (α : Type) := List (Nat × α)

/-- A memory: the table of its bytes, `Host.Cell` by `Host.Cell`. -/
abbrev Memory := List Host.Cell

variable {α : Type}

/-- The value at key `k`, or the default `d`. -/
def Tbl.get (d : α) : Tbl α → Nat → α
  | [], _ => d
  | (i, v) :: t, k => if i = k then v else Tbl.get d t k

/-- `t` with the listed entry of key `k`, if any, taken out. -/
def Tbl.del : Tbl α → Nat → Tbl α
  | [], _ => []
  | (i, v) :: t, k => if i = k then Tbl.del t k else (i, v) :: Tbl.del t k

/-- `t`, which does not list `k`, with the entry (k, v) put in its place in rising order. -/
def Tbl.ins : Tbl α → Nat → α → Tbl α
  | [], k, v => [(k, v)]
  | (i, w) :: t, k, v => if k < i then (k, v) :: (i, w) :: t else (i, w) :: Tbl.ins t k v

/-- `t` with value `v` at key `k`; a default value is held by not listing it. -/
def Tbl.set [DecidableEq α] (d : α) (t : Tbl α) (k : Nat) (v : α) : Tbl α :=
  if v = d then Tbl.del t k else Tbl.ins (Tbl.del t k) k v

/-- `t` with the value at `k` changed by `f`. -/
def Tbl.upd [DecidableEq α] (d : α) (t : Tbl α) (k : Nat) (f : α → α) : Tbl α :=
  Tbl.set d t k (f (Tbl.get d t k))

/-- Every listed value changed by `f`; one that becomes the default is no longer listed. -/
def Tbl.mapv [DecidableEq α] (d : α) (t : Tbl α) (f : α → α) : Tbl α :=
  (t.map fun p => (p.1, f p.2)).filter fun p => decide (p.2 ≠ d)

/-- The canonical form: keys strictly rise and no listed value is the default. -/
def Tbl.wf [DecidableEq α] (d : α) : Tbl α → Bool
  | [] => true
  | [(_, v)] => decide (v ≠ d)
  | (i, v) :: (j, w) :: t => decide (v ≠ d) && decide (i < j) && Tbl.wf d ((j, w) :: t)

end Sys2Proof.Machine
end

