-- ==== Sys2Proof/Machine/Bits.lean ====
section
/-!
DEFINITION. Bit fields, byte order (R8) and saturating counters: the small arithmetic that every block uses.
-/

namespace Sys2Proof.Machine

/-- Field [hi:lo] of a number read as a bit string (R8). -/
def fld (x hi lo : Nat) : Nat := (x / 2 ^ lo) % 2 ^ (hi + 1 - lo)

/-- Bit `i` of a number. -/
def bitOf (x i : Nat) : Bool := x.testBit i

/-- A Bool as the number 0 or 1. -/
def b2n (b : Bool) : Nat := if b then 1 else 0

/-- Number `x` with field [hi:lo] replaced by the low bits of `v`. -/
def setFld (x hi lo v : Nat) : Nat :=
  x - fld x hi lo * 2 ^ lo + (v % 2 ^ (hi + 1 - lo)) * 2 ^ lo

/-- The bits that are 1 in `x` and 0 in `m`, as a W1C write of `m` leaves them (R11). -/
def w1c {w : Nat} (x m : BitVec w) : BitVec w := x &&& ~~~m

/-- A counter of width `w` that stops at its greatest value (R11, R489). -/
def satAdd {w : Nat} (x : BitVec w) (n : Nat) : BitVec w :=
  BitVec.ofNat w (min (x.toNat + n) (2 ^ w - 1))

/-- The little-endian bytes of `v`, `n` of them (R8). -/
def leBytes (n v : Nat) : List Byte :=
  match n with
  | 0 => []
  | n + 1 => BitVec.ofNat 8 v :: leBytes n (v / 256)

/-- The number whose little-endian bytes are the list (R8). -/
def ofLe : List Byte → Nat
  | [] => 0
  | b :: bs => b.toNat + 256 * ofLe bs

/-- The big-endian bytes of `v`, `n` of them, for the fields that a standard fixes so (R8). -/
def beBytes (n v : Nat) : List Byte := (leBytes n v).reverse

/-- The number whose big-endian bytes are the list. -/
def ofBe (bs : List Byte) : Nat := ofLe bs.reverse

/-- The word of the four bytes at `4 * k` of a byte string, missing bytes 0. -/
def wordAt (bs : List Byte) (k : Nat) : Word := BitVec.ofNat 32 (ofLe ((bs.drop (4 * k)).take 4))

/-- The little-endian number in bytes `lo` to `lo + n - 1` of a byte string. -/
def leAt (bs : List Byte) (lo n : Nat) : Nat := ofLe ((bs.drop lo).take n)

/-- A byte string as words, four bytes each, little-endian. -/
def toWords (n : Nat) (bs : List Byte) : List Word := (List.range n).map (wordAt bs)

/-- `bs` cut or zero-filled to `n` bytes. -/
def padTo (n : Nat) (bs : List Byte) : List Byte := (bs ++ List.replicate (n - bs.length) 0).take n

/-- Exclusive OR of two byte strings, as long as the shorter. -/
def xorBytes (a b : List Byte) : List Byte := List.zipWith (· ^^^ ·) a b

/-- `bs` with the bytes from `off` replaced by `new`. -/
def patch (bs : List Byte) (off : Nat) (new : List Byte) : List Byte :=
  bs.take off ++ new ++ bs.drop (off + new.length)

/-- Consecutive pieces of `n` bytes of `bs`, at most `fuel` of them. -/
def chunks (n : Nat) : Nat → List Byte → List (List Byte)
  | 0, _ => []
  | fuel + 1, bs => if bs.isEmpty then [] else bs.take n :: chunks n fuel (bs.drop n)

/-- The bit string of a register as the list of its set positions below `w`, ascending. -/
def setBits (w x : Nat) : List Nat := (List.range w).filter (bitOf x)

/-- A memory's byte at `a`; a byte that nothing has written reads as 0 (DESIGN CHOICE, log 9). -/
def Memory.rd (m : Memory) (a : Nat) : Byte := Tbl.get 0 m a

/-- A memory with one byte written, in canonical form. -/
def Memory.wr (m : Memory) (a : Nat) (v : Byte) : Memory := Tbl.set 0 m a v

/-- `n` bytes from `a`, lowest address first. -/
def Memory.bytes (m : Memory) (a n : Nat) : List Byte := (List.range n).map fun i => Memory.rd m (a + i)

/-- A memory with a byte string written from `a`. -/
def Memory.put (m : Memory) (a : Nat) : List Byte → Memory
  | [] => m
  | b :: bs => Memory.put (Memory.wr m a b) (a + 1) bs

/-- A memory with `n` bytes from `a` at 0. -/
def Memory.clear (m : Memory) (a n : Nat) : Memory := m.filter fun c => decide (c.1 < a) || decide (a + n ≤ c.1)

/-- The little-endian number of `n` bytes at `a` (R8). -/
def Memory.num (m : Memory) (a n : Nat) : Nat := ofLe (Memory.bytes m a n)

/-- A memory with the `n` little-endian bytes of `v` written from `a` (R8). -/
def Memory.putNum (m : Memory) (a n v : Nat) : Memory := Memory.put m a (leBytes n v)

/-- The canonical form of a memory: addresses strictly rise and no byte equals what an unlisted address reads as. -/
abbrev Memory.wf (m : Memory) : Prop := Tbl.wf 0 m = true

end Sys2Proof.Machine
end

