-- ==== Sys2Proof/Machine/Crypto.lean ====
section
/-!
DEFINITION. The primitives of the standards that R2 names: SHA-2 and SHA-3 (FIPS 180-4, FIPS 202), CRC-32C, AES-256 with key wrap
(SP 800-38F), XTS (IEEE 1619) and GCM (SP 800-38D). The spec names them and gives no internals; they are written from the standards
(PRESUMED, log 6).
-/

namespace Sys2Proof.Machine

/-! ## CRC-32C -/

/-- One byte fed to the reflected CRC-32C register, without inversion (R45). -/
def crcByte (c : Word) (b : Byte) : Word :=
  (List.range 8).foldl (fun c _ => if c.getLsbD 0 then (c >>> 1) ^^^ 0x82F63B78#32 else c >>> 1) (c ^^^ b.zeroExtend 32)

/-- Bytes fed to the CRC-32C register in order (R45). -/
def crcFeed (c : Word) (bs : List Byte) : Word := bs.foldl crcByte c

/-- The CRC-32C of a byte string with the usual initial and final inversion (R2). -/
def crc32c (bs : List Byte) : Word := ~~~(crcFeed 0xFFFFFFFF#32 bs)

/-- The CRC-8 of SMBus PEC: polynomial x^8 + x^2 + x + 1. -/
def crc8 (bs : List Byte) : Byte :=
  bs.foldl (fun c b => (List.range 8).foldl (fun c _ => if c.getLsbD 7 then (c <<< 1) ^^^ 0x07#8 else c <<< 1) (c ^^^ b)) 0

/-! ## SHA-2 -/

/-- Largest r below 2^n with r^k at most x. -/
def iroot (k x : Nat) : Nat → Nat → Nat
  | 0, r => r
  | n + 1, r => iroot k x n (if (r + 2 ^ n) ^ k ≤ x then r + 2 ^ n else r)

/-- The first primes, as many as SHA-512 uses. -/
def primes80 : List Nat := (List.range 410).filter fun n => 2 ≤ n && (List.range n).all fun d => d < 2 || n % d != 0

/-- SHA-2 round constants of word width w: the first bits of the fractional parts of cube roots of primes (FIPS 180-4). -/
def shaK (w rounds : Nat) : List (BitVec w) :=
  (primes80.take rounds).map fun p => BitVec.ofNat w (iroot 3 (p * 2 ^ (3 * w)) (w + 4) 0)

/-- SHA-2 initial words from square roots of primes. -/
def shaH (w skip : Nat) : List (BitVec w) :=
  ((primes80.drop skip).take 8).map fun p => BitVec.ofNat w (iroot 2 (p * 2 ^ (2 * w)) (w + 4) 0)

/-- The rotation and shift amounts of a SHA-2 family: Sigma0, Sigma1, sigma0, sigma1. -/
structure ShaParams where
  s0 : Nat × Nat × Nat
  s1 : Nat × Nat × Nat
  r0 : Nat × Nat × Nat
  r1 : Nat × Nat × Nat

def sha256Params : ShaParams := ⟨(2, 13, 22), (6, 11, 25), (7, 18, 3), (17, 19, 10)⟩
def sha512Params : ShaParams := ⟨(28, 34, 39), (14, 18, 41), (1, 8, 7), (19, 61, 6)⟩

def rot3 {w : Nat} (a : Nat × Nat × Nat) (x : BitVec w) : BitVec w :=
  x.rotateRight a.1 ^^^ x.rotateRight a.2.1 ^^^ x.rotateRight a.2.2

def rotShift {w : Nat} (a : Nat × Nat × Nat) (x : BitVec w) : BitVec w :=
  x.rotateRight a.1 ^^^ x.rotateRight a.2.1 ^^^ (x >>> a.2.2)

/-- The message schedule, newest word first, extended by n words. -/
def shaSched {w : Nat} (p : ShaParams) : Nat → List (BitVec w) → List (BitVec w)
  | 0, ws => ws
  | n + 1, ws =>
    let g := fun i => ws.getD i 0
    shaSched p n ((rotShift p.r1 (g 1) + g 6 + rotShift p.r0 (g 14) + g 15) :: ws)

/-- One SHA-2 round on the eight working words. -/
def shaRound {w : Nat} (p : ShaParams) (v : List (BitVec w)) (kw : BitVec w × BitVec w) : List (BitVec w) :=
  match v with
  | [a, b, c, d, e, f, g, h] =>
    let t1 := h + rot3 p.s1 e + ((e &&& f) ^^^ (~~~e &&& g)) + kw.1 + kw.2
    let t2 := rot3 p.s0 a + ((a &&& b) ^^^ (a &&& c) ^^^ (b &&& c))
    [t1 + t2, a, b, c, d + t1, e, f, g]
  | v => v

/-- One SHA-2 block. -/
def shaBlock {w : Nat} (p : ShaParams) (ks : List (BitVec w)) (h : List (BitVec w)) (block : List Byte) : List (BitVec w) :=
  let m := (chunks (w / 8) 16 block).map fun c => BitVec.ofNat w (ofBe c)
  let ws := (shaSched p (ks.length - 16) m.reverse).reverse
  List.zipWith (· + ·) h ((ks.zip ws).foldl (shaRound p) h)

/-- SHA-2 over words of width w with `n` output bytes. -/
def sha2 (w rounds skip : Nat) (p : ShaParams) (n : Nat) (msg : List Byte) : List Byte :=
  let bs := w * 2
  let len := msg.length
  let zeros := (bs - (len + 1 + w / 4) % bs) % bs
  let padded := msg ++ [0x80] ++ List.replicate zeros 0 ++ beBytes (w / 4) (8 * len)
  let h := (chunks bs (padded.length / bs + 1) padded).foldl (shaBlock p (shaK w rounds)) (shaH w skip)
  (h.flatMap fun x => beBytes (w / 8) x.toNat).take n

def sha256 (m : List Byte) : List Byte := sha2 32 64 0 sha256Params 32 m
def sha384 (m : List Byte) : List Byte := sha2 64 80 8 sha512Params 48 m
def sha512 (m : List Byte) : List Byte := sha2 64 80 0 sha512Params 64 m

/-- HMAC over SHA-384 (FIPS 198-1). -/
def hmac384 (key msg : List Byte) : List Byte :=
  let k := padTo 128 (if key.length > 128 then sha384 key else key)
  sha384 (k.map (· ^^^ 0x5C) ++ sha384 (k.map (· ^^^ 0x36) ++ msg))

/-! ## SHA-3 -/

/-- One step of the LFSR of the Keccak round constants. -/
def keccakLfsr (r : Nat) : Nat := if 2 * r ≥ 256 then (2 * r) ^^^ 0x171 else 2 * r

/-- Round constant of round i (FIPS 202): bit 2^j - 1 is LFSR output 7i + j. -/
def keccakRC (i : Nat) : BitVec 64 :=
  (List.range 7).foldl (fun acc j =>
    let r := (List.range (7 * i + j)).foldl (fun r _ => keccakLfsr r) 1
    if r % 2 = 1 then acc ||| (1#64 <<< (2 ^ j - 1)) else acc) 0

/-- The rho and pi walk: positions visited with the rotation of each. -/
def keccakWalk : List (Nat × Nat × Nat) :=
  ((List.range 24).foldl (fun (acc : List (Nat × Nat × Nat) × Nat × Nat) t =>
    ((acc.2.1, acc.2.2, (t + 1) * (t + 2) / 2 % 64) :: acc.1, acc.2.2, (2 * acc.2.1 + 3 * acc.2.2) % 5)) ([], 1, 0)).1

/-- One Keccak-f[1600] round on the 25 words, word x + 5y. -/
def keccakRound (a : List (BitVec 64)) (i : Nat) : List (BitVec 64) :=
  let g := fun (l : List (BitVec 64)) x y => l.getD (x % 5 + 5 * (y % 5)) 0
  let c := (List.range 5).map fun x => g a x 0 ^^^ g a x 1 ^^^ g a x 2 ^^^ g a x 3 ^^^ g a x 4
  let d := (List.range 5).map fun x => c.getD ((x + 4) % 5) 0 ^^^ (c.getD ((x + 1) % 5) 0).rotateLeft 1
  let a1 := (List.range 25).map fun k => a.getD k 0 ^^^ d.getD (k % 5) 0
  let b := keccakWalk.foldl (fun (b : List (BitVec 64)) p =>
    b.set (p.2.1 + 5 * ((2 * p.1 + 3 * p.2.1) % 5)) ((g a1 p.1 p.2.1).rotateLeft p.2.2)) a1
  let e := (List.range 25).map fun k => b.getD k 0 ^^^ (~~~(g b (k % 5 + 1) (k / 5)) &&& g b (k % 5 + 2) (k / 5))
  e.set 0 (e.getD 0 0 ^^^ keccakRC i)

def keccakF (a : List (BitVec 64)) : List (BitVec 64) := (List.range 24).foldl keccakRound a

/-- A sponge with rate r bytes, domain suffix byte and n output bytes (n at most r) (FIPS 202). -/
def sponge (r : Nat) (suffix : Byte) (n : Nat) (msg : List Byte) : List Byte :=
  let zeros := r - 1 - msg.length % r
  let p := padTo (msg.length + 1 + zeros) (msg ++ [suffix])
  let p := p.set (p.length - 1) (p.getD (p.length - 1) 0 ^^^ 0x80)
  let st := (chunks r (p.length / r + 1) p).foldl (fun st blk =>
    keccakF (List.zipWith (· ^^^ ·) st ((chunks 8 25 (padTo 200 blk)).map fun c => BitVec.ofNat 64 (ofLe c)))) (List.replicate 25 0#64)
  (st.flatMap fun x => leBytes 8 x.toNat).take n

def sha3x256 (m : List Byte) : List Byte := sponge 136 0x06 32 m
def sha3x512 (m : List Byte) : List Byte := sponge 72 0x06 64 m
def shake256x64 (m : List Byte) : List Byte := sponge 136 0x1F 64 m

/-- The hash unit's digest by algorithm value (R66). -/
def hashDigest (alg : Nat) (m : List Byte) : List Byte :=
  if alg = 0 then sha256 m else if alg = 1 then sha384 m else if alg = 2 then sha512 m else if alg = 3 then sha3x256 m
  else if alg = 4 then sha3x512 m else shake256x64 m

/-! ## AES-256 -/

/-- Multiplication by x in GF(2^8). -/
def xtime (b : Byte) : Byte := if b.getLsbD 7 then (b <<< 1) ^^^ 0x1B#8 else b <<< 1

/-- Multiplication in GF(2^8). -/
def gmul (a b : Byte) : Byte :=
  ((List.range 8).foldl (fun (acc : Byte × Byte) i =>
    (if b.getLsbD i then acc.1 ^^^ acc.2 else acc.1, xtime acc.2)) (0, a)).1

/-- Inverse in GF(2^8), 0 of 0: the 254th power. -/
def ginv (a : Byte) : Byte := (List.range 7).foldl (fun r i => if i < 6 then gmul (gmul r r) a else gmul r r) a

/-- The AES substitution box. -/
def aesSub (a : Byte) : Byte :=
  let i := ginv a
  i ^^^ i.rotateLeft 1 ^^^ i.rotateLeft 2 ^^^ i.rotateLeft 3 ^^^ i.rotateLeft 4 ^^^ 0x63#8

/-- The AES inverse substitution box. -/
def aesInvSub (a : Byte) : Byte := ginv (a.rotateLeft 1 ^^^ a.rotateLeft 3 ^^^ a.rotateLeft 6 ^^^ 0x05#8)

/-- Key schedule words, newest first, by n further words after the eight of the key. -/
def aesExpand : Nat → Nat → List (List Byte) → List (List Byte)
  | 0, _, ws => ws
  | n + 1, i, ws =>
    let t := ws.getD 0 []
    let t := if i % 8 = 0 then xorBytes ((t.drop 1 ++ t.take 1).map aesSub) [(List.range (i / 8 - 1)).foldl (fun b _ => xtime b) 1#8, 0, 0, 0]
             else if i % 8 = 4 then t.map aesSub else t
    aesExpand n (i + 1) (xorBytes (ws.getD 7 []) t :: ws)

/-- The fifteen round keys of a 32-byte key. -/
def aesKeys (key : List Byte) : List (List Byte) :=
  chunks 16 15 ((aesExpand 52 8 (chunks 4 8 key).reverse).reverse.flatten)

def aesShift (s : List Byte) : List Byte := (List.range 16).map fun i => s.getD ((i + 4 * (i % 4)) % 16) 0
def aesInvShift (s : List Byte) : List Byte := (List.range 16).map fun i => s.getD ((i + 12 * (i % 4)) % 16) 0

/-- The column mix with coefficients of a circulant row. -/
def aesMixWith (co : List Byte) (s : List Byte) : List Byte :=
  (List.range 16).map fun i =>
    (List.range 4).foldl (fun acc j => acc ^^^ gmul (co.getD ((j + 4 - i % 4) % 4) 0) (s.getD (4 * (i / 4) + j) 0)) 0

def aesMix : List Byte → List Byte := aesMixWith [2, 3, 1, 1]
def aesInvMix : List Byte → List Byte := aesMixWith [14, 11, 13, 9]

/-- AES-256 encryption of a 16-byte block under a 32-byte key. -/
def aesEnc (key block : List Byte) : List Byte :=
  let ks := aesKeys key
  let s := (List.range 13).foldl (fun s r => xorBytes (aesMix (aesShift (s.map aesSub))) (ks.getD (r + 1) [])) (xorBytes block (ks.getD 0 []))
  xorBytes (aesShift (s.map aesSub)) (ks.getD 14 [])

/-- AES-256 decryption. -/
def aesDec (key block : List Byte) : List Byte :=
  let ks := aesKeys key
  let s := (aesInvShift (xorBytes block (ks.getD 14 []))).map aesInvSub
  let s := (List.range 13).foldl (fun s r => (aesInvShift (aesInvMix (xorBytes s (ks.getD (13 - r) [])))).map aesInvSub) s
  xorBytes s (ks.getD 0 [])

/-! ## AES key wrap (SP 800-38F KW) -/

/-- KW wrapping: 6 passes over the 8-byte semiblocks. -/
def kwWrap (key p : List Byte) : List Byte :=
  let r := chunks 8 (p.length / 8) p
  let n := r.length
  let out := (List.range (6 * n)).foldl (fun (st : List Byte × List (List Byte)) t =>
    let b := aesEnc key (st.1 ++ st.2.getD (t % n) [])
    (xorBytes (b.take 8) (beBytes 8 (t + 1)), st.2.set (t % n) (b.drop 8))) (List.replicate 8 0xA6#8, r)
  out.1 ++ out.2.flatten

/-- KW unwrapping: the plaintext, or none when the integrity value does not match. -/
def kwUnwrap (key c : List Byte) : Option (List Byte) :=
  let r := chunks 8 (c.length / 8 - 1) (c.drop 8)
  let n := r.length
  let out := (List.range (6 * n)).foldl (fun (st : List Byte × List (List Byte)) k =>
    let t := 6 * n - 1 - k
    let b := aesDec key (xorBytes st.1 (beBytes 8 (t + 1)) ++ st.2.getD (t % n) [])
    (b.take 8, st.2.set (t % n) (b.drop 8))) (c.take 8, r)
  if out.1 = List.replicate 8 0xA6#8 then some out.2.flatten else none

/-! ## XTS (IEEE 1619) -/

/-- Multiplication of an XTS tweak by alpha. -/
def xtsMul (t : BitVec 128) : BitVec 128 := if t.getLsbD 127 then (t <<< 1) ^^^ 0x87#128 else t <<< 1

/-- The tweak of 16-byte block j of a data unit: the encrypted tweak value times alpha^j. -/
def xtsTweak (key2 : List Byte) (tweak : BitVec 128) (j : Nat) : List Byte :=
  leBytes 16 ((List.range j).foldl (fun t _ => xtsMul t) (BitVec.ofNat 128 (ofLe (aesEnc key2 (leBytes 16 tweak.toNat))))).toNat

/-- XTS-AES-256 of one whole block j of a data unit; `key` is Key1 then Key2, 64 bytes. -/
def xtsBlock (enc : Bool) (key : List Byte) (tweak : BitVec 128) (j : Nat) (b : List Byte) : List Byte :=
  let t := xtsTweak (key.drop 32) tweak j
  let x := xorBytes b t
  xorBytes (if enc then aesEnc (key.take 32) x else aesDec (key.take 32) x) t

/-! ## GCM (SP 800-38D) -/

/-- Multiplication of GHASH, bit 0 of the standard being the most significant bit. -/
def ghashMul (x y : BitVec 128) : BitVec 128 :=
  ((List.range 128).foldl (fun (zv : BitVec 128 × BitVec 128) i =>
    (if x.getLsbD (127 - i) then zv.1 ^^^ zv.2 else zv.1,
     if zv.2.getLsbD 0 then (zv.2 >>> 1) ^^^ (0xE1#128 <<< 120) else zv.2 >>> 1)) (0, y)).1

/-- GHASH of zero-padded strings and the length block. -/
def ghash (h : BitVec 128) (aad c : List Byte) : BitVec 128 :=
  let blk := fun (l : List Byte) => (chunks 16 (l.length / 16 + 1) l).map (padTo 16)
  (blk aad ++ blk c ++ [beBytes 8 (8 * aad.length) ++ beBytes 8 (8 * c.length)]).foldl
    (fun y b => ghashMul (y ^^^ BitVec.ofNat 128 (ofBe b)) h) 0

/-- The key stream block for counter value ctr of a 96-bit IV. -/
def gcmStream (key iv : List Byte) (ctr : Nat) : List Byte := aesEnc key (iv ++ beBytes 4 ctr)

/-- GCM counter-mode pass of a byte string starting at 16-byte block j of the data. -/
def gcmPass (key iv : List Byte) (j : Nat) (data : List Byte) : List Byte :=
  ((chunks 16 (data.length / 16 + 1) data).zipIdx.map fun p => xorBytes p.1 (gcmStream key iv (2 + j + p.2))).flatten

/-- The 16-byte GCM tag over ciphertext and additional data. -/
def gcmTag (key iv aad c : List Byte) : List Byte :=
  let h := BitVec.ofNat 128 (ofBe (aesEnc key (List.replicate 16 0)))
  xorBytes (beBytes 16 (ghash h aad c).toNat) (gcmStream key iv 1)

/-- GCM decryption: the plaintext, or none when the tag differs. -/
def gcmOpen (key iv aad c tag : List Byte) : Option (List Byte) :=
  if gcmTag key iv aad c = tag then some (gcmPass key iv 0 c) else none

end Sys2Proof.Machine
end

