-- ==== Sys2Proof/Config.lean ====
section
/-!
DEFINITION. What the spec leaves open: free values, which nothing in the model can evaluate.
-/

namespace Sys2Proof.Config

/-- A value of `w` bits that the spec does not fix, by the number of free values taken before it (log 5): draws of the vault's random
bit generator (R365), and values the spec calls open. -/
opaque freeBits (w : Nat) : Nat → BitVec w

/-- The `n` bytes of output of a primitive of a named standard whose internals the model does not write out: ML-KEM-1024, ML-DSA-87,
ECDSA P-384 and ECDH P-384 (R2, R365), by primitive number and input bytes (log 6). -/
opaque primitive (n : Nat) (which : Nat) : List Byte → List Byte

/-- Whether a check of such a primitive (a signature or certificate verification) succeeds, by primitive number and input (log 6). -/
opaque verifies (which : Nat) : List Byte → Bool

/-- The bytes of the warden's boot ROM, whose content the spec does not give (R455, log 5). -/
opaque romByte : Nat → Byte

/-- The device key that the vault rebuilds from its PUF and fuses (R364): never the same on two parts, never known. -/
opaque deviceKey : BitVec 256

/-- Bytes 0 to 123 of the regions of the retained ledger whose layout the spec does not give, by region (0 tamper record, 1 wake and power
record, 2 custody descriptor), byte and the fields the region holds (R368, log 34). -/
opaque ledgerByte (region : Nat) (byte : Nat) : List Nat → Byte

/-- The fuse bank's device identity, bits [255:0], its PUF helper data, bits [1279:256], and its security settings, bits [1343:1280] (R367). -/
opaque fuseIdent : BitVec 256
opaque fuseHelper : BitVec 1024
opaque fuseSettings : BitVec 64

/-- The result code of a vault command where R395 lists none for the outcome (R392): by outcome. -/
opaque vaultResult : Nat → BitVec 8

/-- What a vault command takes from the 2 KiB of VLT_ARG, whose layout the spec does not give: by OPCODE and argument (R391, R392). -/
opaque vaultArg (opcode : Nat) (i : Nat) : List Byte → List Byte

/-- The SHA-384 of the factory defaults, whose byte form the spec does not give (R362, R469). -/
opaque defaultsHash : BitVec 384

end Sys2Proof.Config
end

