-- ==== Sys2Proof/Machine/State.lean ====
section
/-!
DEFINITION. The state of the part as plain data, block by block, and the state after reset.
Every field's docstring names the rule that gives it and its reset value; a value marked with a log number is the model's.
-/

namespace Sys2Proof.Machine

/-! ## Sialven processors (02, 03, 11) -/

/-- A byte location of the part: a memory or register file, the unit that owns it, and the offset in it.
Spaces: 0 engine instruction RAM, 1 engine data RAM, 2 tile scratch, 3 buffer DRAM (33-bit address), 4 warden instruction RAM, 5 warden SRAM,
6 boot ROM, 7 mailbox page, 8 drive configuration window, 9 register (warden address), 10 ENGn_ window of the engine's own lane processor,
11 an unmapped place inside a window (R10, R47, R478). -/
structure Loc where
  space : Nat
  unit : Nat
  off : Nat
  deriving DecidableEq, Repr

/-- A load or atomic whose data has not returned (R68, R81). -/
structure Load where
  /-- destination register -/
  gd : Nat
  /-- the value the granted access read -/
  value : Word
  /-- where its first part read -/
  loc : Loc
  deriving DecidableEq, Repr

/-- A store in the store buffer, not yet performed (R81). -/
structure Store where
  loc : Loc
  size : Nat
  value : Word
  deriving DecidableEq, Repr

/-- A warden access in the register access port (R328). -/
structure PortAcc where
  write : Bool
  /-- its parts, lower address first: place and size (R50) -/
  parts : List (Loc × Nat)
  addr : Word
  value : Word
  gd : Nat
  /-- sign-extend the loaded value -/
  sext : Bool
  deriving DecidableEq, Repr

/-- A branch or jump whose delay slot has not completed (R54, R82, R106). -/
structure Delay where
  /-- address of the branch -/
  branch : Word
  /-- where execution goes after the slot -/
  target : Word
  /-- whether the branch is taken -/
  taken : Bool
  /-- link register, written when the slot completes -/
  link : Option Nat
  /-- old and pending MODE when the branch was a SETMODE shadow -/
  shadowOf : Option (BitVec 2 × BitVec 2)
  deriving DecidableEq, Repr

/-- One HABS not yet complete: first location and length (R67). -/
structure Absorb where
  loc : Loc
  len : Nat
  deriving DecidableEq, Repr

/-- The hash unit beside a processor (R66, R67). -/
structure HashUnit where
  /-- algorithm value; none: no HINIT since reset; reset none -/
  alg : Option Nat
  /-- bytes absorbed so far, in order; reset empty -/
  data : List Byte
  /-- outstanding HABS, oldest first, at most 4; reset empty -/
  queue : List Absorb
  /-- digest bytes once HFIN completed; reset none -/
  digest : Option (List Byte)
  deriving DecidableEq, Repr

/-- The architectural state of one Sialven processor (R38, R72) and its scoreboard and buffers (R81, R83). -/
structure Proc where
  /-- g1 to g31 by number; g0 is never stored (R38); reset 0 -/
  regs : Tbl Word
  /-- PC (R38); reset 0, warden 0x1000_0000 (R455) -/
  pc : Word
  /-- MODE: SUP, IE (R70); reset 0b10 -/
  mode : BitVec 2
  /-- MODE that a SETMODE's shadow will put in force (R71, R104); reset none -/
  shadow : Option (BitVec 2)
  /-- branch whose delay slot is next (R54); reset none -/
  delay : Option Delay
  /-- EPC, ECAUSE, EVAL, ESCRATCH (R72); reset 0 -/
  epc : Word
  ecause : Word
  eval : Word
  escratch : Word
  /-- ESTAT (R102); reset 0x2, from R102 against the 0 of R72 (DEDUCED, log 75) -/
  estat : Word
  /-- EVEC (R72); reset 0x40 -/
  evec : Word
  /-- hardware loops (R58, R72); reset 0 -/
  lstart0 : Word
  lend0 : Word
  lcount0 : Word
  lstart1 : Word
  lend1 : Word
  lcount1 : Word
  lstat : BitVec 2
  /-- INSTRET (R73); reset 0 -/
  instret : DWord
  /-- HI halves latched by a LO read (R73); reset 0, log 10 -/
  instretHi : Option Word
  timeHi : Option Word
  /-- scoreboard bits of g1 to g31 (R83); reset 0 -/
  busy : BitVec 32
  /-- outstanding loads and atomics, at most 4, oldest first (R81); reset empty -/
  loads : List Load
  /-- store buffer, at most 8, oldest first (R81); reset empty -/
  stores : List Store
  /-- the warden's register port, at most 16, oldest first (R328); empty on a lane -/
  port : List PortAcc
  /-- suspended in EVWAIT (R98); reset false -/
  waiting : Bool
  /-- hash unit; reset as R67 -/
  hash : HashUnit
  /-- words of instruction RAM changed by a store and not yet refetched: address and old word (R57); reset empty -/
  stale : Tbl (Option Word)
  deriving DecidableEq, Repr

/-- A processor after reset (R38, R72) with the given reset PC. -/
def Proc.init (pc : Word) : Proc :=
  { regs := [], pc := pc, mode := 2#2, shadow := none, delay := none
    epc := 0, ecause := 0, eval := 0, escratch := 0, estat := 2, evec := 0x40
    lstart0 := 0, lend0 := 0, lcount0 := 0, lstart1 := 0, lend1 := 0, lcount1 := 0, lstat := 0
    instret := 0, instretHi := none, timeHi := none, busy := 0, loads := [], stores := [], port := []
    waiting := false, hash := { alg := none, data := [], queue := [], digest := none }, stale := [] }

/-! ## Keys, contexts, transfers (04, 05) -/

/-- The header tags of a keyslot that a cache entry or context carries (05, "The tile key cache"). -/
structure KeyTag where
  slot : Nat
  gen : Nat
  mode : Nat
  ctrl : Nat
  altEn : Bool
  alt : Nat
  nsx : Nat
  deriving DecidableEq, Repr

def KeyTag.none : KeyTag := { slot := 0, gen := 0, mode := 0, ctrl := 0, altEn := false, alt := 0, nsx := 0 }

/-- A key context of a cipher unit (R65, R116). -/
structure KeyCtx where
  /-- 0 EMPTY, 1 PENDING, 2 WAITING, 3 READY (R116); reset 0 -/
  st : Nat
  /-- the held key material; 0 when none -/
  key : BitVec 512
  tag : KeyTag
  /-- handle last requested (R65 HANDLE); reset 0 -/
  handle : BitVec 24
  /-- last result, R117 (STATUS); reset 0x02 EMPTY -/
  status : Nat
  /-- register that the outstanding KLOAD writes; none when written -/
  gd : Option Nat
  /-- result of the outstanding request, once it resolved -/
  result : Option Nat
  /-- a queued WAIT request reached its final result and KWAIT has not read it (R88 KEY); reset false -/
  keyEvt : Bool
  /-- withdraw on release of the last transfer: a KREL on a referenced context (R64) -/
  relPending : Bool
  /-- parameters (R65); reset 0 -/
  mode : Word
  dusize : Word
  tweak : BitVec 128
  version : Word
  /-- block slots waiting in the report register, with the key's tags (R162) -/
  heldUse : Option (KeyTag × Nat)
  deriving DecidableEq, Repr

def KeyCtx.init : KeyCtx :=
  { st := 0, key := 0, tag := KeyTag.none, handle := 0, status := 2, gd := none, result := none, keyEvt := false
    relPending := false, mode := 0, dusize := 0, tweak := 0, version := 0, heldUse := none }

/-- The parameters and key a transfer latched from one context at GO (R65, R133). -/
structure Latched where
  ctx : Nat
  key : BitVec 512
  handle : BitVec 24
  mode : Nat
  du : Nat
  tweak : BitVec 128
  version : Word
  tag : KeyTag
  deriving DecidableEq, Repr

/-- One LBA accumulator (R127, R128). -/
structure LbaAcc where
  /-- metadata record of the LBA, once it arrived or was written -/
  record : Option (List Byte)
  /-- 16-byte blocks of the LBA already taken -/
  blocks : List Nat
  /-- 0 open, 1 verified, else the failing outcome of R137 -/
  verdict : Nat
  deriving DecidableEq, Repr

def LbaAcc.init : LbaAcc := { record := none, blocks := [], verdict := 0 }

/-- A drive read held for host data, or for a metadata record (R122, R126). -/
structure HeldRead where
  drive : Nat
  offset : Nat
  len : Nat
  isMeta : Bool
  deriving DecidableEq, Repr

/-- A data-mover transfer bound to a slot (R129 to R137). -/
structure Xfer where
  /-- 0 ACTIVE, 1 MOVED, 2 ended early (R136, R137) -/
  phase : Nat
  dir : Nat
  func : Nat
  dport : Nat
  len : Nat
  prp1 : DWord
  prp2 : DWord
  /-- bytes of the host buffer that PRP1 and PRP2 describe (R137) -/
  plen : Nat
  src : Nat
  dst : Nat
  mofs : Nat
  msize : Nat
  /-- contexts latched at GO: data (or decrypt) context, and the encrypt context of a REKEY -/
  c1 : Option Latched
  c2 : Option Latched
  /-- byte ranges [lo, hi) of the data already supplied, ascending and disjoint -/
  done : List (Nat × Nat)
  /-- bytes of partly received 16-byte blocks, by transfer offset: the assembly buffer (R122); reset none -/
  asm : Tbl (Option Byte)
  /-- ciphertext that the LBA accumulators have taken, by transfer offset, second side of a transfer nowhere (R125 to R127); reset 0 -/
  ct : Memory
  /-- LBA accumulators by LBA index of the transfer; second side of a REKEY from 1024 up -/
  lbas : Tbl LbaAcc
  /-- ranges [lo, hi) of the metadata range that the drive has written (R127) -/
  mdone : List (Nat × Nat)
  /-- a data pass found a tag mismatch (R126) -/
  changed : Bool
  held : List HeldRead
  /-- accumulators reserved -/
  accs : Nat
  /-- started during a power-on self-test: moves nothing until it ends (R139) -/
  parked : Bool
  outcome : Nat
  lbaIdx : Nat
  /-- block slots used under c1 and c2, to be reported (R162) -/
  used : Nat
  used2 : Nat
  deriving DecidableEq, Repr

/-- A drive command outstanding for a slot (R29, R136). -/
structure DrvCmd where
  drive : Nat
  cid : BitVec 16
  opc : Nat
  dnsid : Word
  dlba : Nat
  nlb : Nat
  /-- answered by a completion, reset or quarantine -/
  answered : Bool
  /-- lane firmware knows of the answer: its inbox item has been popped, or the answer is a reset, a quarantine or a timeout (R249) -/
  seen : Bool
  /-- SCT, SC, DNR that its answer, or what ended it, gives the tenant (R313) -/
  status : Nat × Nat × Bool
  /-- timed out (R310) -/
  timedOut : Bool
  /-- lane firmware has given the tenant its status while the drive still owes an answer (R310, R312) -/
  dead : Bool
  /-- dword 3 of the drive's completion entry (R311) -/
  dw3 : Word
  /-- Abort issued and its 1 s pending -/
  aborting : Bool
  deriving DecidableEq, Repr

/-- An engine's command slot (R223 to R229). -/
structure Slot where
  /-- occupied (R223); reset free -/
  busy : Bool
  /-- holds a command the dispatcher delivered (R228) -/
  delivered : Bool
  /-- class per R227: 0 COMMITTED 1 ELASTIC 2 REFUSED_QUOTA 3 REFUSED_TAILDROP 4 INVALID_NS 5 MOLT -/
  cls : Nat
  /-- generation modulo 16 (R29); reset 0 -/
  gen : Nat
  func : Nat
  sqid : Nat
  cid : Nat
  sqe : List Word
  nsx : Nat
  cost : Nat
  fetched : Nat
  /-- gates and phases that count the command (R194) -/
  gates : List (Nat × Bool)
  /-- molt whose gate held the command (R204) -/
  heldBy : Option Nat
  /-- its CID was outstanding on its queue when it was fetched (R242, R510) -/
  conflict : Bool
  /-- tenant completion posted -/
  posted : Bool
  /-- the command ends without a completion entry (R241) -/
  mute : Bool
  /-- released while its completion still waits in the port engine (R225) -/
  relWait : Bool
  /-- delivered slot that a claimed slot works for -/
  parent : Option Nat
  /-- lane firmware has taken the command up and checked it (R510) -/
  started : Bool
  /-- a drive command has been issued in this slot, or for its command, since it was taken (R29, R241) -/
  rung : Bool
  /-- LBA ranges (first, count) not yet issued to a drive (R219) -/
  pieces : List (Nat × Nat)
  /-- the range that the slot's own drive command serves -/
  piece : Option (Nat × Nat)
  /-- first spill block and length of the run that the piece uses (R161) -/
  blk : Option (Nat × Nat)
  /-- worst status of the parts answered so far (R313): SCT, SC, DNR -/
  worst : Option (Nat × Nat × Bool)
  drv : Option DrvCmd
  xfer : Option Xfer
  deriving DecidableEq, Repr

def Slot.init : Slot :=
  { busy := false, delivered := false, cls := 0, gen := 0, func := 0, sqid := 0, cid := 0, sqe := [], nsx := 0, cost := 0
    fetched := 0, gates := [], heldBy := none, conflict := false, posted := false, mute := false, relWait := false, parent := none, started := false, rung := false, pieces := [], piece := none, blk := none, worst := none, drv := none, xfer := none }

/-- An entry of the drive completion inbox (R226, R227). -/
structure DcqEntry where
  dport : Nat
  slot : Nat
  words : List Word
  deriving DecidableEq, Repr

/-- A molt post of an engine (R227). -/
structure MoltPost where
  kind : Nat
  molt : Nat
  fp : DWord
  deriving DecidableEq, Repr

/-- A granted spill block or run (R161, R227). -/
structure SpGrant where
  block : Nat
  run : Nat
  /-- its request had waited in the queue (R88) -/
  queued : Bool
  deriving DecidableEq, Repr

/-- A drive-error record (R311). -/
structure DeRecord where
  kind : Nat
  drive : Nat
  slot : Nat
  cid : Nat
  detail : Word
  time : Word
  deriving DecidableEq, Repr

/-- A lane engine: its processor, RAMs, registers, cipher unit, data mover and slots (02, 03, 04, 07). -/
structure Engine where
  proc : Proc
  /-- instruction RAM, 32 KiB (R15); unwritten bytes 0, log 9 -/
  iram : Memory
  /-- data RAM, 128 KiB (R15); unwritten bytes 0, log 9 -/
  dram : Memory
  /-- ENGn_STATUS.STATE (R93); reset 2 HALTED -/
  run : Nat
  /-- ENGn_STATUS.HCAUSE (R93); reset 1 -/
  hcause : Nat
  /-- ENGn_CTRL.HALT (R92); reset 1 -/
  halt : Bool
  /-- ENGn_HALTPC (R87); reset 0, log 10 -/
  haltpc : Word
  /-- latched event bits RATE and PURGE (R88); reset 0 -/
  evRate : Bool
  evPurge : Bool
  /-- ENGn_EVEN (R89); reset 0 -/
  even : BitVec 12
  /-- ENGn_XFERCNT, XFERACK, WDBCNT, WDBACK (R90); reset 0 -/
  xferCnt : BitVec 16
  xferAck : BitVec 16
  wdbCnt : BitVec 16
  wdbAck : BitVec 16
  /-- DEADLINE_LO last written, and the applied 64-bit deadline and ARM (R91); reset 0 -/
  dlLo : Word
  deadline : DWord
  dlArm : Bool
  /-- DEADLINE event level (R88, R91); reset 0 -/
  dlHit : Bool
  /-- ENGn_ECCCNT (R110); reset 0 -/
  ipar : BitVec 16
  dsbe : BitVec 16
  /-- ENGn_DWIN0 to 3 (R48); reset 0 -/
  dwin : Tbl Word
  /-- HI halves latched by LO reads, by the HI register's offset (R9); reset none -/
  latch : Tbl (Option Word)
  /-- key contexts 0 to 3 (R116) -/
  ctxs : Tbl KeyCtx
  /-- staging registers ENGn_DMCMD to DMMETA by offset (R130 to R132); reset 0 -/
  stage : Tbl Word
  /-- ENGn_DMSTAT SLOT and RESULT (R133); reset 0 -/
  dmSlot : Nat
  dmResult : Nat
  /-- ENGn_DMREL.SLOT as last written (R133); reset 0 -/
  relSlot : Nat
  /-- completion entries of ENGn_DMDONE, oldest first (R135); reset empty -/
  dmDone : List Word
  /-- ENGn_CUSTAT FAULT, TESTING, LASTTEST (R138); reset 0, 1, 0xFF -/
  cuFault : Bool
  cuTesting : Bool
  cuLast : Nat
  /-- a periodic test runs (R140); reset 0 -/
  cuPeriodic : Bool
  /-- R114 was raised during the test that runs (R138); reset 0 -/
  cuRail : Bool
  /-- the test that runs is the power-on test of an engine reset (R139, R141); reset 0 -/
  cuReset : Bool
  /-- command slots 0 to 511 (R15) -/
  slots : Tbl Slot
  /-- command queue: delivered slots, oldest first (R226); reset empty -/
  cmdq : List Nat
  /-- drive completion inbox (R226); reset empty -/
  dcq : List DcqEntry
  /-- molt work queue: KIND and MOLT (R227); reset empty -/
  moltq : List (Nat × Nat)
  /-- molt post queue (R257); reset empty -/
  moltPost : List MoltPost
  /-- ENGn_CPLDW0, CPLPOST, MOLTFP_LO/HI, MOLTPOST, SPREQ, SPRET, SLOTCLS, CMDDEFER RW fields (R227); reset 0 -/
  cplDw0 : Word
  cplPost : Word
  moltFpLo : Word
  moltFpHi : Word
  moltPostR : Word
  spReq : Word
  spRet : Word
  slotCls : Word
  cmdDefer : Word
  /-- ENGn_CMDERR (R228); reset 0 -/
  errSlot : Nat
  errCls : Bool
  errDef : Bool
  /-- spill grants not yet collected, oldest first (R161); reset empty -/
  grants : List SpGrant
  /-- block requests outstanding, at most 4 (R161); reset 0 -/
  spOut : Nat
  /-- drive-error ring position and held records (R311); reset 0, empty -/
  dePos : Nat
  deHeld : List DeRecord
  /-- completions that the tile holds for want of a credit of the inbox (R250, R257); reset empty -/
  dcqHold : List DcqEntry
  deriving DecidableEq, Repr

/-- A lane engine after reset (R38, R88 to R93, R130 to R138, R227): halted, unit under test. -/
def Engine.init : Engine :=
  { proc := Proc.init 0, iram := [], dram := [], run := 2, hcause := 1, halt := true, haltpc := 0, evRate := false, evPurge := false
    even := 0, xferCnt := 0, xferAck := 0, wdbCnt := 0, wdbAck := 0, dlLo := 0, deadline := 0, dlArm := false, dlHit := false
    ipar := 0, dsbe := 0, dwin := [], latch := [], ctxs := [], stage := [], dmSlot := 0, dmResult := 0, relSlot := 0, dmDone := []
    cuFault := false, cuTesting := true, cuLast := 0xFF, cuPeriodic := false, cuRail := false, cuReset := false, slots := [], cmdq := [], dcq := [], moltq := []
    moltPost := [], cplDw0 := 0, cplPost := 0, moltFpLo := 0, moltFpHi := 0, moltPostR := 0, spReq := 0, spRet := 0, slotCls := 0
    cmdDefer := 0, errSlot := 0, errCls := false, errDef := false, grants := [], spOut := 0, dePos := 0, deHeld := [], dcqHold := [] }

/-! ## Tiles (05, 10) -/

/-- A KLOAD that joined a fill: engine, context and the handle's generation (R154). -/
structure FillReq where
  eng : Nat
  ctx : Nat
  gen : Nat
  deriving DecidableEq, Repr

/-- A tile key-cache entry (05, "The tile key cache"). -/
structure CacheEntry where
  /-- 0 FREE, 1 FILLING, 2 VALID; reset FREE -/
  st : Nat
  tag : KeyTag
  key : BitVec 512
  refd : Bool
  pin : Bool
  /-- block slots not yet written back, 32 bits -/
  delta : Nat
  reqs : List FillReq
  /-- generation of a pin that started or joined the fill -/
  pinReq : Option Nat
  /-- TILEn_KSBASE as it stood when the fill started (R167) -/
  base : Word
  /-- the record that the fill read (R155) -/
  record : List Byte
  /-- the record access has returned (R155, R170) -/
  hdr : Bool
  /-- generations of the requests that had joined when the header was read (R155 row 7) -/
  gens : List Nat
  deriving DecidableEq, Repr

def CacheEntry.init : CacheEntry :=
  { st := 0, tag := KeyTag.none, key := 0, refd := false, pin := false, delta := 0, reqs := [], pinReq := none, base := 0, record := []
    hdr := false, gens := [] }

/-- A KLOAD queued with WAIT (R158, R159). -/
structure WaitReq where
  eng : Nat
  ctx : Nat
  slot : Nat
  gen : Nat
  deriving DecidableEq, Repr

/-- A write-back buffer item (R162). -/
structure WbItem where
  tag : KeyTag
  count : Nat
  /-- it was present when the running WBFLUSH was written (R167) -/
  flush : Bool
  deriving DecidableEq, Repr

/-- A queued spill request: engine, and run length (0: one single block) (R161). -/
structure SpWait where
  eng : Nat
  run : Nat
  deriving DecidableEq, Repr

/-- A tile's queue memory for one drive: the submission ring, the completion ring where the tile is the lowest of its completion queue, the 64-byte
header with tail and head, and the interrupt landing area, one after the other in a run of spill blocks (R17, R27, R308, R309; the layout is log 91).
The rings' entries, the tail and the head stand in scratch. -/
structure DrvSq where
  /-- submission entries; 0: the tile has no queue on the drive -/
  depth : Nat
  /-- scratch offset of the run -/
  base : Nat
  /-- entries of the completion queue that lives here; 0 none -/
  cqDepth : Nat
  /-- completion entries taken, modulo twice the ring, so that it gives place and Phase Tag -/
  cqHead : Nat
  deriving DecidableEq, Repr

def DrvSq.init : DrvSq := { depth := 0, base := 0, cqDepth := 0, cqHead := 0 }

/-- A tile: key cache, spill blocks, write-back, scratch and drive queues (R15, R154 to R172, R308 to R311). -/
structure Tile where
  /-- scratch, 2 MiB (R17); unwritten bytes 0, log 9 -/
  scratch : Memory
  /-- WK and epoch number delivered by the vault (R147); reset none -/
  wk : Option (BitVec 256 × Nat)
  /-- key cache entries 0 to 511 -/
  cache : Tbl CacheEntry
  /-- clock hand of the evictor (R157); reset 0, log 10 -/
  hand : Nat
  /-- queued WAIT requests (R159); reset empty -/
  waitq : List WaitReq
  /-- holders of the key-entry and spill-block tokens (R19, R158); reset none -/
  keyToken : Option Nat
  spToken : Option Nat
  /-- spill blocks in use, by index (R161); reset none -/
  spUsed : List Nat
  /-- queued spill requests (R161); reset empty -/
  spq : List SpWait
  /-- write-back buffer, at most 32 items (R162); reset empty -/
  wb : List WbItem
  /-- keyslots whose DELTA is due to move and finds neither room nor a report register, with the mark of a WBFLUSH (R162, log 96); reset none -/
  due : List (Nat × Bool)
  /-- contexts, by engine and number, whose waiting count was present when the running WBFLUSH was written (R167); reset none -/
  flushCtx : List (Nat × Nat)
  /-- arbitrations lost by the write-back (R163); reset 0 -/
  wbLost : Nat
  wbPromoted : Bool
  /-- TILEn_KSBASE (R167); reset 0 -/
  ksbase : Word
  /-- TILEn_KCCTRL.LOWWATER (R167); reset 8 -/
  lowwater : Nat
  /-- WBFLUSH operation running (R167); reset false -/
  wbFlush : Bool
  /-- TILEn_KCPURGE SCOPE, KEY as written, GO running, OVF (R169); reset 0 -/
  purgeScope : Nat
  purgeKey : Nat
  purgeGo : Bool
  purgeOvf : Bool
  /-- TILEn_KCPIN OP, RESULT, GEN, SLOT, GO running (R171); reset 0 -/
  pinOp : Bool
  pinResult : Nat
  pinGen : Nat
  pinSlot : Nat
  pinGo : Bool
  /-- TILEn_KCERR (R172); reset 0 -/
  errSlot : Nat
  errUlimit : Bool
  errDram : Bool
  errUnwrap : Bool
  /-- TILEn_KCHIT, KCMISS, KCWAIT, WBAGED (R172); reset 0 -/
  kcHit : Word
  kcMiss : Word
  kcWait : Word
  wbAged : Word
  /-- TILEn_DERING (R311); reset 0 -/
  dering : Word
  /-- submission queues by drive index (R308); reset none -/
  drvSqs : Tbl DrvSq
  /-- interrupt landings by drive index, arrived and consumed (R263); reset 0 -/
  landings : Tbl Nat
  landed : Tbl Nat
  deriving DecidableEq, Repr

def Tile.init : Tile :=
  { scratch := [], wk := none, cache := [], hand := 0, waitq := [], keyToken := none, spToken := none, spUsed := [], spq := []
    wb := [], due := [], flushCtx := [], wbLost := 0, wbPromoted := false, ksbase := 0, lowwater := 8, wbFlush := false, purgeScope := 0, purgeKey := 0
    purgeGo := false, purgeOvf := false, pinOp := false, pinResult := 0, pinGen := 0, pinSlot := 0, pinGo := false, errSlot := 0
    errUlimit := false, errDram := false, errUnwrap := false, kcHit := 0, kcMiss := 0, kcWait := 0, wbAged := 0, dering := 0
    drvSqs := [], landings := [], landed := [] }

/-! ## Dispatchers and controllers (06, 07, 09) -/

/-- A submission entry between fetch and delivery (R220, R221). -/
structure Entry where
  func : Nat
  sqid : Nat
  sqe : List Word
  nsx : Nat
  cost : Nat
  fetched : Nat
  /-- molt whose gate held the entry last (R204) -/
  heldBy : Option Nat
  /-- its CID was outstanding on its queue when it was fetched (R242, R510) -/
  conflict : Bool
  deriving DecidableEq, Repr

/-- An entry that waits in a spill queue or behind a gate, and the TIME it came there (R195, R235, R246). -/
structure Spilled where
  entry : Entry
  since : Nat
  deriving DecidableEq, Repr

/-- A molt gate of one quadrant (R193 to R197, R231). -/
structure Gate where
  /-- QDn_GNSX EN and NSX; reset 0 -/
  en : Bool
  nsx : Nat
  /-- QDn_GLO, GHI as written; reset 0 -/
  loR : DWord
  hiR : DWord
  /-- the range latched at CLOSE -/
  lo : Nat
  hi : Nat
  phase : Bool
  closed : Bool
  err : Bool
  /-- in-flight counters of phase 0 and 1; reset 0 -/
  cnt0 : Nat
  cnt1 : Nat
  /-- held entries, oldest first; reset empty -/
  held : List Spilled
  /-- DRAINED has been signalled for this close (R196) -/
  drainedEvt : Bool
  deriving DecidableEq, Repr

def Gate.init : Gate :=
  { en := false, nsx := 0, loR := 0, hiR := 0, lo := 0, hi := 0, phase := false, closed := false, err := false, cnt0 := 0
    cnt1 := 0, held := [], drainedEvt := false }

/-- A quadrant dispatcher (R220 to R235). -/
structure Quad where
  /-- QDn_CTRL EN, ELIMIT (R231); reset 0, 3072 -/
  en : Bool
  elimit : Nat
  /-- QDn_SCALE and its shadow, one byte per tile (R231, R490); reset 0xFFFF_FFFF -/
  scale : Word
  scaleReq : Word
  /-- the admission table: ADMW0 and ADMW1 by controller (R231); reset 0 -/
  adm : Tbl (Word × Word)
  /-- QDn_ADMIDX.FUNC, ADMW0, ADMW1, ADMSPILL (R231); reset 0 -/
  admFunc : Nat
  admw0 : Word
  admw1 : Word
  admSpill : Nat
  /-- gates by molt number (R193) -/
  gates : Tbl Gate
  /-- HI halves latched by LO reads (R9) -/
  latch : Tbl (Option Word)
  /-- rings A and B: controller and queue in service, and the entries taken from it in this turn (R220); reset 0 -/
  curA : Nat × Nat
  turnA : Nat
  curB : Nat × Nat
  turnB : Nat
  /-- controller whose spill queue was served last (R235); reset 0 -/
  spillCur : Nat
  /-- rotating start of the engine choice (R223); reset 0 -/
  engStart : Nat
  /-- admin forward queue: controller and entry (R216); reset empty -/
  admin : List (Nat × List Word)
  deriving DecidableEq, Repr

def Quad.init : Quad :=
  { en := false, elimit := 3072, scale := 0xFFFFFFFF, scaleReq := 0xFFFFFFFF, adm := [], admFunc := 0, admw0 := 0, admw1 := 0, admSpill := 0
    gates := [], latch := [], curA := (0, 0), turnA := 0, curB := (0, 0), turnB := 0, spillCur := 0, engStart := 0, admin := [] }

/-- A host submission queue (R209, R216). -/
structure Sq where
  live : Bool
  size : Nat
  /-- head of the next fetch and tail last rung -/
  head : Nat
  tail : Nat
  cq : Nat
  base : DWord
  /-- CIDs outstanding (R242) -/
  cids : List Nat
  /-- CID of the Delete I/O Submission Queue command that is ending the queue's commands (R241) -/
  deleting : Option Nat
  deriving DecidableEq, Repr

def Sq.init : Sq := { live := false, size := 0, head := 0, tail := 0, cq := 0, base := 0, cids := [], deleting := none }

/-- A host completion queue (R209, R216). -/
structure Cq where
  live : Bool
  size : Nat
  head : Nat
  tail : Nat
  phase : Bool
  vector : Nat
  irq : Bool
  base : DWord
  deriving DecidableEq, Repr

def Cq.init : Cq :=
  { live := false, size := 0, head := 0, tail := 0, phase := true, vector := 0, irq := false, base := 0 }

/-- A completion entry waiting in the port engine (R225, R288). -/
structure Cpl where
  sqid : Nat
  cid : Nat
  dw0 : Word
  sct : Nat
  sc : Nat
  dnr : Bool
  crd : Nat
  /-- engine and slot whose command it completes, for a command of an engine -/
  src : Option (Nat × Nat)
  deriving DecidableEq, Repr

/-- An MSI-X vector of a function (R286). -/
structure Vec where
  masked : Bool
  pending : Bool
  held : Nat
  /-- TIME at which the aggregation timer started -/
  timer : Option Nat
  coalesceOff : Bool
  addr : DWord
  data : Word
  /-- completions on the vector whose message D3hot holds (R290) -/
  owed : Bool
  deriving DecidableEq, Repr

def Vec.init : Vec :=
  { masked := true, pending := false, held := 0, timer := none, coalesceOff := false, addr := 0, data := 0, owed := false }

/-- One event of a tenant ledger (R246). -/
structure LedEvt where
  time : DWord
  cause : Nat
  broken : Nat
  by_ : Nat
  detail : Word
  deriving DecidableEq, Repr

def LedEvt.init : LedEvt := { time := 0, cause := 0, broken := 0, by_ := 0, detail := 0 }

/-- A tenant ledger record (R246). -/
structure Ledger where
  admCommitted : Nat
  admElastic : Nat
  delayed : Nat
  delayTotal : Nat
  delayMax : Nat
  spillDepth : Nat
  refQuota : Nat
  refTail : Nat
  refOther : Nat
  heldMolt : Nat
  holdTotal : Nat
  latMiss : Nat
  bytesRead : Nat
  bytesWritten : Nat
  violations : Nat
  evHead : Nat
  evLost : Nat
  events : Tbl LedEvt
  /-- events posted since the last ledger read, to know which are overwritten unread -/
  evNew : Nat
  deriving DecidableEq, Repr

def Ledger.init : Ledger :=
  { admCommitted := 0, admElastic := 0, delayed := 0, delayTotal := 0, delayMax := 0, spillDepth := 0, refQuota := 0, refTail := 0
    refOther := 0, heldMolt := 0, holdTotal := 0, latMiss := 0, bytesRead := 0, bytesWritten := 0, violations := 0, evHead := 0
    evLost := 0, events := [], evNew := 0 }

/-- A write to host memory: bytes of a transfer at its offset, with the Relaxed Ordering attribute, or the data that an admin command returns and
where its entry points (R277, R283). -/
inductive HostWr where
  | data (e slot offset : Nat) (bytes : List Byte) (ro : Bool)
  | admin (cid : Nat) (prp1 prp2 : DWord) (bytes : List Byte)
  deriving DecidableEq, Repr

/-- A virtual controller (R208 to R218, R231 to R242, R286 to R290). -/
structure Ctl where
  /-- tenant record exists (R210); reset false -/
  tenant : Bool
  /-- function enabled in the port (VF Enable for virtual functions); reset false -/
  funcOn : Bool
  /-- CC.EN, CC.SHN, CSTS.RDY, CSTS.CFS, CSTS.SHST (R241, R242, R456); reset 0 -/
  ccEn : Bool
  shn : Nat
  rdy : Bool
  cfs : Bool
  shst : Nat
  /-- a reset or deletion is ending commands -/
  ending : Bool
  /-- PowerState D3hot (R288), PME_En, PME_Status, PME sent this D3hot (R289); reset 0 -/
  d3 : Bool
  pmeEn : Bool
  pmeStatus : Bool
  pmeSent : Bool
  /-- a PM_PME that waits for the link to reach L0 (R289); reset 0 -/
  pmeOwed : Bool
  /-- Device Control of the function: Relaxed Ordering and error reporting enables, MPS, MRRS (R277, R295); reset 0x2810, log 85 -/
  devctl : BitVec 16
  /-- CC but EN and SHN, AQA, ASQ and ACQ as the host last wrote them (R279); reset 0, log 86 -/
  cc : Word
  aqa : Word
  asq : DWord
  acq : DWord
  /-- writes to host memory that wait in the port engine, oldest first (R270, R283, R285); reset empty -/
  hostq : List HostWr
  /-- attach table NSID -> NSX + 1, and role ALT (R212); reset empty -/
  attach : Tbl Nat
  attachAlt : Tbl Bool
  /-- admission contract in force: ADMW0 and ADMW1 of the controller's entry in the quadrant that serves its port (R231, R232); reset 0 -/
  admw0 : Word
  admw1 : Word
  /-- committed and elastic buckets in bytes and the TIME they were last filled (R233); reset 0 -/
  bktC : Nat
  bktE : Nat
  bktT : Nat
  /-- spill queue (R235); reset empty -/
  spill : List Spilled
  /-- admin queue and I/O queues by identifier (0 admin) (R209, R216) -/
  sqs : Tbl Sq
  cqs : Tbl Cq
  /-- features by identifier (R216); Host Behavior Support ACRE separately (R236); reset 0 -/
  feats : Tbl Word
  acre : Bool
  /-- outstanding Asynchronous Event Requests: CIDs (R209); reset empty -/
  aers : List Nat
  /-- asynchronous events waiting for a request -/
  aens : List Word
  /-- Changed Namespace List and error log count (R216) -/
  changed : List Nat
  errors : List Cpl
  /-- completions with an error since the controller was enabled (R216); reset 0 -/
  errTotal : Nat
  /-- sanitize log: 0 never, 1 succeeded, 2 in progress, 3 failed (R216, R218); reset 0 -/
  sanitize : Nat
  /-- MSI-X vectors (R286) -/
  vecs : Tbl Vec
  /-- completions held in the port engine, oldest first: full queue or D3hot (R225, R288); reset empty -/
  waitCpl : List Cpl
  /-- ledger record kept by the dispatcher, and its copy in DRAM (R246, R247); reset 0 -/
  ledger : Ledger
  ledgerCopy : Ledger
  /-- IDE stream the controller requires (R283); reset none -/
  ideReq : Option Nat
  /-- mailbox rates and bursts, buckets in millionths of a token, TIME of the last fill (R353) -/
  rateG : Nat
  rateV : Nat
  burstG : Nat
  burstV : Nat
  tokG : Nat
  tokV : Nat
  tokT : Nat
  /-- a command was refused under the tail-drop stage 3 in force (R509) -/
  tdRefused : Bool
  /-- smart log counters (R216) -/
  smartReads : Nat
  smartWrites : Nat
  deriving DecidableEq, Repr

def Ctl.init : Ctl :=
  { tenant := false, funcOn := false, ccEn := false, shn := 0, rdy := false, cfs := false, shst := 0, ending := false, d3 := false
    pmeEn := false, pmeStatus := false, pmeSent := false, pmeOwed := false, devctl := 0x2810, cc := 0, aqa := 0, asq := 0, acq := 0, hostq := []
    attach := [], attachAlt := [], admw0 := 0, admw1 := 0, bktC := 0
    bktE := 0, bktT := 0, spill := [], sqs := [], cqs := [], feats := [], acre := false, aers := [], aens := [], changed := []
    errors := [], errTotal := 0, sanitize := 0, vecs := [], waitCpl := [], ledger := Ledger.init, ledgerCopy := Ledger.init, ideReq := none
    rateG := 200, rateV := 20, burstG := 32, burstV := 4, tokG := 32000000, tokV := 4000000, tokT := 0, tdRefused := false, smartReads := 0
    smartWrites := 0 }

/-- An extent record (R214). -/
structure Extent where
  nstart : Nat
  len : Nat
  dport : Nat
  dnsid : Word
  dstart : Nat
  deriving DecidableEq, Repr

/-- A band table entry (R151). HANDLE and NEXT hold VALID in bit 31. -/
structure Band where
  start : Nat
  handle : Word
  next : Word
  deriving DecidableEq, Repr

def Band.init : Band := { start := 0, handle := 0, next := 0 }

/-- A namespace: descriptor, extents, staged extents, bands (R213 to R215, R151). -/
structure Ns where
  valid : Bool
  nsze : Nat
  lbads : Nat
  nbands : Nat
  wp : Bool
  /-- 0 none, 1 format, 2 sanitize in progress (R213 BUSY, R218) -/
  busy : Nat
  extents : List Extent
  staged : Tbl (Option Extent)
  bands : Tbl Band
  deriving DecidableEq, Repr

def Ns.init : Ns :=
  { valid := false, nsze := 0, lbads := 0, nbands := 0, wp := false, busy := 0, extents := [], staged := [], bands := [] }

/-- A molt record and the phase of its window exchange (R188, R199). -/
structure Molt where
  /-- 0 FREE 1 ARMED 2 RUNNING 3 PAUSED 4 RECOVERING 5 SWITCHING (R191) -/
  st : Nat
  band : Nat
  nsx : Nat
  old : BitVec 24
  new : BitVec 24
  wseq : Word
  wmark : Nat
  bend : Nat
  wend : Nat
  cause : Nat
  /-- cause in force, or asked for while a window is past step 5, that only molt-resume clears: 1, 5, 6 or 0 (R192, R200 PCAUSE) -/
  pcause : Nat
  engine : Nat
  wlimit : Nat
  moved : Nat
  /-- 0 no window, 1 gates draining, 2 RUN posted, 3 GO posted (past step 5), 4 resolution posted, 5 hand-over draining, 6 a pending window
  held behind its gates until it can be resolved -/
  win : Nat
  /-- consecutive abandoned drains, failed attempts (R196, R199) -/
  drains : Nat
  fails : Nat
  /-- waiting for MOLT_RETRY_TIMER (R199) -/
  retry : Bool
  /-- its claim, or its window's work, has been promoted (R203) -/
  promoted : Bool
  /-- arbitrations that its ready claim has lost, and the time since which its work waits (R203) -/
  lost : Nat
  since : Nat
  deriving DecidableEq, Repr

def Molt.init : Molt :=
  { st := 0, band := 0, nsx := 0, old := 0, new := 0, wseq := 0, wmark := 0, bend := 0, wend := 0, cause := 0, pcause := 0
    engine := 0, wlimit := 0, moved := 0, win := 0, drains := 0, fails := 0, retry := false, promoted := false, lost := 0, since := 0 }

/-- A molt journal entry of the retained ledger (R200). -/
structure Journal where
  used : Bool
  nsx : Nat
  band : Nat
  pend : Bool
  pcause : Nat
  old : BitVec 24
  new : BitVec 24
  wmark : Nat
  wlen : Nat
  fp : DWord
  deriving DecidableEq, Repr

def Journal.init : Journal :=
  { used := false, nsx := 0, band := 0, pend := false, pcause := 0, old := 0, new := 0, wmark := 0, wlen := 0, fp := 0 }

/-! ## Drives and port groups (09, 10) -/

/-- The recorded identity of a drive index (R306). -/
structure DrvRecord where
  serial : Nat
  model : Nat
  /-- per drive namespace with an extent: NSID, NGUID, NSZE, LBADS -/
  nss : List (Nat × Nat × Nat × Nat)
  deriving DecidableEq, Repr

/-- A drive index (R302 to R318). -/
structure Drive where
  /-- DRVn_STAT STATE, REASON (R303, R305); reset 0 -/
  st : Nat
  reason : Nat
  /-- DRVn_STAT_REQ and whether software wrote it during the override (R490) -/
  stReq : Nat
  parked : Bool
  /-- link in L0 -/
  link : Bool
  /-- bring-up step of R304: 0 none, 3 waiting for CSTS.RDY, 8 done; in reset: 20 waiting for RDY = 0 (R312) -/
  step : Nat
  ident : DrvId
  record : Option DrvRecord
  /-- DRVn_CTO, QCFG DEPTH and NCQ, VCNT, RESETS (R318); reset 5000, 128, 0, 0, 0 -/
  cto : Word
  depth : Nat
  ncq : Nat
  vcnt : Word
  resets : Word
  /-- DRVn_VLAST AEN and CODE (R318); reset 0 -/
  aen : Bool
  code : Nat
  /-- TIME of the recent counted violations and resets, newest first (R312, R315) -/
  vtimes : List Nat
  rtimes : List Nat
  /-- relay window open (R315), memory and bus-master enable, drive marked unfit for GCM writes (R281) -/
  window : Bool
  busMaster : Bool
  unsafeGcm : Bool
  /-- scratch offset, in T0 or T8, of the block with the admin submission ring, completion ring and landing area; entries submitted, modulo the ring;
  Asynchronous Event Requests posted (R304; log 91); reset none, 0, 0 -/
  admAt : Option Nat
  admTail : Nat
  aers : Nat
  /-- what the warden wrote to the drive in bring-up: BAR0, CC, the Completion Timeout ranges that the drive offers and the value programmed (R281,
  R304); reset 0 -/
  bar0 : DWord
  cc : Word
  ctoRanges : Nat
  ctoVal : Nat
  deriving DecidableEq, Repr

def Drive.init : Drive :=
  { st := 0, reason := 0, stReq := 0, parked := false, link := false, step := 0, ident := DrvId.init, record := none, cto := 5000
    depth := 128, ncq := 0, vcnt := 0, resets := 0, aen := false, code := 0, vtimes := [], rtimes := [], window := false
    busMaster := false, unsafeGcm := false, admAt := none, admTail := 0, aers := 0, bar0 := 0, cc := 0
    ctoRanges := 0, ctoVal := 0 }

/-- One link of a slot: state, rate, width, separate clock (R299), whether a retraining that PGn_CTRL.RETRAIN started runs (R11, R298), and the
TIME of its class 1 violations of the last second (R295). -/
structure Link where
  st : Nat
  rate : Nat
  width : Nat
  sepclk : Bool
  retrain : Bool
  c1times : List Nat
  deriving DecidableEq, Repr

def Link.init : Link := { st := 0, rate := 0, width := 0, sepclk := false, retrain := false, c1times := [] }

/-- A port group (R273, R296 to R300). -/
structure Group where
  /-- PGn_MODE (R297); reset 0x000C_0000 (MAXRATE 6) -/
  mode : Word
  /-- PGn_CTRL EN and PERST, one bit per slot (R298); reset 0, 0b11 -/
  en : BitVec 2
  perst : BitVec 2
  /-- PGn_STAT.MODEERR (R298); reset 0 -/
  modeErr : Bool
  /-- links: key 2k + L for slot k (R299); reset DISABLED -/
  links : Tbl Link
  /-- PGn_DCTO (R300); reset 50 -/
  dcto : Word
  /-- PGn_VCNT0 to 7 (R300); reset 0 -/
  vcnt : Tbl Word
  /-- PGn_VLAST (R300); reset 0 -/
  vlast : Word
  /-- RELAY_BASE of the downstream port of slot k (R27); reset 0, log 20 -/
  relay : Tbl Nat
  deriving DecidableEq, Repr

def Group.init : Group :=
  { mode := 0x000C0000, en := 0, perst := 3, modeErr := false, links := [], dcto := 50, vcnt := [], vlast := 0, relay := [] }

/-- A selective IDE stream of an upstream port (R282): enabled by the host; the keys by number 6 × set + 3 × direction + sub-stream (set 0 K0, 1 K1;
direction 0 received, 1 sent; sub-stream 0 PR, 1 NPR, 2 CPL), write-only to everything but the port engine; which of the twelve K_SET_GO put in use;
the RID association range and the two address association ranges (base, limit). -/
structure IdeStream where
  en : Bool
  keys : Tbl (Option (BitVec 256))
  go : BitVec 12
  rid : Nat × Nat
  addr0 : Nat × Nat
  addr1 : Nat × Nat
  deriving DecidableEq, Repr

def IdeStream.init : IdeStream := { en := false, keys := [], go := 0, rid := (0, 0), addr0 := (0, 0), addr1 := (0, 0) }

/-- An upstream port UPu (R275 to R290). -/
structure UpPort where
  /-- PERST# asserted (R280); reset true, log 10 -/
  perst : Bool
  /-- CLKREQ# deasserted by the host (R285); reset false, log 10 -/
  clkreqHigh : Bool
  /-- ASPM L1, L1.1, L1.2 enabled by the host (R285); reset false -/
  aspmL1 : Bool
  l11 : Bool
  l12 : Bool
  /-- LTR threshold of L1.2 in nanoseconds, as the host set it (R285); reset 0, log 85 -/
  l12thr : Nat
  /-- Device Control 2 of the physical function: completion timeout range, LTR enable (R277, R281); reset 0, log 85 -/
  devctl2 : BitVec 16
  /-- AER capabilities and control of the physical function: ECRC generation and check enables (R277); reset 0, log 85 -/
  aerctl : Word
  /-- IDE streams 0 to 7: 0 DISABLED 1 SECURE 2 INSECURE (R300); reset 0 -/
  ide : Tbl Nat
  /-- keys, enables and association ranges of IDE streams 0 to 7 (R282); reset none -/
  ideStreams : Tbl IdeStream
  /-- configuration space set up by warden firmware (R456) -/
  ready : Bool
  /-- IDE requirement of the operator page (R345); reset none -/
  ideReq : Option Nat
  /-- data objects in the DOE mailbox (R336 DOE) and open SPDM sessions (R360); reset empty -/
  doe : List (List Byte)
  sessions : Nat
  /-- subsystem IDs copied at set-up (R486) -/
  subsys : Word
  deriving DecidableEq, Repr

def UpPort.init : UpPort :=
  { perst := true, clkreqHigh := false, aspmL1 := false, l11 := false, l12 := false, l12thr := 0, devctl2 := 0, aerctl := 0
    ide := [], ideStreams := [], ready := false, ideReq := none
    doe := [], sessions := 0, subsys := 0x00011F4C }

/-- The reference clocks (R291 to R294, R301). -/
structure Clk where
  auto : Bool
  primary : Bool
  primaryReq : Bool
  /-- input states A, B: 0 ABSENT 1 OUT_OF_TOLERANCE 2 QUALIFYING 3 GOOD (R291) -/
  a : Nat
  b : Nat
  sel : Bool
  switching : Bool
  /-- the switch in progress was started by CLK_CTRL.FORCE, which reads 1 meanwhile (R11, R301); reset 0 -/
  force : Bool
  /-- input that the switch in progress goes to (true B) -/
  target : Bool
  holdover : Bool
  swcnt : Word
  /-- the 1 s of R293 runs since the last switchback began -/
  limit : Bool
  deriving DecidableEq, Repr

def Clk.init : Clk :=
  { auto := true, primary := false, primaryReq := false, a := 0, b := 0, sel := false, switching := false, force := false, target := false
    holdover := false, swcnt := 0, limit := false }

/-! ## Queues (08) -/

/-- The control block and ends of a credit queue (R249 to R258). Command, inbox, molt, completion and fault queues keep their items in the
blocks that own them; a spill queue's items stand in `Ctl.spill`. -/
structure Queue where
  en : Bool
  flushed : Bool
  ovf : Bool
  merr : Bool
  rewinds : BitVec 8
  ring : Word
  rsize : Word
  /-- words in the tail, bursts in the middle, words in the head, and the ring's next burst to write (R251) -/
  tailW : Nat
  midB : Nat
  headW : Nat
  midW : Nat
  deriving DecidableEq, Repr

def Queue.init : Queue :=
  { en := false, flushed := false, ovf := false, merr := false, rewinds := 0, ring := 0, rsize := 0, tailW := 0, midB := 0, headW := 0, midW := 0 }

/-! ## Mailboxes, MCTP, claims (11, 16) -/

/-- A mailbox page (R344 to R351, R491, R492). -/
structure Page where
  /-- request and response areas, 4 KiB; unwritten bytes 0 (R347 clears both) -/
  area : Memory
  /-- 0 IDLE 1 PENDING 2 ACCEPTED 3 DONE (R346); reset 0 -/
  st : Nat
  overrun : Bool
  dbTime : DWord
  aTime : DWord
  /-- MBX_HOFF.WORD (R491); reset 0 -/
  word : Nat
  latch : Tbl (Option Word)
  /-- remembered SEQUENCE, OPCODE, TAG and response (R351); reset none -/
  mem : Option (Word × Word × List Byte)
  /-- OPCODE with TAG, and SEQUENCE, of the request the warden accepted; reset 0 -/
  req : Word
  seq : Word
  /-- a response has been written for the accepted request -/
  answered : Bool
  /-- discard the response: the page was reset while ACCEPTED (R347) -/
  discard : Bool
  /-- the PENDING request has passed steps 1 to 5 of R350 -/
  checked : Bool
  /-- for an endpoint's page: the request came in a secured message, and the requester's EID and message tag (R357, R358) -/
  secured : Bool
  peer : Nat × Nat
  deriving DecidableEq, Repr

def Page.init : Page :=
  { area := [], st := 0, overrun := false, dbTime := 0, aTime := 0, word := 0, latch := [], mem := none, req := 0, seq := 0
    answered := false, discard := false, checked := false, secured := false, peer := (0, 0) }

/-- An MCTP assembly: source, tag, next sequence, bytes, and whether its last packet has come (R359). -/
structure Assembly where
  src : Nat
  tag : Nat
  seq : Nat
  bytes : List Byte
  done : Bool
  deriving DecidableEq, Repr

/-- An MCTP endpoint (R357 to R360). -/
structure Endpoint where
  eid : Nat
  addr : Nat
  /-- 0 MONITOR 1 OPERATOR_SECURED 2 OPERATOR (R358); reset 0 -/
  rights : Nat
  rate : Nat
  asms : List Assembly
  sessions : Nat
  /-- faults counted in STATUS (R359); reset 0 -/
  violations : Nat
  deriving DecidableEq, Repr

/-- A held claim: page number, 0xFFFF configuration block, 0xFFFE firmware; and label (R356). -/
structure Claim where
  holder : Nat
  label : Nat
  deriving DecidableEq, Repr

/-- An accepted erase in progress (R179 to R182, R341). -/
structure Erase where
  /-- who is answered: 0 a mailbox page, 1 Format NVM, 2 Sanitize, 3 nobody (the hand-over of a molt) -/
  origin : Nat
  /-- the page, or the controller of the admin command -/
  page : Nat
  /-- CID of the admin command; none once a reset of the controller leaves nobody to answer -/
  cid : Option Nat
  /-- 0 BAND 1 NAMESPACE 2 CONTROLLER 3 DEVICE -/
  scope : Nat
  key : Nat
  /-- tiles whose purge has not completed -/
  waiting : List Nat
  /-- erase registration slot (R341); none when nothing is registered -/
  reg : Option Nat
  /-- the purge line has been driven for it -/
  lined : Bool
  /-- result of a DEVICE erase that held no epoch: 1 EPOCH_LOST -/
  lost : Bool
  /-- namespace, band and keyslot of the bands that get a new key after it (R218) -/
  targets : List (Nat × Nat × Nat)
  /-- namespaces that the admin command still has to erase, and all whose BUSY flag it has set (R218) -/
  rest : List Nat
  busy : List Nat
  deriving DecidableEq, Repr

/-! ## Warden (11, 16) -/

/-- A protection region (R333). -/
structure Region where
  base : Word
  limit : Word
  attr : Word
  deriving DecidableEq, Repr

def Region.init : Region := { base := 0, limit := 0, attr := 0 }

/-- A ticker (R405, R406). -/
structure Ticker where
  ctl : Word
  reload : Word
  count : Nat
  expires : BitVec 16
  deriving DecidableEq, Repr

def Ticker.init : Ticker := { ctl := 0, reload := 0, count := 0, expires := 0 }

/-- The warden and the blocks of its domain (R327 to R343, R478, R483). -/
structure Warden where
  proc : Proc
  /-- false while held in reset (R342) or before release (R455); reset false -/
  up : Bool
  /-- warden firmware has been entered (R459); reset false -/
  fw : Bool
  /-- recovery mode (R461); reset false -/
  recovery : Bool
  iram : Memory
  sram : Memory
  /-- protection regions (R333); reset 0 -/
  regions : Tbl Region
  /-- WRD_WDW0 to 7 (R483); reset 0 -/
  wdw : Tbl Word
  /-- WRD_CROAK.SEQ, CROAKCFG (R343); reset 0, PERIOD 100 -/
  croak : Word
  croakCfg : Word
  /-- WRD_BUSERR VALID, WRITE, COUNT, BUSADDR, ECCCNT (R343); reset 0 -/
  busValid : Bool
  busWrite : Bool
  busCount : BitVec 16
  busAddr : Word
  iecc : BitVec 16
  dsbe : BitVec 16
  /-- HI halves latched in the GLB_ and MBX_ blocks (R9) -/
  latch : Tbl (Option Word)
  /-- ICU: edge pending bits, enables (R337); reset 0 -/
  pend : BitVec 256
  enable : BitVec 256
  /-- asynchronous edge latches 160 to 167: arrived and acknowledged counts (R335); reset 0 -/
  arrived : Tbl Nat
  acked : Tbl Nat
  tickers : Tbl Ticker
  /-- MBX_DBSUM bits (R348); reset 0 -/
  dbsum : Tbl Bool
  /-- the last tenant page served, after which the next round starts (R352); reset 1,023, so that the first round starts at page 0 (log 107) -/
  lastTenant : Nat
  /-- tenant pages that the present round may still serve, 0 when the next round begins (R352); reset 0 -/
  round : Nat
  /-- accepted erases that a restart met are completed before any mailbox is served (R340); reset false -/
  erasesFirst : Bool
  /-- TIME at which the last erase ended, for latency targets missed while its DRAM work ranked first (R181, R244); reset 0 -/
  eraseEnd : Nat
  deriving DecidableEq, Repr

def Warden.init : Warden :=
  { proc := Proc.init 0x10000000, up := false, fw := false, recovery := false, iram := [], sram := [], regions := [], wdw := [], croak := 0
    croakCfg := 100, busValid := false, busWrite := false, busCount := 0, busAddr := 0, iecc := 0, dsbe := 0, latch := []
    pend := 0, enable := 0, arrived := [], acked := [], tickers := [], dbsum := [], lastTenant := 1023, round := 0, erasesFirst := false, eraseEnd := 0 }

/-- The global registers (R485). -/
structure Glb where
  pcisub : Word
  boot : Word
  rstcause : Word
  trip : BitVec 8
  hyst : BitVec 8
  /-- hottest Tj reading in degrees, signed (R485); reset 25, log 10 -/
  tj : BitVec 8
  hot : Bool
  scratch : Tbl Word
  deriving DecidableEq, Repr

/-- A fault event in a die's fault event queue (R319). -/
structure FaultEvt where
  cause : Nat
  index : Nat
  detail : Word
  /-- package timebase bits [31:0] at the fault (R324) -/
  time : Word
  deriving DecidableEq, Repr

/-- A fault ledger entry (R324). -/
structure FltEntry where
  w0 : Word
  w1 : Word
  w2 : Word
  w3 : Word
  deriving DecidableEq, Repr

def FltEntry.init : FltEntry := { w0 := 0, w1 := 0, w2 := 0, w3 := 0 }

/-- A recovery in progress or completed less than 1 s ago (R320, R321). -/
structure Recovery where
  /-- 1 ENGINE 2 TILE 3 QUADRANT -/
  level : Nat
  index : Nat
  esc : Bool
  entry : Nat
  /-- TIME of completion; none while in progress -/
  doneAt : Option Nat
  deriving DecidableEq, Repr

/-- The fault ledger (R319 to R326). -/
structure Flt where
  events0 : List FaultEvt
  events1 : List FaultEvt
  entries : Tbl FltEntry
  seq : BitVec 8
  overwrites : BitVec 16
  recs : List Recovery
  qeng : Tbl Bool
  qtile : BitVec 16
  qquad : BitVec 4
  deriving DecidableEq, Repr

/-! ## Vault (12) -/

/-- A 16-byte event of the vault's ring and queue (R370). -/
structure VEvt where
  vtime : BitVec 48
  kind : Nat
  detail : Nat
  data : DWord
  deriving DecidableEq, Repr

/-- A custodian share held in vault core RAM (R385, R387). -/
structure Share where
  index : Nat
  m : Nat
  n : Nat
  gen : Nat
  epoch : Nat
  y : BitVec 256
  check : BitVec 128
  deriving DecidableEq, Repr

/-- An import nonce held for a controller (R173). -/
structure Nonce where
  func : Nat
  value : BitVec 128
  deriving DecidableEq, Repr

/-- The custody descriptor (R368, R384). -/
structure Custody where
  m : Nat
  n : Nat
  gen : Nat
  epoch : Nat
  /-- first 8 bytes of the SHA-384 of each card's public key, by index -/
  cards : Tbl (Option DWord)
  deriving DecidableEq, Repr

/-- The TAMPER record of the retained ledger (R368, R372). -/
structure TamperRec where
  vtime : BitVec 48
  sensors : BitVec 7
  first : Nat
  epoch : Nat
  detail0 : Nat
  detail1 : Nat
  detail2 : Nat
  deriving DecidableEq, Repr

/-- The vault (R364 to R395). -/
structure Vault where
  /-- epoch secret, number, check value in the retention latches (R364); reset 0, log 10 -/
  secret : BitVec 256
  epoch : Nat
  check : BitVec 128
  /-- VLT_STAT EPOCHST, SHARED, TAMPER, WFAILED (R390): held; at manufacture BLANK, 0, 0, 0, log 10 -/
  epochst : Nat
  shared : Bool
  tamper : Bool
  wfailed : Bool
  /-- VLT_STAT MODE (true FULL), BROWNOUT, VHOLD_LOW, NOHOLD, LEDGER_LOST, DEVKEY_FAIL (R390); reset 1, 0, 0, 0, 0, 0 -/
  full : Bool
  brownout : Bool
  vholdLow : Bool
  nohold : Bool
  ledgerLost : Bool
  devkeyFail : Bool
  /-- VLT_TAMPER FIRST, TRIPS, MASK (R390): held, at manufacture 0 -/
  first : Nat
  trips : BitVec 8
  mask : BitVec 7
  /-- VHOLD glitch sensor armed; sensors whose condition holds; optional sensors shed (R371, R374, R376); reset false, 0, false -/
  glitchArmed : Bool
  live : BitVec 7
  shed : Bool
  /-- VLT_TCFG (R390); reset 3 -/
  tcfg : Word
  /-- VLT_POWER.BROWNOUTS (R390): held -/
  brownouts : BitVec 8
  /-- test-mode and epoch-floor fuses blown (R367); at manufacture 0, log 10 -/
  testFuses : Nat
  floorFuses : Nat
  /-- the wrapping key of the held epoch (R365, R372) -/
  wk : Option (BitVec 256)
  /-- the purge line is driven and not yet acknowledged: for each driving its cause, 0 an erase of the whole device or test mode, 1 a trip,
  2 an erase escalation or backstop, with the late tile (R21, R36, R183); reset empty -/
  line : List (Nat × Nat)
  /-- retained ledger bytes the vault and warden keep: warden area and the fields below (R368) -/
  warea : Memory
  slotmapVer : DWord
  restarts : BitVec 16
  /-- VTIME seconds of the recent warden restarts, oldest first (R342, R368 RWIN) -/
  rwin : List Nat
  evHead : Nat
  evLost : BitVec 16
  ring : Tbl (Option VEvt)
  evNew : Nat
  journal : Tbl Journal
  tamperRec : Option TamperRec
  deepest : Nat
  vholdFell : BitVec 48
  /-- VTIME of the last stage 5 sequence (R450) -/
  offTime : BitVec 48
  custody : Option Custody
  /-- sharing polynomials of the present generation: coefficients by index of the secret byte row (R384); none when gone -/
  poly : Option (List (BitVec 256))
  /-- indices to which shares of the present generation were issued -/
  issued : List Nat
  /-- nonces, collected shares, restore start state, card faults, last channel challenge (R173, R386, R387) -/
  nonces : Tbl (Option (BitVec 128))
  shares : List Share
  before : Nat
  cardFaults : Nat
  challenge : Option (BitVec 128)
  /-- ephemeral secret key of the last channel challenge (R386) -/
  eph : BitVec 384
  /-- noise source healthy (R365); reset true -/
  noise : Bool
  /-- wake configuration, record, time (R380 to R382): held; reset 0 -/
  wakecfg : Tbl Word
  wakeValid : Bool
  wakeMask : BitVec 8
  wakeSrc : Nat
  wakeTime : Word
  /-- live levels of the WAKE pins -/
  wakePin : BitVec 8
  /-- VLT_ERASEREG slots busy, SLOT, OVF, line driven per slot (R391); reset 0 -/
  regBusy : BitVec 2
  regSlot : Bool
  regOvf : Bool
  regLined : BitVec 2
  /-- VLT_CMD OPCODE, VLT_CMDSTAT BUSY and RESULT, arguments and result data (R391); reset 0 -/
  cmd : Nat
  cmdBusy : Bool
  cmdResult : Nat
  arg : Memory
  res : Memory
  laddr : Nat
  latch : Tbl (Option Word)
  /-- vault event queue, at most 16 (R257); reset empty -/
  events : List VEvt
  /-- croak watch: last SEQ accepted, and first croak after reset pending (R339, R343); reset 0 -/
  lastSeq : BitVec 16
  firstCroak : Bool
  /-- test challenge outstanding (R475) and test mode open (R476) -/
  testChallenge : Option (BitVec 256)
  testOpen : Bool
  deriving DecidableEq, Repr

/-! ## Power (14) -/

/-- A tile rail (R432 to R438). -/
structure Rail where
  /-- TARGET and its _REQ shadow in mV; reset 900 -/
  target : Nat
  req : Nat
  /-- voltage now, voltage last settled, targets since then (R434); reset 0 -/
  vout : Nat
  settledAt : Nat
  targets : List Nat
  settled : Bool
  /-- raise held by the budget: the wanted target (R436) -/
  held : Option Nat
  /-- target the regulator follows now (TARGET unless a raise is held) -/
  cur : Nat
  deriving DecidableEq, Repr

def Rail.init : Rail :=
  { target := 900, req := 900, vout := 0, settledAt := 0, targets := [], settled := false, held := none, cur := 0 }

/-- The power die (R427 to R452). -/
structure Pwr where
  /-- VIN and VHOLD in mV, VIN current in 10 mA units (R438); reset 0 -/
  vin : Nat
  vhold : Nat
  iin : Nat
  /-- VIN domains powered (R427); reset false -/
  vinOn : Bool
  sren : Bool
  /-- PWR_CTRL.STATE (R438); reset 0 -/
  state : Nat
  /-- in BRUMATION or before power-up (R445, R446) -/
  brumated : Bool
  /-- the part was shut down by temperature (R440, R485); reset false -/
  thermalOff : Bool
  orderErr : Bool
  thermClip : Bool
  /-- tail drop: ENTRIES, DEEPEST, STAGE (R438); reset 0 -/
  entries : BitVec 16
  deepest : Nat
  stage : Nat
  budget : Nat
  /-- PWR_DOMREQ and PWR_DOMSTAT over the 40 domains (R438); reset 0xFF in the upper byte, ON 0 -/
  domreq : BitVec 40
  domon : BitVec 40
  rails : Tbl Rail
  /-- tiles holding a raise, in arrival order, and the rotating start (R436) -/
  heldq : List Nat
  start : Nat
  /-- DRAM channels in self-refresh (R439) -/
  selfRef : BitVec 16
  /-- DRAM channels in power-down (R439) -/
  pdown : BitVec 16
  /-- committed rails in mV (R237); reset 900 -/
  railC : Tbl Nat
  deriving DecidableEq, Repr

/-! ## Tadpoles and lamps (13) -/

/-- A tadpole channel context (R396 to R407). -/
structure TCtx where
  pc : Nat
  k0 : Word
  k1 : Word
  txr : Word
  rxr : Word
  txc : Nat
  rxc : Nat
  tx : List Word
  rx : List Word
  /-- 0 STOPPED 1 RUNNING 2 ARMED 3 FAULT -/
  st : Nat
  stall : Bool
  fcause : Nat
  stalls : BitVec 16
  /-- STOP requested (R407) -/
  stopping : Bool
  ccfg : Word
  cpin : Word
  cpin2 : Word
  ovf : Bool
  unf : Bool
  /-- seen expiry counts by ticker (R405) -/
  seen : Tbl Nat
  sreq : Bool
  deriving DecidableEq, Repr

def TCtx.init : TCtx :=
  { pc := 0, k0 := 0, k1 := 0, txr := 0, rxr := 0, txc := 0, rxc := 0, tx := [], rx := [], st := 0, stall := false, fcause := 0
    stalls := 0, stopping := false, ccfg := 0, cpin := 0, cpin2 := 0, ovf := false, unf := false, seen := [], sreq := false }

/-- A tadpole (R396, R413, R414). -/
structure Tadpole where
  slots : Nat
  div : Nat
  cfgErr : Bool
  imErr : Bool
  clk : Bool
  deny : BitVec 8
  srven : Word
  flags : BitVec 8
  imem : Tbl (BitVec 16)
  ctxs : Tbl TCtx
  deriving DecidableEq, Repr

def Tadpole.init : Tadpole :=
  { slots := 3, div := 1, cfgErr := false, imErr := false, clk := false, deny := 0, srven := 0, flags := 0, imem := [], ctxs := [] }

/-- A PIO pin: configuration, the drive of its owner context, and the level the ball has from outside (R403, R411). -/
structure Pin where
  cfg : Word
  out : Bool
  oe : Bool
  ext : Bool
  deriving DecidableEq, Repr

def Pin.init : Pin := { cfg := 0, out := false, oe := false, ext := false }

/-- A lamp sink (R421 to R426). -/
structure Sink where
  ctrl : Word
  pwm : Word
  shortoff : Bool
  status : Nat
  vpin : Nat
  /-- last verdict, for two in a row: 0 none 2 GOOD 3 OPEN -/
  last : Nat
  deriving DecidableEq, Repr

def Sink.init : Sink := { ctrl := 0, pwm := 0, shortoff := false, status := 0, vpin := 0, last := 0 }

/-- The PIO_ and IND_ front end (R413 to R416, R422). -/
structure Pio where
  tads : Tbl Tadpole
  pins : Tbl Pin
  syncMask : BitVec 8
  syncBusy : Bool
  gpout : BitVec 64
  gpoe : BitVec 64
  sinks : Tbl Sink
  chg : Word
  deriving DecidableEq, Repr

/-! ## Boot, SPI NOR, store (15) -/

/-- What the durable store holds in the SPI NOR (R463): the version, and a copy of the durable tables. -/
structure Durable where
  ver : DWord
  ctls : Tbl Ctl
  nss : Tbl Ns
  records : Tbl (Option DrvRecord)
  /-- wrapped keyslot records as 128-byte strings, and the slot map STATE, GEN (R149) -/
  recs : Tbl (List Byte)
  slotmap : Tbl (Nat × Nat)
  deriving DecidableEq, Repr

/-- SPI NOR, firmware and configuration (R453 to R477). -/
structure Boot where
  /-- SPI NOR bytes outside the durable store; erased bytes 0xFF, log 9 -/
  nor : Memory
  durable : Durable
  /-- 0 not loaded, 1 loaded, 2 refused (R463) -/
  store : Nat
  /-- booted slot (false A), states 0 EMPTY 1 INVALID 2 VALID per slot, next FW_WRITE offset (R465, R466) -/
  slotB : Bool
  fwState : Tbl Nat
  fwNext : Option Nat
  stage : Memory
  token : Memory
  /-- stack offset of the keyslot table once the warden has written every initial record (R142); reset none -/
  tableBase : Option Nat
  /-- 16-byte lines of the tables stored to since the warden wrote them, by 33-bit address, with what the tables gave then (R142, R484); reset none -/
  touched : Tbl (Option (List Byte))
  /-- the ROM has booted a slot since power-up or part reset (R460, R462) -/
  booted : Bool
  /-- the lane image that the ROM hashed into warden SRAM, and its length (R459; its place there is not given, log 39) -/
  lane : Memory
  laneLen : Nat
  /-- TIME at which a part reset that a response announced takes place (R465); reset none -/
  resetDue : Option Nat
  /-- the configuration block as booted; empty when defaulted (R468); reset empty -/
  cfg : List Byte
  /-- recovery mode has been entered, which only power-up or part reset ends (R461); reset false -/
  recov : Bool
  /-- a capsule is present, and its last byte has been read (R472) -/
  capValid : Bool
  capRead : Bool
  /-- first configuration entry skipped (R470) -/
  skipped : Option Nat
  /-- measurements 1 to 3 as booted (R362) -/
  meas1 : List Byte
  meas2 : List Byte
  meas3 : List Byte
  version : Word
  deriving DecidableEq, Repr

/-- A message that has left the part: the model's own record of outputs (log 12). -/
inductive Out where
  /-- bytes written to host memory of a controller, at transfer offset, with the Relaxed Ordering attribute (R277) -/
  | hostWrite (func slot offset : Nat) (data : List Byte) (ro : Bool)
  /-- a completion entry written to a completion queue of a controller -/
  | completion (func cq : Nat) (c : Cpl)
  /-- an MSI-X message -/
  | msix (func vector : Nat)
  /-- an answer to a host request: 0 successful, 1 Unsupported Request, 2 Request Retry Status -/
  | hostAnswer (func kind : Nat)
  /-- the data that an admin command returns, and where its entry points -/
  | adminData (func cid : Nat) (prp1 prp2 : DWord) (data : List Byte)
  /-- the data answering a host read of a mailbox word -/
  | hostValue (func : Nat) (data : Word)
  /-- the data answering a drive read -/
  | driveData (drive : Nat) (data : List Byte)
  /-- Unsupported Request (1) or Completer Abort (2) to a drive read -/
  | driveRefuse (drive kind : Nat)
  /-- a drive command issued: its submission entry stands in the tile's ring and the doorbell is rung; with its pointers and Force Unit Access -/
  | driveCmd (drive : Nat) (cid : BitVec 16) (opc : Nat) (dnsid : Word) (dlba nlb : Nat) (mptr prp1 prp2 : DWord) (fua : Bool)
  /-- an admin command issued to a drive: opcode, CDW10 and CDW11 -/
  | driveAdmin (drive opc : Nat) (dw10 dw11 : Word)
  /-- a write of a drive's controller register, by its offset in BAR0 -/
  | driveReg (drive offset : Nat) (value : DWord)
  /-- a write of a drive's Completion Timeout Value, in Device Control 2 of its PCI Express capability -/
  | driveCto (drive value : Nat)
  /-- a configuration request to a drive: offset, size, and the data of a write (R479) -/
  | driveConfig (drive offset size : Nat) (data : Option Word)
  /-- a PM_PME message -/
  | pme (func : Nat)
  /-- an AER report of an upstream port, by violation class -/
  | aer (port cls : Nat)
  /-- an event posted to the operators: a tenant event's cause (R248), or 0x80 a drive's event, 0x81 a journal entry that rebuilds nothing, 0x82 NOHOLD,
  0x83 a drive without a sufficient Completion Timeout range (R164, R192, R206, R281, R314, R398) -/
  | operator (cause : Nat) (detail : Word)
  /-- a message to an MCTP endpoint's requester -/
  | mctp (ep : Nat) (data : List Byte)
  /-- an SPDM answer on a DOE mailbox -/
  | doe (port : Nat) (data : List Byte)
  /-- the transmit words of one block to the card of a channel (R419) -/
  | card (chan : Nat) (words : List Word)
  /-- test-port answer -/
  | tap (data : Word)
  deriving DecidableEq, Repr

/-! ## The whole part -/

/-- The state of the part. -/
structure State where
  /-- package timebase TIME, 10 ns ticks (R73); reset 0, log 10 -/
  time : DWord
  /-- VTIME, 32,768 Hz ticks, and its accumulator in hundred-millionths (R368); reset 0 -/
  vtime : BitVec 48
  vacc : Nat
  /-- the model's own counter of free values used (log 5); reset 0 -/
  free : Nat
  engines : Tbl Engine
  tiles : Tbl Tile
  quads : Tbl Quad
  ctls : Tbl Ctl
  nss : Tbl Ns
  molts : Tbl Molt
  drives : Tbl Drive
  groups : Tbl Group
  ports : Tbl UpPort
  queues : Tbl Queue
  pages : Tbl Page
  eps : Tbl Endpoint
  claims : Tbl (Option Claim)
  erases : List Erase
  warden : Warden
  glb : Glb
  clk : Clk
  flt : Flt
  vault : Vault
  pwr : Pwr
  pio : Pio
  boot : Boot
  /-- buffer DRAM stacks A and B (R482); unwritten bytes 0, log 9 -/
  stackA : Memory
  stackB : Memory
  /-- die-to-die data lanes up (R33); reset true -/
  dieLink : Bool
  /-- the next VERSION of each key handle, the write counter that vendor lane firmware keeps in buffer DRAM (R126, R143, R207); reset 0 -/
  versions : Tbl Nat
  /-- the model's own record of what has left the part, newest first (log 12); reset empty -/
  out : List Out
  /-- commands waiting, first in first out; reset empty -/
  pending : List Instr
  deriving DecidableEq, Repr

/-- Reasons for which a step stops: none is needed, since the spec gives every command of the table an effect that lets the part go on
(a double fault halts one engine, R103). -/
inductive Fault where
  /-- Never raised: kept so that the interface has a fault reason. Safe. -/
  | none
  deriving DecidableEq, Repr

/-- Reasons for which a command is refused. -/
inductive Refusal where
  /-- Raised by exec for a command that has no meaning yet. Safe: nothing can be proved of a run past it. -/
  | notModelled (mnemonic : String)
  deriving DecidableEq, Repr

def Endpoint.init (addr : Nat) : Endpoint :=
  { eid := 0, addr := addr, rights := 0, rate := 0, asms := [], sessions := 0, violations := 0 }

def Vault.init : Vault :=
  { secret := 0, epoch := 0, check := 0, epochst := 0, shared := false, tamper := false, wfailed := false, full := true
    brownout := false, vholdLow := false, nohold := false, ledgerLost := false, devkeyFail := false, first := 0, trips := 0
    mask := 0, glitchArmed := false, live := 0, shed := false, tcfg := 3, brownouts := 0, testFuses := 0, floorFuses := 0, wk := none, line := []
    warea := [], slotmapVer := 0, restarts := 0, rwin := [], evHead := 0, evLost := 0, ring := [], evNew := 0, journal := []
    tamperRec := none, deepest := 0, vholdFell := 0, offTime := 0, custody := none, poly := none, issued := [], nonces := [], shares := []
    before := 0, cardFaults := 0, challenge := none, eph := 0, noise := true, wakecfg := [], wakeValid := false, wakeMask := 0
    wakeSrc := 15, wakeTime := 0, wakePin := 0, regBusy := 0, regSlot := false, regOvf := false, regLined := 0, cmd := 0
    cmdBusy := false, cmdResult := 0, arg := [], res := [], laddr := 0, latch := [], events := [], lastSeq := 0
    firstCroak := true, testChallenge := none, testOpen := false }

def Pwr.init : Pwr :=
  { vin := 0, vhold := 0, iin := 0, vinOn := false, sren := false, state := 0, brumated := false, thermalOff := false, orderErr := false
    thermClip := false, entries := 0, deepest := 0, stage := 0, budget := 7040, domreq := 0xFF00000000, domon := 0, rails := []
    heldq := [], start := 0, selfRef := 0, pdown := 0, railC := [] }

def Glb.init : Glb :=
  { pcisub := 0x00011F4C, boot := 0, rstcause := 0, trip := 105, hyst := 5, tj := 25, hot := false, scratch := [] }

def Flt.init : Flt :=
  { events0 := [], events1 := [], entries := [], seq := 0, overwrites := 0, recs := [], qeng := [], qtile := 0, qquad := 0 }

def Pio.init : Pio :=
  { tads := [], pins := [], syncMask := 0, syncBusy := false, gpout := 0, gpoe := 0, sinks := [], chg := 0 }

def Durable.init : Durable := { ver := 0, ctls := [], nss := [], records := [], recs := [], slotmap := [] }

def Boot.init : Boot :=
  { nor := [], durable := Durable.init, store := 0, slotB := false, fwState := [], fwNext := none, stage := [], token := []
    tableBase := none, touched := [], booted := false, lane := [], laneLen := 0, resetDue := none, cfg := [], recov := false, capValid := false, capRead := false, skipped := none, meas1 := [], meas2 := [], meas3 := []
    version := 0 }

/-- The part right after reset: every register at the value its field table gives for reset, memories unwritten, no command waiting. -/
def State.reset : State :=
  { time := 0, vtime := 0, vacc := 0, free := 0, engines := [], tiles := [], quads := [], ctls := [], nss := [], molts := []
    drives := [], groups := [], ports := [], queues := [], pages := [], eps := [(0, Endpoint.init 0x1A), (1, Endpoint.init 0x1B)]
    claims := [], erases := [], warden := Warden.init, glb := Glb.init, clk := Clk.init, flt := Flt.init, vault := Vault.init
    pwr := Pwr.init, pio := Pio.init, boot := Boot.init, stackA := [], stackB := [], dieLink := true, versions := [], out := [], pending := [] }

end Sys2Proof.Machine
end

