-- ==== Sys2Proof/Machine/Tables.lean ====
section
/-!
DEFINITION. The tables that warden firmware keeps in buffer DRAM, as the bytes that a window shows: keyslots never written (R142), namespace descriptors
(R213), extents (R214), bands (R151), molts and the molt map (R187, R188) and tenant ledgers (R246), at the places of R484.
-/

namespace Sys2Proof.Machine

/-! ## Records -/

/-- Byte `i` of the initial record of a slot that was never provisioned: IDENT with FMT 1 and its SLOT, all else 0 (R142, R144). -/
def initRecByte (slot i : Nat) : Byte :=
  if i < 3 then BitVec.ofNat 8 (slot / 256 ^ i) else if i = 3 then 0x10 else 0

/-- Place of a namespace's extents in the pool: the extents of the namespaces below it stand before them (log 106). -/
def State.extentBase (s : State) (n : Nat) : Nat := ((s.nss.filter fun p => p.1 < n).map fun p => p.2.extents.length).sum

/-- The 64-byte namespace descriptor, zeros where none is valid (R213). -/
def State.nsBytes (s : State) (n : Nat) : List Byte :=
  let x := Tbl.get Ns.init s.nss n
  if !x.valid then List.replicate 64 0
  else
    leBytes 8 x.nsze ++ [BitVec.ofNat 8 x.lbads, BitVec.ofNat 8 x.nbands, BitVec.ofNat 8 (1 + 2 * b2n x.wp + 4 * b2n (x.busy ≠ 0)), 0]
      ++ leBytes 2 x.extents.length ++ [0, 0] ++ leBytes 8 (0x8000000 + 32 * s.extentBase n) ++ leBytes 8 (0x4000000 + 1024 * n) ++ List.replicate 32 0

/-- The 32-byte extent record (R214). -/
def Extent.bytes (e : Extent) : List Byte :=
  leBytes 8 e.nstart ++ leBytes 8 e.len ++ [BitVec.ofNat 8 e.dport, 0, 0, 0] ++ leBytes 4 e.dnsid.toNat ++ leBytes 8 e.dstart

/-- The 16-byte band table entry (R151). -/
def Band.bytes (b : Band) : List Byte := leBytes 8 b.start ++ leBytes 4 b.handle.toNat ++ leBytes 4 b.next.toNat

/-- The 64-byte molt record (R188). -/
def Molt.bytes (r : Molt) : List Byte :=
  leBytes 4 (r.st * 2 ^ 28 + r.band * 2 ^ 22 + r.nsx) ++ leBytes 4 r.old.toNat ++ leBytes 4 r.new.toNat ++ leBytes 4 r.wseq.toNat ++ leBytes 8 r.wmark
    ++ leBytes 8 r.bend ++ leBytes 8 r.wend ++ leBytes 4 (r.cause * 2 ^ 24 + r.engine) ++ leBytes 4 r.wlimit ++ leBytes 8 r.moved ++ List.replicate 8 0

/-- The molt of a band, if any: its byte in the molt map (R187). -/
def State.moltOf (s : State) (nsx band : Nat) : Option Nat :=
  (s.molts.find? fun p => p.2.st ≠ 0 && p.2.nsx = nsx && p.2.band = band).map Prod.fst

def LedEvt.bytes (e : LedEvt) : List Byte :=
  leBytes 8 e.time.toNat ++ leBytes 2 e.cause ++ [BitVec.ofNat 8 e.broken, BitVec.ofNat 8 e.by_] ++ leBytes 4 e.detail.toNat

/-- The 1 KiB ledger record (R246). -/
def Ledger.bytes (l : Ledger) : List Byte :=
  padTo 512 (leBytes 8 l.admCommitted ++ leBytes 8 l.admElastic ++ leBytes 8 l.delayed ++ leBytes 8 l.delayTotal ++ leBytes 4 l.delayMax
    ++ leBytes 4 l.spillDepth ++ leBytes 8 l.refQuota ++ leBytes 8 l.refTail ++ leBytes 8 l.refOther ++ leBytes 8 l.heldMolt ++ leBytes 8 l.holdTotal
    ++ leBytes 8 l.latMiss ++ leBytes 8 l.bytesRead ++ leBytes 8 l.bytesWritten ++ leBytes 8 l.violations ++ leBytes 4 l.evHead ++ leBytes 4 l.evLost)
  ++ (List.range 32).flatMap fun i => (Tbl.get LedEvt.init l.events i).bytes

/-! ## Places (R484) -/

/-- The byte that the tables give a 33-bit buffer-DRAM address, once the warden has written them. -/
def State.tabByte (s : State) (a : Nat) : Option Byte :=
  let o := a % 2 ^ 32
  match s.boot.tableBase with
  | none => none
  | some base =>
    if base ≤ o && o < base + 2 ^ 27 then some (initRecByte ((o - base) / 128) (o % 128))
    else if o < 0x400000 then some ((s.nsBytes (o / 64)).getD (o % 64) 0)
    else if o < 0x401000 then some ((Tbl.get Molt.init s.molts ((o - 0x400000) / 64)).bytes.getD (o % 64) 0)
    else if 0x800000 ≤ o && o < 0xC00000 then
      some (match s.moltOf ((o - 0x800000) / 64) (o % 64) with | some m => BitVec.ofNat 8 m | none => 0xFF)
    else if 0x4000000 ≤ o && o < 0x8000000 then
      some ((Tbl.get Band.init (Tbl.get Ns.init s.nss ((o - 0x4000000) / 1024)).bands (o % 1024 / 16)).bytes.getD (o % 16) 0)
    else if 0x8000000 ≤ o && o < 0xC000000 then
      (((s.nss.flatMap fun p => p.2.extents)[(o - 0x8000000) / 32]?).map fun e => e.bytes.getD (o % 32) 0)
    else if a < 2 ^ 32 && 0x48000000 ≤ o && o < 0x48100000 then some ((Tbl.get Ctl.init s.ctls ((o - 0x48000000) / 1024)).ledgerCopy.bytes.getD (o % 1024) 0)
    else none

/-- The 16 bytes that the tables give the 16-byte line at a start address. -/
def State.tabLine (s : State) (g : Nat) : Option (List Byte) :=
  if (s.tabByte g).isSome then some ((List.range 16).map fun i => (s.tabByte (g + i)).getD 0) else none

/-- The line of an address as the warden wrote it last, unless something has been stored to it since (log 106). -/
def State.overlay (s : State) (a : Nat) : Option (List Byte) :=
  match s.tabLine (a / 16 * 16) with
  | none => none
  | some l => if Tbl.get none s.boot.touched (a / 16 * 16) = some l then none else some l

end Sys2Proof.Machine
end

