-- ==== Sys2Proof/Machine/Ops.lean ====
section
/-!
DEFINITION. The named operations over the state that every family shares: reading and writing one unit, raising an interrupt source, a
fault event, a vault event or a tenant ledger event, sending a message, taking a free value, and the warden restart.
-/

namespace Sys2Proof.Machine

/-- The three outcomes of a command. -/
abbrev Res := Host.Outcome State Fault Refusal

/-! ## Units by index (R3) -/

def State.eng (s : State) (n : Nat) : Engine := Tbl.get Engine.init s.engines n
def State.setEng (s : State) (n : Nat) (e : Engine) : State := { s with engines := Tbl.set Engine.init s.engines n e }
def State.updEng (s : State) (n : Nat) (f : Engine → Engine) : State := s.setEng n (f (s.eng n))

def State.tile (s : State) (n : Nat) : Tile := Tbl.get Tile.init s.tiles n
def State.setTile (s : State) (n : Nat) (t : Tile) : State := { s with tiles := Tbl.set Tile.init s.tiles n t }
def State.updTile (s : State) (n : Nat) (f : Tile → Tile) : State := s.setTile n (f (s.tile n))

def State.quad (s : State) (n : Nat) : Quad := Tbl.get Quad.init s.quads n
def State.setQuad (s : State) (n : Nat) (q : Quad) : State := { s with quads := Tbl.set Quad.init s.quads n q }
def State.updQuad (s : State) (n : Nat) (f : Quad → Quad) : State := s.setQuad n (f (s.quad n))

def State.ctl (s : State) (n : Nat) : Ctl := Tbl.get Ctl.init s.ctls n
def State.setCtl (s : State) (n : Nat) (c : Ctl) : State := { s with ctls := Tbl.set Ctl.init s.ctls n c }
def State.updCtl (s : State) (n : Nat) (f : Ctl → Ctl) : State := s.setCtl n (f (s.ctl n))

def State.ns (s : State) (n : Nat) : Ns := Tbl.get Ns.init s.nss n
def State.setNs (s : State) (n : Nat) (x : Ns) : State := { s with nss := Tbl.set Ns.init s.nss n x }
def State.updNs (s : State) (n : Nat) (f : Ns → Ns) : State := s.setNs n (f (s.ns n))

def State.molt (s : State) (n : Nat) : Molt := Tbl.get Molt.init s.molts n
def State.setMolt (s : State) (n : Nat) (m : Molt) : State := { s with molts := Tbl.set Molt.init s.molts n m }
def State.updMolt (s : State) (n : Nat) (f : Molt → Molt) : State := s.setMolt n (f (s.molt n))

def State.drive (s : State) (n : Nat) : Drive := Tbl.get Drive.init s.drives n
def State.setDrive (s : State) (n : Nat) (d : Drive) : State := { s with drives := Tbl.set Drive.init s.drives n d }
def State.updDrive (s : State) (n : Nat) (f : Drive → Drive) : State := s.setDrive n (f (s.drive n))

def State.group (s : State) (n : Nat) : Group := Tbl.get Group.init s.groups n
def State.setGroup (s : State) (n : Nat) (g : Group) : State := { s with groups := Tbl.set Group.init s.groups n g }
def State.updGroup (s : State) (n : Nat) (f : Group → Group) : State := s.setGroup n (f (s.group n))

def State.port (s : State) (n : Nat) : UpPort := Tbl.get UpPort.init s.ports n
def State.setPort (s : State) (n : Nat) (u : UpPort) : State := { s with ports := Tbl.set UpPort.init s.ports n u }
def State.updPort (s : State) (n : Nat) (f : UpPort → UpPort) : State := s.setPort n (f (s.port n))

def State.queue (s : State) (n : Nat) : Queue := Tbl.get Queue.init s.queues n
def State.setQueue (s : State) (n : Nat) (q : Queue) : State := { s with queues := Tbl.set Queue.init s.queues n q }
def State.updQueue (s : State) (n : Nat) (f : Queue → Queue) : State := s.setQueue n (f (s.queue n))

def State.page (s : State) (n : Nat) : Page := Tbl.get Page.init s.pages n
def State.setPage (s : State) (n : Nat) (p : Page) : State := { s with pages := Tbl.set Page.init s.pages n p }
def State.updPage (s : State) (n : Nat) (f : Page → Page) : State := s.setPage n (f (s.page n))

def State.ep (s : State) (n : Nat) : Endpoint := Tbl.get (Endpoint.init 0) s.eps n
def State.setEp (s : State) (n : Nat) (e : Endpoint) : State := { s with eps := Tbl.set (Endpoint.init 0) s.eps n e }
def State.updEp (s : State) (n : Nat) (f : Endpoint → Endpoint) : State := s.setEp n (f (s.ep n))

/-- The warden changed by `f`. -/
def State.updWarden (s : State) (f : Warden → Warden) : State := { s with warden := f s.warden }
/-- The vault changed by `f`. -/
def State.updVault (s : State) (f : Vault → Vault) : State := { s with vault := f s.vault }
/-- The power die changed by `f`. -/
def State.updPwr (s : State) (f : Pwr → Pwr) : State := { s with pwr := f s.pwr }

/-- A list of units changed one after another. -/
def State.each (s : State) (ks : List Nat) (f : State → Nat → State) : State := ks.foldl f s

/-- Context `c` of an engine's cipher unit (R116). -/
def Engine.ctx (e : Engine) (c : Nat) : KeyCtx := Tbl.get KeyCtx.init e.ctxs c
def Engine.setCtx (e : Engine) (c : Nat) (k : KeyCtx) : Engine := { e with ctxs := Tbl.set KeyCtx.init e.ctxs c k }
/-- Command slot `n` of an engine (R15). -/
def Engine.slot (e : Engine) (n : Nat) : Slot := Tbl.get Slot.init e.slots n
def Engine.setSlot (e : Engine) (n : Nat) (x : Slot) : Engine := { e with slots := Tbl.set Slot.init e.slots n x }
/-- Staging register of an engine by offset. -/
def Engine.stg (e : Engine) (o : Nat) : Word := Tbl.get 0 e.stage o
/-- Key-cache entry `n` of a tile. -/
def Tile.entry (t : Tile) (n : Nat) : CacheEntry := Tbl.get CacheEntry.init t.cache n
def Tile.setEntry (t : Tile) (n : Nat) (c : CacheEntry) : Tile := { t with cache := Tbl.set CacheEntry.init t.cache n c }
/-- Rail of a tile (R432). -/
def Pwr.rail (p : Pwr) (t : Nat) : Rail := Tbl.get Rail.init p.rails t
def Pwr.setRail (p : Pwr) (t : Nat) (r : Rail) : Pwr := { p with rails := Tbl.set Rail.init p.rails t r }
/-- Gate `m` of a quadrant (R193). -/
def Quad.gate (q : Quad) (m : Nat) : Gate := Tbl.get Gate.init q.gates m
def Quad.setGate (q : Quad) (m : Nat) (g : Gate) : Quad := { q with gates := Tbl.set Gate.init q.gates m g }

/-! ## Places (R3, R429) -/

def tileOf (e : Nat) : Nat := e / 8
def quadOfTile (t : Nat) : Nat := t / 4
def dieOfTile (t : Nat) : Nat := t / 8
def quadOfEng (e : Nat) : Nat := e / 32
def enginesOf (t : Nat) : List Nat := (List.range 8).map (8 * t + ·)

/-- Power domain `i` is powered and unclamped (R429). -/
def State.domOn (s : State) (i : Nat) : Bool := s.pwr.domon.getLsbD i
/-- Tile `t` is powered. -/
def State.tileOn (s : State) (t : Nat) : Bool := s.domOn t
/-- The package timebase as a number of 10 ns ticks (R73). -/
def State.now (s : State) : Nat := s.time.toNat

/-! ## Sialven processors -/

/-- Processor 128 is the warden; the others are the lane processors of their engines (R37). -/
def State.proc (s : State) (p : Nat) : Proc := if p = 128 then s.warden.proc else (s.eng p).proc
def State.setProc (s : State) (p : Nat) (r : Proc) : State :=
  if p = 128 then { s with warden := { s.warden with proc := r } } else s.updEng p fun e => { e with proc := r }
def State.updProc (s : State) (p : Nat) (f : Proc → Proc) : State := s.setProc p (f (s.proc p))

/-- General register read: g0 always reads 0 (R38). -/
def Proc.reg (r : Proc) (n : Nat) : Word := if n = 0 then 0 else Tbl.get 0 r.regs n
/-- General register write: writes to g0 are discarded (R38). -/
def Proc.setReg (r : Proc) (n : Nat) (v : Word) : Proc := if n = 0 then r else { r with regs := Tbl.set 0 r.regs n v }
/-- The scoreboard bit of a register; g0 has none (R83). -/
def Proc.isBusy (r : Proc) (n : Nat) : Bool := n ≠ 0 && r.busy.getLsbD n
def Proc.setBusy (r : Proc) (n : Nat) : Proc := if n = 0 then r else { r with busy := r.busy ||| (1#32 <<< n) }
def Proc.clearBusy (r : Proc) (n : Nat) : Proc := { r with busy := r.busy &&& ~~~(1#32 <<< n) }
/-- MODE.SUP (R70). -/
def Proc.sup (r : Proc) : Bool := r.mode.getLsbD 1
/-- MODE.IE (R70). -/
def Proc.ie (r : Proc) : Bool := r.mode.getLsbD 0

/-! ## Messages, interrupt sources, faults and events -/

/-- A message leaves the part (log 12). -/
def State.emit (s : State) (o : Out) : State := { s with out := o :: s.out }

/-- An edge source of the interrupt controller is set (R335, R336); nothing crosses into an unpowered domain (R271). -/
def State.raise (s : State) (k : Nat) : State :=
  if s.domOn 36 then s.updWarden fun w => { w with pend := w.pend ||| (1#256 <<< k) } else s

/-- A fault enters the fault event queue of its die; nothing crosses into an unpowered domain (R271, R319). -/
def State.faultEvent (s : State) (die cause index : Nat) (detail : Word) : State :=
  let ev : FaultEvt := { cause := cause, index := index, detail := detail, time := s.time.truncate 32 }
  if !s.domOn 36 then s
  else if die = 0 then { s with flt := { s.flt with events0 := s.flt.events0 ++ [ev] } }
  else { s with flt := { s.flt with events1 := s.flt.events1 ++ [ev] } }

/-- A free value of `w` bits is taken (log 5). -/
def State.fresh (s : State) (w : Nat) : BitVec w × State := (Config.freeBits w s.free, { s with free := s.free + 1 })

/-- The vault records an event in the ring and posts it to its event queue, which nothing enters while the warden domain is off; the spec gives
no DATA for any kind, so it is free (R370). -/
def State.vaultEvent (s : State) (kind detail : Nat) : State :=
  let d := s.fresh 64
  let ev : VEvt := { vtime := s.vtime, kind := kind, detail := detail % 256, data := d.1 }
  let v := s.vault
  let v := { v with ring := Tbl.set none v.ring v.evHead (some ev), evHead := (v.evHead + 1) % 96, evNew := v.evNew + 1
                    evLost := if v.evNew ≥ 96 then satAdd v.evLost 1 else v.evLost }
  { d.2 with vault := if s.domOn 36 then { v with events := v.events ++ [ev] } else v }

/-- The vault posts a CMD_DONE item, which the ring does not log; its DETAIL and DATA are free (R391). -/
def State.cmdDone (s : State) : State :=
  if s.domOn 36 then
    let d := s.fresh 8
    let x := d.2.fresh 64
    x.2.updVault fun v => { v with events := v.events ++ [{ vtime := s.vtime, kind := 0x0E, detail := d.1.toNat, data := x.1 }] }
  else s

/-- Warden firmware runs. -/
def State.fwUp (s : State) : Bool := s.warden.up && s.warden.fw && s.domOn 36

/-- The rung at which a controller holds a guarantee (R509). -/
def Ctl.rung (c : Ctl) : Nat :=
  if fld c.admw0.toNat 15 0 ≠ 0 then 4 else if fld c.admw1.toNat 27 20 ≠ 0 then 5 else 6

/-- An event enters a tenant ledger's ring of 32 (R246, R509). -/
def Ledger.post (l : Ledger) (e : LedEvt) : Ledger :=
  { l with events := Tbl.set LedEvt.init l.events l.evHead e, evHead := (l.evHead + 1) % 32, evNew := l.evNew + 1
           evLost := if l.evNew ≥ 32 then l.evLost + 1 else l.evLost }

/-- A tenant ledger event is posted to controller `f` (R248, R509). -/
def State.tenantEvent (s : State) (f cause broken byRung : Nat) (detail : Word) : State :=
  s.updCtl f fun c => { c with ledger := c.ledger.post { time := s.time, cause := cause, broken := broken, by_ := byRung, detail := detail } }

/-- `n` free bytes are taken. -/
def State.freshBytes (s : State) (n : Nat) : List Byte × State :=
  ((List.range n).map fun i => Config.freeBits 8 (s.free + i), { s with free := s.free + n })

/-! ## Ports and homes (R208, R222, R275) -/

/-- GMODE of a group, and for slot k: QMODE, DIR, UPIDX (R297). -/
def Group.gmode (g : Group) : Nat := fld g.mode.toNat 1 0
def Group.qmode (g : Group) (k : Nat) : Nat := fld g.mode.toNat (5 + 2 * k) (4 + 2 * k)
def Group.dirUp (g : Group) (k : Nat) : Bool := bitOf g.mode.toNat (8 + k)
def Group.upidx (g : Group) (k : Nat) : Nat := fld g.mode.toNat (11 + 2 * k) (10 + 2 * k)

/-- Slot k of group g carries a port under its mode: the second group of an X16 pair carries none of its own (R273). -/
def State.carriesPort (s : State) (g k : Nat) : Bool :=
  let r := s.group g
  if r.gmode = 1 then r.qmode k ≠ 0 else if r.gmode = 2 then k = 0 else if r.gmode = 3 then k = 0 && g % 2 = 0 else false

/-- The group and slot that carry upstream port UPu, if any; an enabled one before one that is only configured (R275, R298). -/
def State.upSlot (s : State) (u : Nat) : Option (Nat × Nat) :=
  let l := ((List.range 16).flatMap fun g => [(g, 0), (g, 1)]).filter fun p =>
    s.carriesPort p.1 p.2 && (s.group p.1).dirUp p.2 && (s.group p.1).upidx p.2 = u
  match l.find? fun p => (s.group p.1).en.getLsbD p.2 with | some p => some p | none => l.head?

/-- The quadrant of UPu: that of its port group; with no port so set, the quadrant of the same number (log 18). -/
def State.portQuad (s : State) (u : Nat) : Nat := match s.upSlot u with | some (g, _) => g / 4 | none => u % 4

/-- The quadrant whose dispatcher serves controller FUNC (R23, R208). -/
def State.funcQuad (s : State) (f : Nat) : Nat := s.portQuad (f / 256)

/-- A tile that dispatch passes over: its domain off or quarantined (R222). -/
def State.tileAvail (s : State) (t : Nat) : Bool := s.tileOn t && !s.flt.qtile.getLsbD t

/-- The hash of R222. -/
def homeHash (f : Nat) : Nat := (f ^^^ (f >>> 2) ^^^ (f >>> 4) ^^^ (f >>> 6) ^^^ (f >>> 8)) % 4

/-- The home tile of FUNC, if one of its quadrant's tiles is available (R222). -/
def State.homeTile (s : State) (f : Nat) : Option Nat :=
  let w := (s.ctl f).admw1.toNat
  let h := if bitOf w 30 then fld w 29 28 else homeHash f
  let q := s.funcQuad f
  ((List.range 4).map fun i => 4 * q + (h + i) % 4).find? fun t => s.tileAvail t

/-- The controllers that exist or hold state, by number. -/
def State.funcs (s : State) : List Nat := s.ctls.map Prod.fst

/-- The controllers homed on a tile (R222). -/
def State.homedOn (s : State) (t : Nat) : List Nat := s.funcs.filter fun f => (s.ctl f).tenant && s.homeTile f = some t

/-- An event for each controller of a list, BROKEN as given or its own rung when `none` (R509). -/
def State.tenantEvents (s : State) (fs : List Nat) (cause : Nat) (broken : Option Nat) (byRung : Nat) (detail : Word) : State :=
  s.each fs fun s f => s.tenantEvent f cause (broken.getD (s.ctl f).rung) byRung detail

/-! ## Buffer DRAM (R482) -/

/-- The byte that has been written at a 33-bit buffer-DRAM address. -/
def State.dramRaw (s : State) (a : Nat) : Byte := if a < 2 ^ 32 then Memory.rd s.stackA a else Memory.rd s.stackB (a - 2 ^ 32)

/-- The byte at a 33-bit buffer-DRAM address: of the tables as the warden wrote them, or what was written there. -/
def State.dramByte (s : State) (a : Nat) : Byte :=
  match s.overlay a with
  | some l => l.getD (a % 16) 0
  | none => s.dramRaw a

/-- Bytes at a 33-bit buffer-DRAM address. -/
def State.dramBytes (s : State) (a n : Nat) : List Byte := (List.range n).map fun i => s.dramByte (a + i)

/-- Bytes written into the memory of a stack. -/
def State.dramSet (s : State) (a : Nat) (bs : List Byte) : State :=
  if a < 2 ^ 32 then { s with stackA := Memory.put s.stackA a bs } else { s with stackB := Memory.put s.stackB (a - 2 ^ 32) bs }

/-- A line that the tables give is written out, so that a byte of it can change. -/
def State.recInit (s : State) (a : Nat) : State :=
  match s.overlay a with
  | some l =>
    let s := s.dramSet (a / 16 * 16) l
    { s with boot := { s.boot with touched := Tbl.set none s.boot.touched (a / 16 * 16) (some l) } }
  | none => s

/-- Bytes written at a buffer-DRAM address. -/
def State.dramPut (s : State) (a : Nat) : List Byte → State
  | [] => s
  | b :: bs => ((s.recInit a).dramSet a [b]).dramPut (a + 1) bs

/-! ## Open choices (log 5) -/

/-- One of the listed values, where the spec lets the part take any: a free choice, when there is more than one. -/
def State.choose (s : State) (l : List Nat) : Option (Nat × State) :=
  match l with
  | [] => none
  | [x] => some (x, s)
  | x :: _ => let r := s.fresh 32; some (l.getD (r.1.toNat % l.length) x, r.2)

/-! ## The warden restart (R340, R342) -/

/-- The warden domain after its reset: registers at their reset values; the memories keep their content, the mailbox block and the croak
configuration, which is locked until part reset, stay (R340, R343, log 19). -/
def Warden.restarted (w : Warden) : Warden :=
  { Warden.init with iram := w.iram, sram := w.sram, croakCfg := w.croakCfg, arrived := w.arrived, acked := w.arrived
                     dbsum := w.dbsum, lastTenant := w.lastTenant }

/-- A warden restart with a cause of R370: the vault records it, resets the domain, and releases the warden to boot unless this is the
third restart within 600 s of the first of the three (R340, R342). -/
def State.wardenRestart (s : State) (cause : Nat) : State :=
  let t := s.vtime.toNat / 32768
  let s := s.vaultEvent 0x0A cause
  let win := (s.vault.rwin ++ [t]).filter fun x => t - x ≤ 600
  let failed := win.length ≥ 3
  let s := s.updVault fun v => { v with restarts := v.restarts + 1, rwin := win, firstCroak := true, wfailed := v.wfailed || failed }
  let s := { s with warden := { s.warden.restarted with up := !failed && s.domOn 36 } }
  if failed then s.vaultEvent 0x0B 0 else s

end Sys2Proof.Machine
end

