-- ==== Sys2Proof/Machine/Operands.lean ====
section
/-!
DEFINITION. Operand forms: the addresses of loads and stores and what they reach (R46 to R50, R332, R478, R479), the relay window (R27), the
drive command identifier (R29) and key handles (R62).
-/

namespace Sys2Proof.Machine

/-- The effective address gs + sext(imm16), modulo 2^32 (R46). -/
def effAddr (base : Word) (imm : BitVec 16) : Word := base + imm.signExtend 32

/-- The natural-alignment parts of an access: address and size, lower address first (R50). -/
def parts (a : Word) (size : Nat) : List (Word × Nat) :=
  let r := a.toNat % 4
  if size = 2 then (if r % 2 = 0 then [(a, 2)] else [(a, 1), (a + 1, 1)])
  else if size = 4 then (if r = 0 then [(a, 4)] else [(a, 4 - r), (a + BitVec.ofNat 32 (4 - r), r)])
  else [(a, size)]

/-- Access kinds: 0 load, 1 store, 2 fetch, 3 atomic. -/
abbrev Acc := Nat

/-- What a lane processor's access reaches, or none where it faults (R47 to R49). -/
def State.laneLoc (s : State) (e : Nat) (sup : Bool) (k : Acc) (addr : Word) (size : Nat) : Option Loc :=
  let a := addr.toNat
  if a < 0x8000 then (if sup && k ≠ 3 then some ⟨0, e, a⟩ else none)
  else if k = 2 then none
  else if 0x00100000 ≤ a && a < 0x00120000 then some ⟨1, e, a - 0x00100000⟩
  else if 0x00200000 ≤ a && a < 0x00400000 then some ⟨2, tileOf e, a - 0x00200000⟩
  else if 0x00400000 ≤ a && a < 0x00408000 then (if sup && k ≠ 3 && size = 4 && a % 4 = 0 then some ⟨10, e, a - 0x00400000⟩ else none)
  else if 0x80000000 ≤ a && a < 0xC0000000 then
    let w := (Tbl.get 0 (s.eng e).dwin ((a - 0x80000000) / 0x10000000)).toNat
    if k ≠ 3 && bitOf w 8 && (sup || bitOf w 10) && (k = 0 || bitOf w 9) then some ⟨3, 0, fld w 4 0 * 2 ^ 28 + a % 0x10000000⟩ else none
  else none

/-- The protection region that decides a warden access, if any (R332, R333). -/
def Warden.region (w : Warden) (a : Nat) : Option Region :=
  ((List.range 16).map fun k => Tbl.get Region.init w.regions k).find? fun r =>
    bitOf r.attr.toNat 6 && fld r.base.toNat 31 12 ≤ a / 4096 && a / 4096 ≤ fld r.limit.toNat 31 12

/-- The protection unit allows the access in the mode (R332). -/
def Warden.allows (w : Warden) (sup : Bool) (k : Acc) (a : Nat) : Bool :=
  match w.region a with
  | some r => bitOf r.attr.toNat ((if sup then 0 else 3) + (if k = 2 then 2 else if k = 0 then 0 else 1))
  | none => sup

/-- A register block's window of the warden address map (R478). -/
def isRegBlock (a : Nat) : Bool :=
  a < 0x10000 || (0x100000 ≤ a && a < 0x110000) || (0x200000 ≤ a && a < 0x202000) || (0x300000 ≤ a && a < 0x310000)
  || (0x400000 ≤ a && a < 0x410000) || (0x500000 ≤ a && a < 0x540000) || (0x600000 ≤ a && a < 0x608000)
  || (0x700000 ≤ a && a < 0x702000) || (0x800000 ≤ a && a < 0x900000) || (0x900000 ≤ a && a < 0x901000)
  || (0x910000 ≤ a && a < 0x911000) || (0x920000 ≤ a && a < 0x928000) || (0x01000000 ≤ a && a < 0x01400000)

/-- A drive configuration window: PGn_ offset 0x8000 to 0xBFFF (R296, R479). -/
def isCfgWindow (a : Nat) : Bool := 0x800000 ≤ a && a < 0x900000 && 0x8000 ≤ a % 0x10000 && a % 0x10000 < 0xC000

/-- What a warden access reaches by R478 and R479, before the protection regions. -/
def State.wardenPlace (s : State) (k : Acc) (a size : Nat) : Option Loc :=
  if 0x10000000 ≤ a && a < 0x10008000 then (if k = 1 || k = 3 then none else some ⟨6, 0, a - 0x10000000⟩)
  else if 0x11000000 ≤ a && a < 0x11080000 then (if k = 3 then none else some ⟨4, 0, a - 0x11000000⟩)
  else if k = 2 then none
  else if 0x12000000 ≤ a && a < 0x12200000 then some ⟨5, 0, a - 0x12000000⟩
  else if k = 3 then none
  else if isCfgWindow a then (if (size = 1 || size = 2 || size = 4) && a % size = 0 then some ⟨8, (a - 0x800000) / 0x10000, a % 0x10000 - 0x8000⟩ else none)
  else if isRegBlock a then (if size = 4 && a % 4 = 0 then some ⟨9, 0, a⟩ else none)
  else if 0x02000000 ≤ a && a < 0x02000000 + 1030 * 0x1000 then some ⟨7, (a - 0x02000000) / 0x1000, a % 0x1000⟩
  else if 0x04000000 ≤ a && a < 0x06000000 then
    let e := (a - 0x04000000) / 0x40000
    let o := a % 0x40000
    if o < 0x8000 then some ⟨0, e, o⟩ else if 0x20000 ≤ o then some ⟨1, e, o - 0x20000⟩ else some ⟨11, 0, a⟩
  else if 0x06000000 ≤ a && a < 0x08000000 then some ⟨2, (a - 0x06000000) / 0x200000, a % 0x200000⟩
  else if 0x80000000 ≤ a then
    let w := (Tbl.get 0 s.warden.wdw ((a - 0x80000000) / 0x10000000)).toNat
    if bitOf w 8 && (k = 0 || bitOf w 9) then some ⟨3, 0, fld w 4 0 * 2 ^ 28 + a % 0x10000000⟩ else none
  else none

/-- What a warden access reaches, or none where it faults (R332, R479). -/
def State.wardenLoc (s : State) (sup : Bool) (k : Acc) (addr : Word) (size : Nat) : Option Loc :=
  if k = 3 || s.warden.allows sup k addr.toNat then s.wardenPlace k addr.toNat size else none

/-- What an access of processor `p` in its present mode reaches, or none where it faults. -/
def State.locOf (s : State) (p : Nat) (k : Acc) (addr : Word) (size : Nat) : Option Loc :=
  if p = 128 then s.wardenLoc (s.proc p).sup k addr size else s.laneLoc p (s.proc p).sup k addr size

/-- A location the warden reaches through its register access port (R328, R493). -/
def Loc.viaPort (l : Loc) : Bool := l.space ≤ 2 || (7 ≤ l.space && l.space ≠ 10)

/-! ## The relay window, identifiers and handles -/

/-- KIND of a relay address (R27). -/
def relayKind (a : DWord) : Bool := a.getLsbD 48
def relayEngine (a : DWord) : Nat := fld a.toNat 47 41
def relaySlot (a : DWord) : Nat := fld a.toNat 40 32
def relayOffset (a : DWord) : Nat := fld a.toNat 31 0
def relayTile (a : DWord) : Nat := fld a.toNat 47 44
def relayQOffset (a : DWord) : Nat := fld a.toNat 43 0

/-- RELAY_BASE of a downstream port as the warden has programmed it (R27). -/
def State.relayBase (s : State) (port : Nat) : Nat := Tbl.get 0 (s.group (port / 2)).relay (port % 2)

/-- A relay address of command data under a window prefix (R27). -/
def relayAddr (base e slot off : Nat) : DWord := BitVec.ofNat 64 (base * 2 ^ 49 + e % 128 * 2 ^ 41 + slot % 512 * 2 ^ 32 + off % 2 ^ 32)

/-- A relay address of tile queue memory under a window prefix (R27). -/
def relayQAddr (base t off : Nat) : DWord := BitVec.ofNat 64 (base * 2 ^ 49 + 2 ^ 48 + t % 16 * 2 ^ 44 + off % 2 ^ 44)

/-- The drive command identifier GEN:ENG:SLOT (R29). -/
def driveCid (gen e slot : Nat) : BitVec 16 := BitVec.ofNat 16 (gen % 16 * 2 ^ 12 + e % 8 * 2 ^ 9 + slot % 512)
def cidGen (c : BitVec 16) : Nat := fld c.toNat 15 12
def cidEng (c : BitVec 16) : Nat := fld c.toNat 11 9
def cidSlot (c : BitVec 16) : Nat := fld c.toNat 8 0

/-- Keyslot and generation of a 24-bit key handle (01). -/
def handleSlot (h : BitVec 24) : Nat := h.toNat / 16
def handleGen (h : BitVec 24) : Nat := h.toNat % 16
def mkHandle (slot gen : Nat) : BitVec 24 := BitVec.ofNat 24 (slot * 16 + gen % 16)

/-- Drive index of a port number and link (R302). -/
def driveIndex (port : Nat) (linkB : Bool) : Nat := 2 * port + b2n linkB

end Sys2Proof.Machine
end

