-- ==== Sys2Proof/Machine/Mem.lean ====
section
/-!
DEFINITION. Bytes at the locations of the part's memories (R15, R47, R478), and the instruction words that the part reads (R57).
-/

namespace Sys2Proof.Machine

/-- The byte at a memory location; register spaces and unmapped places read 0 here (R10). -/
def State.locByte (s : State) (l : Loc) : Byte :=
  match l.space with
  | 0 => Memory.rd (s.eng l.unit).iram l.off
  | 1 => Memory.rd (s.eng l.unit).dram l.off
  | 2 => Memory.rd (s.tile l.unit).scratch l.off
  | 3 => s.dramByte l.off
  | 4 => Memory.rd s.warden.iram l.off
  | 5 => Memory.rd s.warden.sram l.off
  | 6 => Config.romByte l.off
  | 7 => Memory.rd (s.page l.unit).area l.off
  | _ => 0

/-- Location `i` bytes on. -/
def Loc.plus (l : Loc) (i : Nat) : Loc := { l with off := l.off + i }

/-- `n` bytes from a location. -/
def State.locBytes (s : State) (l : Loc) (n : Nat) : List Byte := (List.range n).map fun i => s.locByte (l.plus i)

/-- A byte as its processor sees it: the latest of its buffered stores to the byte, else what memory holds (R53). -/
def Proc.overlay (r : Proc) (l : Loc) (b : Byte) : Byte :=
  r.stores.foldl (fun (b : Byte) (st : Store) =>
    if st.loc.space = l.space && st.loc.unit = l.unit && st.loc.off ≤ l.off && l.off < st.loc.off + st.size then
      BitVec.truncate 8 (st.value >>> (8 * (l.off - st.loc.off)))
    else b) b

/-- `n` bytes from a location as processor `p` sees them. -/
def State.ownBytes (s : State) (p : Nat) (l : Loc) (n : Nat) : List Byte :=
  (List.range n).map fun i => (s.proc p).overlay (l.plus i) (s.locByte (l.plus i))

/-- Bytes written from a memory location; a place that holds nothing discards them (R10). -/
def State.locPut (s : State) (l : Loc) (bs : List Byte) : State :=
  match l.space with
  | 0 => s.updEng l.unit fun e => { e with iram := Memory.put e.iram l.off bs }
  | 1 => s.updEng l.unit fun e => { e with dram := Memory.put e.dram l.off bs }
  | 2 => s.updTile l.unit fun t => { t with scratch := Memory.put t.scratch l.off bs }
  | 3 => s.dramPut l.off bs
  | 4 => s.updWarden fun w => { w with iram := Memory.put w.iram l.off bs }
  | 5 => s.updWarden fun w => { w with sram := Memory.put w.sram l.off bs }
  | 7 => s.updPage l.unit fun p => { p with area := Memory.put p.area l.off bs }
  | _ => s

/-- The location of an instruction word of processor `p`, fetched or read by the loop check (R49, R479). -/
def instrLoc (p : Nat) (a : Word) : Loc :=
  if p = 128 then
    (if 0x11000000 ≤ a.toNat && a.toNat < 0x11080000 then ⟨4, 0, a.toNat - 0x11000000⟩ else ⟨6, 0, a.toNat - 0x10000000⟩)
  else ⟨0, p, a.toNat⟩

/-- The instruction word at `a` as the processor reads it: a word that it changed itself and has not refetched gives its old or its new
content, which the spec leaves open (R57, log 5). -/
def State.instrWord (s : State) (p : Nat) (a : Word) : Word × State :=
  let w := BitVec.ofNat 32 (ofLe (s.locBytes (instrLoc p a) 4))
  match Tbl.get none (s.proc p).stale a.toNat with
  | some old =>
    let c := s.fresh 1
    (if c.1 = 1 then old else w, c.2)
  | none => (w, s)

end Sys2Proof.Machine
end

