-- ==== Sys2Proof/Machine/Flags.lean ====
section
/-!
DEFINITION. The condition words: ENGn_EVENT of a lane engine (R88), the service word of a tadpole, and the pending words and summary of
the interrupt controller (R335 to R337).
-/

namespace Sys2Proof.Machine

/-- Offset in tile scratch of drive-error record i of engine `e` (R311). -/
def Tile.deAddr (t : Tile) (e i : Nat) : Nat := fld t.dering.toNat 20 12 * 4096 + 256 * (e % 8) + 16 * i

/-- DRVERR: a record of the engine is unread or held (R88, R311). -/
def drvErr (t : Tile) (n : Nat) (e : Engine) : Bool :=
  !e.deHeld.isEmpty || (List.range 16).any fun i => Memory.rd t.scratch (t.deAddr n i) = 1

/-- ENGn_EVENT (R88). -/
def State.eventWord (s : State) (n : Nat) : Word :=
  let e := s.eng n
  let bits := [!e.cmdq.isEmpty, !e.dcq.isEmpty, e.xferCnt != e.xferAck, (List.range 4).any fun c => (e.ctx c).keyEvt, e.grants.any SpGrant.queued,
    e.proc.hash.queue.isEmpty, e.wdbCnt != e.wdbAck, e.dlHit, e.evPurge, e.evRate, !e.moltq.isEmpty, drvErr (s.tile (tileOf n)) n e]
  BitVec.ofNat 32 ((bits.zipIdx.map fun p => b2n p.1 * 2 ^ p.2).sum)

/-- ENGn_EVENT AND ENGn_EVEN (R95). -/
def State.enabledEvents (s : State) (n : Nat) : Word := s.eventWord n &&& (s.eng n).even.zeroExtend 32

/-- PIO_SRVn of a tadpole (13): FAULT, SREQ, RXNE and TXLOW per context. -/
def Tadpole.srv (t : Tadpole) : Nat :=
  ((List.range 8).map fun c =>
    let x := Tbl.get TCtx.init t.ctxs c
    (b2n (x.st = 3) * 2 ^ 24 + b2n x.sreq * 2 ^ 16 + b2n (!x.rx.isEmpty) * 2 ^ 8 + b2n (x.st = 1 && x.tx.length ≤ 2)) * 2 ^ c).sum

/-- The level of a level source of the interrupt controller (R336). -/
def State.levelSource (s : State) (k : Nat) : Bool :=
  if 10 ≤ k && k ≤ 13 then !(s.port (k - 10)).doe.isEmpty
  else if 14 ≤ k && k ≤ 17 then !(s.quad (k - 14)).admin.isEmpty
  else if k = 22 then !s.flt.events0.isEmpty
  else if k = 23 then !s.flt.events1.isEmpty
  else if k = 24 then !s.vault.events.isEmpty
  else if 64 ≤ k && k ≤ 79 then (enginesOf (k - 64)).any fun e => !(s.eng e).moltPost.isEmpty
  else if 136 ≤ k && k ≤ 143 then
    let t := Tbl.get Tadpole.init s.pio.tads (k - 136)
    s.domOn 37 && (t.srv &&& t.srven.toNat) ≠ 0
  else if 160 ≤ k && k ≤ 167 then (Tbl.get 0 s.warden.arrived (k - 160)) % 256 ≠ (Tbl.get 0 s.warden.acked (k - 160)) % 256
  else false

/-- A source that is of the level or asynchronous type, so that its pending bit is not stored (R335). -/
def isLevelSource (k : Nat) : Bool :=
  (10 ≤ k && k ≤ 17) || (22 ≤ k && k ≤ 24) || (64 ≤ k && k ≤ 79) || (136 ≤ k && k ≤ 143) || (160 ≤ k && k ≤ 167)

/-- The pending bits of word `w` of the interrupt controller (R337). -/
def State.icuPend (s : State) (w : Nat) : Word :=
  BitVec.ofNat 32 ((List.range 32).map fun i =>
    b2n (if isLevelSource (32 * w + i) then s.levelSource (32 * w + i) else s.warden.pend.getLsbD (32 * w + i)) * 2 ^ i).sum

/-- The enable bits of word `w` (R337). -/
def State.icuEn (s : State) (w : Nat) : Word := (s.warden.enable >>> (32 * w)).truncate 32

/-- ICU_SUM (R337). -/
def State.icuSum (s : State) : Word :=
  BitVec.ofNat 32 ((List.range 8).map fun w => b2n ((s.icuPend w &&& s.icuEn w) != 0) * 2 ^ w).sum

/-- The value that stands for the enabled events of a processor: event word of a lane, ICU_SUM of the warden (R95, R334). -/
def State.wakeWord (s : State) (p : Nat) : Word := if p = 128 then s.icuSum else s.enabledEvents p

end Sys2Proof.Machine
end

