-- ==== Sys2Proof/Machine/Sialven.lean ====
section
/-!
DEFINITION. The Sialven core shared by every instruction: issue checks (R55, R69, R83, R100), completion with delay slots,
shadows and hardware loops (R54, R59, R61, R71, R73, R82), and taking an exception or interrupt (R101 to R107).
-/

namespace Sys2Proof.Machine


/-! ## The processor at issue -/

/-- The processor issues instructions: its engine RUNNING and its tile powered, or the warden up; and it is not suspended (R93, R98). -/
def State.running (s : State) (p : Nat) : Bool :=
  if p = 128 then s.warden.up && s.domOn 36 && !s.warden.proc.waiting
  else (s.eng p).run = 0 && s.tileOn (tileOf p) && !(s.eng p).proc.waiting

/-- A fetch from the address is allowed (R49, R332, R479). -/
def State.fetchOk (s : State) (p : Nat) (pc : Word) : Bool :=
  if p = 128 then (s.wardenLoc (s.proc p).sup 2 pc 4).isSome else pc.toNat < 0x8000

/-- The address that an abandoned instruction runs again from: its branch when it stands in a delay slot (R94, R105). -/
def Proc.resume (r : Proc) : Word := match r.delay with | some d => d.branch | none => r.pc

/-! ## Taking an exception (R101 to R107) -/

/-- ESTAT as entry writes it: DS is set when the delay slot raised it or was abandoned, and PM is written only with MP (R101, R102, R105, R106). -/
def Proc.entryStat (r : Proc) : Word :=
  let pend : Option (BitVec 2 × BitVec 2) := match r.delay with
    | some d => (match d.shadowOf with | some p => some p | none => none)
    | none => (match r.shadow with | some m => some (r.mode, m) | none => none)
  let old := match pend with | some p => p.1 | none => r.mode
  BitVec.ofNat 32 (0x80 + b2n r.delay.isSome * 4 + old.toNat + (match pend with | some p => 8 + p.2.toNat * 16 | none => fld r.estat.toNat 5 4 * 16))

/-- The processor after entry: saved state written, supervisor mode with IE = 0, the next instruction at EVEC (R101). -/
def Proc.entered (r : Proc) (cause eval : Word) : Proc :=
  { r with estat := r.entryStat, epc := r.resume, ecause := cause, eval := eval, mode := 2#2, pc := r.evec
           delay := none, shadow := none, waiting := false }

/-- ESTAT.EXL (R102). -/
def Proc.exl (r : Proc) : Bool := r.estat.getLsbD 7

/-- An engine halts with a cause, saving where it goes on (R93, R94). -/
def Engine.halted (e : Engine) (cause : Nat) : Engine :=
  { e with run := 2, hcause := cause, haltpc := e.proc.resume, proc := { e.proc with delay := none, shadow := none, waiting := false, pc := e.proc.resume } }

/-- An exception or an accepted interrupt is taken; with EXL set it is not: a lane engine halts with DOUBLE_FAULT and raises an engine
fault, and the warden restarts (R101, R103, R330). -/
def State.takeException (s : State) (p : Nat) (cause eval : Word) : State :=
  let r := s.proc p
  if r.exl then
    if p = 128 then s.wardenRestart 3
    else (s.updEng p fun e => e.halted 2).faultEvent (dieOfTile (tileOf p)) 0x01 p r.epc
  else s.setProc p (r.entered cause eval)

/-! ## Completion -/

/-- The loop action on the completion of the instruction at `a`: the loop registers, and where execution goes on (R59). -/
def Proc.loopStep (r : Proc) (a next : Word) : Proc × Word :=
  if r.lstat.getLsbD 1 && a = r.lend1 then
    if 1 < r.lcount1.toNat then ({ r with lcount1 := r.lcount1 - 1 }, r.lstart1)
    else ({ r with lcount1 := 0, lstat := r.lstat &&& 1#2 }, r.lend1 + 4)
  else if r.lstat.getLsbD 0 && a = r.lend0 then
    if 1 < r.lcount0.toNat then ({ r with lcount0 := r.lcount0 - 1 }, r.lstart0)
    else ({ r with lcount0 := 0, lstat := r.lstat &&& 2#2 }, r.lend0 + 4)
  else (r, next)

/-- A taken branch to `t` deactivates every active level whose body does not hold the target (R61). -/
def Proc.leaveLoops (r : Proc) (t : Word) : Proc :=
  let out1 := r.lstat.getLsbD 1 && (t.toNat < r.lstart1.toNat || r.lend1.toNat < t.toNat)
  let out0 := r.lstat.getLsbD 0 && (t.toNat < r.lstart0.toNat || r.lend0.toNat < t.toNat)
  { r with lstat := r.lstat &&& (if out1 then 1#2 else 3#2) &&& (if out0 then 2#2 else 3#2) }

/-- The end of a SETMODE shadow: the requested mode takes effect (R71). -/
def Proc.endShadow (r : Proc) : Proc :=
  match r.shadow with
  | some m => { r with mode := m, shadow := none }
  | none => r

/-- The instruction at PC, which is no branch, completes with default next address `next`: a delay slot ends its branch, a shadow puts its
mode in force, the loops act, and INSTRET counts (R54, R59, R61, R71, R73, R82). Which write of the link register stands where the slot writes it
too, and what a loop does on a slot whose branch is taken, is the model's choice (logs 76 and 77). -/
def Proc.retireTo (r : Proc) (next : Word) : Proc :=
  match r.delay with
  | some d =>
    let r := match d.link with | some g => r.setReg g (d.branch + 8) | none => r
    let r := { r with delay := none, instret := r.instret + 2 }
    if d.taken then { r.leaveLoops d.target with pc := d.target &&& ~~~3#32 }
    else
      let q := r.loopStep r.pc (d.branch + 8)
      { q.1 with pc := q.2 &&& ~~~3#32 }
  | none =>
    let r := { r.endShadow with instret := r.instret + 1 }
    let q := r.loopStep r.pc next
    { q.1 with pc := q.2 &&& ~~~3#32 }

/-- The instruction at PC completes and execution goes on in order. -/
def Proc.retire (r : Proc) : Proc := r.retireTo (r.pc + 4)

/-- A branch or jump issues: its delay slot is next, and a SETMODE shadow that it ends takes effect for the slot (R54, R71, R82). -/
def Proc.branchTo (r : Proc) (taken : Bool) (target : Word) (link : Option Nat) : Proc :=
  { r with delay := some { branch := r.pc, target := target, taken := taken, link := link
                           shadowOf := r.shadow.map fun m => (r.mode, m) }
           mode := r.shadow.getD r.mode, shadow := none, pc := r.pc + 4 }

/-! ## Issue -/

/-- What issue checks before the instruction's own meaning. -/
structure IssueReq where
  /-- the instruction word, for EVAL (R99) -/
  word : Word
  /-- registers it reads or writes, for the scoreboard (R83) -/
  uses : List Nat
  /-- illegal in a delay slot (R55) -/
  noSlot : Bool := false
  /-- supervisor only (R69) -/
  priv : Bool := false
  /-- absent on the warden (R37) -/
  laneOnly : Bool := false
  /-- illegal by its own fields (R40) -/
  illegal : Bool := false

/-- Issue of an instruction by processor `p`: nothing happens while the processor does not run; the first exception of R100 is taken; a busy
register holds the instruction, which has then changed nothing (R83); otherwise its meaning runs. -/
def State.issue (s : State) (p : Nat) (q : IssueReq) (body : State → State) : Res :=
  .next (
    let r := s.proc p
    if !s.running p then s
    else if !s.fetchOk p r.pc then s.takeException p 0x03 r.pc
    else if q.illegal || (q.laneOnly && p = 128) || (q.noSlot && r.delay.isSome) then s.takeException p 0x01 q.word
    else if q.priv && !r.sup then s.takeException p 0x02 q.word
    else if q.uses.any r.isBusy then s
    else body s)

/-- An instruction that writes gd at once from the registers and goes on. -/
def State.writeReg (s : State) (p gd : Nat) (v : Word) : State := s.updProc p fun r => (r.setReg gd v).retire

/-- A register-to-register instruction: the value of the two sources goes to gd. -/
def State.aluOp (s : State) (p : Nat) (word : Word) (gd gs gt : Nat) (f : Word → Word → Word) : Res :=
  s.issue p { word := word, uses := [gd, gs, gt] } fun s => s.writeReg p gd (f ((s.proc p).reg gs) ((s.proc p).reg gt))

/-- A register-and-immediate instruction. -/
def State.immOp (s : State) (p : Nat) (word : Word) (gd gs : Nat) (f : Word → Word) : Res :=
  s.issue p { word := word, uses := [gd, gs] } fun s => s.writeReg p gd (f ((s.proc p).reg gs))

/-- A branch on a comparison of two registers (R54). -/
def State.branchOp (s : State) (p : Nat) (op ga gb : Nat) (off : BitVec 16) (f : Word → Word → Bool) : Res :=
  s.issue p { word := encImm op ga gb off, uses := [ga, gb], noSlot := true } fun s =>
    s.updProc p fun r => r.branchTo (f (r.reg ga) (r.reg gb)) (r.pc + 4 * off.signExtend 32) none

end Sys2Proof.Machine
end

