-- ==== Sys2Proof/Machine/Alu.lean ====
section
/-!
DEFINITION. Sialven integer, M and B operations (R41 to R45).
-/

namespace Sys2Proof.Machine

/-- −1, 0 or +1 by signed comparison (R41, R43). -/
def cmpSigned (a b : Word) : Word := if a.toInt < b.toInt then 0xFFFFFFFF else if a = b then 0 else 1
/-- −1, 0 or +1 by unsigned comparison. -/
def cmpUnsigned (a b : Word) : Word := if a.toNat < b.toNat then 0xFFFFFFFF else if a = b then 0 else 1
/-- A shift or rotate amount gt[4:0] (R42). -/
def shamt (b : Word) : Nat := b.toNat % 32
/-- DIV: rounded toward zero, saturating toward the sign of the true quotient (R44). -/
def divSigned (a b : Word) : Word :=
  if b = 0 then (if a.toInt < 0 then 0x80000000 else 0x7FFFFFFF)
  else if a = 0x80000000 && b = 0xFFFFFFFF then 0x7FFFFFFF else BitVec.ofInt 32 (a.toInt.tdiv b.toInt)
/-- DIVU (R44). -/
def divUnsigned (a b : Word) : Word := if b = 0 then 0xFFFFFFFF else BitVec.ofNat 32 (a.toNat / b.toNat)
/-- MOD: the remainder of DIV, with the sign of gs (R44). -/
def modSigned (a b : Word) : Word := if b = 0 then a else BitVec.ofInt 32 (a.toInt.tmod b.toInt)
/-- MODU (R44). -/
def modUnsigned (a b : Word) : Word := if b = 0 then a else BitVec.ofNat 32 (a.toNat % b.toNat)
/-- Leading zeros; 32 of zero (R43). -/
def leadZeros (a : Word) : Word := BitVec.ofNat 32 (((List.range 32).reverse.takeWhile fun i => !a.getLsbD i).length)
/-- Trailing zeros; 32 of zero (R43). -/
def trailZeros (a : Word) : Word := BitVec.ofNat 32 (((List.range 32).takeWhile fun i => !a.getLsbD i).length)
/-- Number of 1 bits (R43). -/
def popCount (a : Word) : Word := BitVec.ofNat 32 (((List.range 32).filter fun i => a.getLsbD i).length)
/-- The four bytes reversed (R43). -/
def byteSwap (a : Word) : Word := BitVec.ofNat 32 (ofBe (leBytes 4 a.toNat))
/-- CRC-32C fed the low 1, 2 or 4 bytes of gt, lowest first (R45). -/
def crcStep (a b : Word) (size : Nat) : Word := crcFeed a (leBytes (2 ^ size) b.toNat)
/-- Bit-field extract (R45). -/
def bfExtract (a : Word) (pos width : Nat) : Word := (a >>> pos) &&& BitVec.ofNat 32 (2 ^ width - 1)
/-- Bit-field insert into d (R45). -/
def bfInsert (d a : Word) (pos width : Nat) : Word :=
  let m : Word := BitVec.ofNat 32 ((2 ^ width - 1) * 2 ^ pos)
  (d &&& ~~~m) ||| ((a <<< pos) &&& m)

/-- ADDI (R41). -/
def execAddi (p : Pid) (gd gs : Reg) (imm : Imm) (s : State) : Res :=
  s.immOp p (encImm 0x01 gd gs imm) gd gs fun a => a + imm.signExtend 32

/-- ANDI (R41). -/
def execAndi (p : Pid) (gd gs : Reg) (imm : Imm) (s : State) : Res :=
  s.immOp p (encImm 0x02 gd gs imm) gd gs fun a => a &&& imm.zeroExtend 32

/-- ORI (R41). -/
def execOri (p : Pid) (gd gs : Reg) (imm : Imm) (s : State) : Res :=
  s.immOp p (encImm 0x03 gd gs imm) gd gs fun a => a ||| imm.zeroExtend 32

/-- XORI (R41). -/
def execXori (p : Pid) (gd gs : Reg) (imm : Imm) (s : State) : Res :=
  s.immOp p (encImm 0x04 gd gs imm) gd gs fun a => a ^^^ imm.zeroExtend 32

/-- ORHI (R41). -/
def execOrhi (p : Pid) (gd gs : Reg) (imm : Imm) (s : State) : Res :=
  s.immOp p (encImm 0x05 gd gs imm) gd gs fun a => a ||| (imm.zeroExtend 32 <<< 16)

/-- ADDHI (R41). -/
def execAddhi (p : Pid) (gd gs : Reg) (imm : Imm) (s : State) : Res :=
  s.immOp p (encImm 0x06 gd gs imm) gd gs fun a => a + (imm.zeroExtend 32 <<< 16)

/-- CMPI (R41). -/
def execCmpi (p : Pid) (gd gs : Reg) (imm : Imm) (s : State) : Res :=
  s.immOp p (encImm 0x07 gd gs imm) gd gs fun a => cmpSigned a (imm.signExtend 32)

/-- CMPUI (R41). -/
def execCmpui (p : Pid) (gd gs : Reg) (imm : Imm) (s : State) : Res :=
  s.immOp p (encImm 0x0F gd gs imm) gd gs fun a => cmpUnsigned a (imm.zeroExtend 32)

/-- ADRW (R41). -/
def execAdrw (p : Pid) (gd : Reg) (imm : Imm) (s : State) : Res :=
  s.issue p { word := encImm 0x08 gd 0 imm, uses := [gd] } fun s => s.writeReg p gd ((s.proc p).pc + 4 * imm.signExtend 32)

/-- ADD (R43). -/
def execAdd (p : Pid) (gd gs gt : Reg) (s : State) : Res :=
  s.aluOp p (encReg 0x00 gd gs gt 0x001) gd gs gt fun a b => a + b

/-- SUB (R43). -/
def execSub (p : Pid) (gd gs gt : Reg) (s : State) : Res :=
  s.aluOp p (encReg 0x00 gd gs gt 0x002) gd gs gt fun a b => a - b

/-- AND (R43). -/
def execAnd (p : Pid) (gd gs gt : Reg) (s : State) : Res :=
  s.aluOp p (encReg 0x00 gd gs gt 0x003) gd gs gt fun a b => a &&& b

/-- OR (R43). -/
def execOr (p : Pid) (gd gs gt : Reg) (s : State) : Res :=
  s.aluOp p (encReg 0x00 gd gs gt 0x004) gd gs gt fun a b => a ||| b

/-- XOR (R43). -/
def execXor (p : Pid) (gd gs gt : Reg) (s : State) : Res :=
  s.aluOp p (encReg 0x00 gd gs gt 0x005) gd gs gt fun a b => a ^^^ b

/-- SLL (R43). -/
def execSll (p : Pid) (gd gs gt : Reg) (s : State) : Res :=
  s.aluOp p (encReg 0x00 gd gs gt 0x006) gd gs gt fun a b => a <<< shamt b

/-- SRL (R43). -/
def execSrl (p : Pid) (gd gs gt : Reg) (s : State) : Res :=
  s.aluOp p (encReg 0x00 gd gs gt 0x007) gd gs gt fun a b => a >>> shamt b

/-- SRA (R43). -/
def execSra (p : Pid) (gd gs gt : Reg) (s : State) : Res :=
  s.aluOp p (encReg 0x00 gd gs gt 0x008) gd gs gt fun a b => a.sshiftRight (shamt b)

/-- CMP (R43). -/
def execCmp (p : Pid) (gd gs gt : Reg) (s : State) : Res :=
  s.aluOp p (encReg 0x00 gd gs gt 0x009) gd gs gt fun a b => cmpSigned a b

/-- CMPU (R43). -/
def execCmpu (p : Pid) (gd gs gt : Reg) (s : State) : Res :=
  s.aluOp p (encReg 0x00 gd gs gt 0x00A) gd gs gt fun a b => cmpUnsigned a b

/-- MUL (R43). -/
def execMul (p : Pid) (gd gs gt : Reg) (s : State) : Res :=
  s.aluOp p (encReg 0x09 gd gs gt 0x000) gd gs gt fun a b => a * b

/-- MULHS (R43). -/
def execMulhs (p : Pid) (gd gs gt : Reg) (s : State) : Res :=
  s.aluOp p (encReg 0x09 gd gs gt 0x001) gd gs gt fun a b => BitVec.ofInt 32 (a.toInt * b.toInt / 2 ^ 32)

/-- MULHU (R43). -/
def execMulhu (p : Pid) (gd gs gt : Reg) (s : State) : Res :=
  s.aluOp p (encReg 0x09 gd gs gt 0x002) gd gs gt fun a b => BitVec.ofNat 32 (a.toNat * b.toNat / 2 ^ 32)

/-- DIV (R44). -/
def execDiv (p : Pid) (gd gs gt : Reg) (s : State) : Res :=
  s.aluOp p (encReg 0x09 gd gs gt 0x004) gd gs gt fun a b => divSigned a b

/-- DIVU (R44). -/
def execDivu (p : Pid) (gd gs gt : Reg) (s : State) : Res :=
  s.aluOp p (encReg 0x09 gd gs gt 0x005) gd gs gt fun a b => divUnsigned a b

/-- MOD (R44). -/
def execMod (p : Pid) (gd gs gt : Reg) (s : State) : Res :=
  s.aluOp p (encReg 0x09 gd gs gt 0x006) gd gs gt fun a b => modSigned a b

/-- MODU (R44). -/
def execModu (p : Pid) (gd gs gt : Reg) (s : State) : Res :=
  s.aluOp p (encReg 0x09 gd gs gt 0x007) gd gs gt fun a b => modUnsigned a b

/-- ROTL (R43). -/
def execRotl (p : Pid) (gd gs gt : Reg) (s : State) : Res :=
  s.aluOp p (encReg 0x0A gd gs gt 0x004) gd gs gt fun a b => a.rotateLeft (shamt b)

/-- ROTR (R43). -/
def execRotr (p : Pid) (gd gs gt : Reg) (s : State) : Res :=
  s.aluOp p (encReg 0x0A gd gs gt 0x005) gd gs gt fun a b => a.rotateRight (shamt b)

/-- ANDN (R43). -/
def execAndn (p : Pid) (gd gs gt : Reg) (s : State) : Res :=
  s.aluOp p (encReg 0x0A gd gs gt 0x006) gd gs gt fun a b => a &&& ~~~b

/-- MIN (R43). -/
def execMin (p : Pid) (gd gs gt : Reg) (s : State) : Res :=
  s.aluOp p (encReg 0x0A gd gs gt 0x007) gd gs gt fun a b => if a.toInt ≤ b.toInt then a else b

/-- MAX (R43). -/
def execMax (p : Pid) (gd gs gt : Reg) (s : State) : Res :=
  s.aluOp p (encReg 0x0A gd gs gt 0x008) gd gs gt fun a b => if a.toInt ≤ b.toInt then b else a

/-- MINU (R43). -/
def execMinu (p : Pid) (gd gs gt : Reg) (s : State) : Res :=
  s.aluOp p (encReg 0x0A gd gs gt 0x009) gd gs gt fun a b => if a.toNat ≤ b.toNat then a else b

/-- MAXU (R43). -/
def execMaxu (p : Pid) (gd gs gt : Reg) (s : State) : Res :=
  s.aluOp p (encReg 0x0A gd gs gt 0x00A) gd gs gt fun a b => if a.toNat ≤ b.toNat then b else a

/-- MACC (R43). -/
def execMacc (p : Pid) (gd gs gt : Reg) (s : State) : Res :=
  s.issue p { word := encReg 0x09 gd gs gt 0x003, uses := [gd, gs, gt] } fun s =>
    s.writeReg p gd ((s.proc p).reg gd + (s.proc p).reg gs * (s.proc p).reg gt)

/-- SLLI (R43). -/
def execSlli (p : Pid) (gd gs : Reg) (sh : U5) (s : State) : Res :=
  s.immOp p (encReg 0x00 gd gs sh.toNat 0x010) gd gs fun a => a <<< sh.toNat

/-- SRLI (R43). -/
def execSrli (p : Pid) (gd gs : Reg) (sh : U5) (s : State) : Res :=
  s.immOp p (encReg 0x00 gd gs sh.toNat 0x011) gd gs fun a => a >>> sh.toNat

/-- SRAI (R43). -/
def execSrai (p : Pid) (gd gs : Reg) (sh : U5) (s : State) : Res :=
  s.immOp p (encReg 0x00 gd gs sh.toNat 0x012) gd gs fun a => a.sshiftRight sh.toNat

/-- CLZ (R43). -/
def execClz (p : Pid) (gd gs : Reg) (s : State) : Res :=
  s.immOp p (encReg 0x0A gd gs 0 0x000) gd gs fun a => leadZeros a

/-- CTZ (R43). -/
def execCtz (p : Pid) (gd gs : Reg) (s : State) : Res :=
  s.immOp p (encReg 0x0A gd gs 0 0x001) gd gs fun a => trailZeros a

/-- POPC (R43). -/
def execPopc (p : Pid) (gd gs : Reg) (s : State) : Res :=
  s.immOp p (encReg 0x0A gd gs 0 0x002) gd gs fun a => popCount a

/-- BSWAP (R43). -/
def execBswap (p : Pid) (gd gs : Reg) (s : State) : Res :=
  s.immOp p (encReg 0x0A gd gs 0 0x003) gd gs fun a => byteSwap a

/-- CRC32C (R45). -/
def execCrc32c (p : Pid) (gd gs gt : Reg) (size : Fin 3) (s : State) : Res :=
  s.aluOp p (encReg 0x0A gd gs gt (size * 64 + 11)) gd gs gt fun a b => crcStep a b size

/-- BFX (R45). -/
def execBfx (p : Pid) (gd gs : Reg) (pos wm1 : U5) (s : State) : Res :=
  s.issue p { word := encReg 0x0A gd gs pos.toNat (wm1.toNat * 64 + 12), uses := [gd, gs], illegal := 32 < pos.toNat + wm1.toNat + 1 } fun s =>
    s.writeReg p gd (bfExtract ((s.proc p).reg gs) pos.toNat (wm1.toNat + 1))

/-- BFI (R45). -/
def execBfi (p : Pid) (gd gs : Reg) (pos wm1 : U5) (s : State) : Res :=
  s.issue p { word := encReg 0x0A gd gs pos.toNat (wm1.toNat * 64 + 13), uses := [gd, gs], illegal := 32 < pos.toNat + wm1.toNat + 1 } fun s =>
    s.writeReg p gd (bfInsert ((s.proc p).reg gd) ((s.proc p).reg gs) pos.toNat (wm1.toNat + 1))

end Sys2Proof.Machine
end

