-- ==== Sys2Proof/Machine/Xfer.lean ====
section
/-!
DEFINITION. Transfers of the data mover and what the cipher unit does to their data: cipher passes (R121 to R126), usage reports (R162),
the end of a transfer with its completion entry (R135 to R137), and the disabling of a unit (R114, R141).
-/

namespace Sys2Proof.Machine

/-! ## The port of a controller -/

/-- Upstream port of a controller (R208). -/
def portOf (f : Nat) : Nat := f / 256
/-- Link A of slot `k` of a group (R299). -/
def Group.link (g : Group) (k : Nat) (b : Bool) : Link := Tbl.get Link.init g.links (2 * k + b2n b)
def Group.setLink (g : Group) (k : Nat) (b : Bool) (l : Link) : Group := { g with links := Tbl.set Link.init g.links (2 * k + b2n b) l }
/-- Link state of UPu (R299); DISABLED when no port carries it. -/
def State.upLink (s : State) (u : Nat) : Nat := match s.upSlot u with | some (g, k) => ((s.group g).link k false).st | none => 0
/-- The link of UPu is in L0 (R285). -/
def State.upL0 (s : State) (u : Nat) : Bool := s.upLink u = 3
/-- A controller may issue its own requests: its IDE stream, if it requires one, is Secure (R283). -/
def State.ideOk (s : State) (f : Nat) : Bool :=
  match (s.ctl f).ideReq with | some k => Tbl.get 0 (s.port (portOf f)).ide k = 1 | none => true
/-- A write of the controller to host memory can be issued now (R283, R285, R288). -/
def State.canSend (s : State) (f : Nat) : Bool := !(s.ctl f).d3 && s.upL0 (portOf f) && s.ideOk f

/-! ## Writes to host memory (R277, R283, R285) -/

/-- The engine and slot whose transfer a write belongs to. -/
def HostWr.of (w : HostWr) (e k : Nat) : Bool := match w with | .data e' k' _ _ _ => e' = e && k' = k | .admin .. => false
/-- What leaves the port when a write of controller `f` is issued. -/
def HostWr.out (f : Nat) : HostWr → Out
  | .data _ k o b ro => .hostWrite f k o b ro
  | .admin cid p1 p2 b => .adminData f cid p1 p2 b
/-- Relaxed Ordering is set on host data when the function enables it (R277). -/
def Ctl.ro (c : Ctl) : Bool := c.devctl.getLsbD 4

/-- A write of controller `f` to host memory is issued, or waits in the port engine while the controller may not send (R283, R285). -/
def State.hostSend (s : State) (f : Nat) (w : HostWr) : State :=
  if s.canSend f then s.emit (w.out f) else s.updCtl f fun c => { c with hostq := c.hostq ++ [w] }

/-- Bytes of a transfer go to host memory. -/
def State.hostData (s : State) (f e k o : Nat) (b : List Byte) : State := s.hostSend f (.data e k o b (s.ctl f).ro)

/-! ## Byte ranges -/

/-- The range [lo, hi) added to ascending disjoint ranges. -/
def rangeAdd (lo hi : Nat) : List (Nat × Nat) → List (Nat × Nat)
  | [] => [(lo, hi)]
  | (a, b) :: t =>
    if hi < a then (lo, hi) :: (a, b) :: t
    else if b < lo then (a, b) :: rangeAdd lo hi t
    else rangeAdd (min lo a) (max hi b) t

/-- The range [lo, hi) lies in the ranges. -/
def rangeHas (rs : List (Nat × Nat)) (lo hi : Nat) : Bool := rs.any fun r => r.1 ≤ lo && hi ≤ r.2
/-- The range [lo, hi) meets one of the ranges. -/
def rangeHits (rs : List (Nat × Nat)) (lo hi : Nat) : Bool := rs.any fun r => r.1 < hi && lo < r.2

/-! ## Cipher passes (R120 to R126) -/

/-- The key material as the byte string of R121 and R123. -/
def keyBytes (k : BitVec 512) : List Byte := leBytes 64 k.toNat
/-- Bytes of a data unit (R120). -/
def duBytes (du : Nat) : Nat := if du = 0 then 512 else 4096
/-- GCM_SECTOR mode (R120). -/
def Latched.gcm (l : Latched) : Bool := l.mode = 2
/-- The LBA of data unit `u` (R125). -/
def Latched.lba (l : Latched) (u : Nat) : Nat := (l.tweak.toNat + u) % 2 ^ 64
/-- The GCM initialization vector of data unit `u` (R125). -/
def Latched.iv (l : Latched) (u ver : Nat) : List Byte := beBytes 8 (l.lba u) ++ beBytes 4 ver
/-- STAMP: format 0x01 and the key handle (R124). -/
def Latched.stamp (l : Latched) : Nat := 0x01000000 + l.handle.toNat

/-- Block `j` of data unit `u` encrypted (R121, R125). -/
def Latched.encBlock (l : Latched) (u j : Nat) (b : List Byte) : List Byte :=
  if l.gcm then gcmPass ((keyBytes l.key).take 32) (l.iv u l.version.toNat) j b
  else xtsBlock true (keyBytes l.key) (l.tweak + BitVec.ofNat 128 u) j b

/-- Block `j` of data unit `u` decrypted; `ver` is the VERSION of the LBA's record (R121, R125). -/
def Latched.decBlock (l : Latched) (u ver j : Nat) (b : List Byte) : List Byte :=
  if l.gcm then gcmPass ((keyBytes l.key).take 32) (l.iv u ver) j b
  else xtsBlock false (keyBytes l.key) (l.tweak + BitVec.ofNat 128 u) j b

/-- The tag of an LBA's ciphertext under the VERSION and AAD of its record (R125). -/
def Latched.lbaTag (l : Latched) (u ver : Nat) (aad c : List Byte) : List Byte :=
  gcmTag ((keyBytes l.key).take 32) (l.iv u ver) aad c

/-- Bytes 16 to 31 of the record that an encrypt pass writes: VERSION, STAMP, zeros (R124). -/
def Latched.aad (l : Latched) : List Byte := leBytes 4 l.version.toNat ++ leBytes 4 l.stamp ++ List.replicate 8 0

/-- A record field: VERSION and STAMP of a metadata record (R124). -/
def recVersion (r : List Byte) : Nat := leAt r 16 4
def recStamp (r : List Byte) : Nat := leAt r 20 4

/-- Whole blocks of a byte string in order, with the index of each in the transfer, `first` being the first. -/
def blocksFrom (first : Nat) (bs : List Byte) : List (Nat × List Byte) :=
  (chunks 16 (bs.length / 16 + 1) bs).zipIdx.map fun p => (first + p.2, p.1)

/-- Some encrypted block equals its input (R115). -/
def passesThrough (pt ct : List Byte) : Bool :=
  ((blocksFrom 0 pt).zip (blocksFrom 0 ct)).any fun p => p.1.2 = p.2.2

/-! ## A transfer's shape -/

/-- Bytes of a data unit of the transfer; 16 where no context is used. -/
def Xfer.unit (x : Xfer) : Nat := match x.c1 with | some l => duBytes l.du | none => 16
/-- LBAs of the transfer. -/
def Xfer.lbaCount (x : Xfer) : Nat := x.len / x.unit
/-- The context on the drive's side is in GCM-sector mode. -/
def Xfer.gcm (x : Xfer) : Bool := match x.c1 with | some l => l.gcm | none => false
/-- Bytes of a metadata record (R132). -/
def Xfer.stride (x : Xfer) : Nat := 32 * 2 ^ x.msize
def Xfer.lba (x : Xfer) (u : Nat) : LbaAcc := Tbl.get LbaAcc.init x.lbas u
def Xfer.setLba (x : Xfer) (u : Nat) (a : LbaAcc) : Xfer := { x with lbas := Tbl.set LbaAcc.init x.lbas u a }
/-- The transfer uses a key whose tags match. -/
def Xfer.uses (x : Xfer) (m : KeyTag → Bool) : Bool := [x.c1, x.c2].any fun c => match c with | some l => m l.tag | none => false
/-- A transfer references context `c` until its slot is released (R134). -/
def Xfer.refs (x : Xfer) (c : Nat) : Bool := [x.c1, x.c2].any fun l => match l with | some l => l.ctx = c | none => false

/-- Every byte has been supplied and every tag checked (R136). -/
def Xfer.complete (x : Xfer) : Bool :=
  rangeHas x.done 0 x.len && (!(x.gcm && x.dir ≤ 1) || (List.range x.lbaCount).all fun u => (x.lba u).verdict ≠ 0)

/-- Outcome and first failing LBA of a transfer that ends at MOVED (R137). -/
def Xfer.verdict (x : Xfer) : Nat × Nat :=
  match (List.range x.lbaCount).find? fun u => (x.lba u).verdict > 1 with
  | some u => ((x.lba u).verdict, u)
  | none => (if x.changed then 0x37 else 0, 0)

/-- The context is referenced by an unreleased transfer of the engine (R116, R134). -/
def Engine.refs (e : Engine) (c : Nat) : Bool := e.slots.any fun p => match p.2.xfer with | some x => x.refs c | none => false

def State.xferOf (s : State) (e slot : Nat) : Option Xfer := ((s.eng e).slot slot).xfer
def State.putXfer (s : State) (e slot : Nat) (x : Option Xfer) : State :=
  s.updEng e fun g => g.setSlot slot { g.slot slot with xfer := x }

/-! ## Usage (R162) -/

/-- The tile's entry that holds a keyslot, VALID or FILLING (R154). -/
def Tile.find (t : Tile) (slot : Nat) : Option Nat :=
  (t.cache.find? fun p => p.2.st ≠ 0 && p.2.tag.slot = slot).map Prod.fst

/-- An item enters the write-back buffer, which must have room. -/
def Tile.wbPush (t : Tile) (tag : KeyTag) (n : Nat) (flush : Bool) : Tile := { t with wb := t.wb ++ [{ tag := tag, count := n, flush := flush }] }

/-- Block slots used under a key are added to the tile; the answer is the count that must wait for buffer space. -/
def Tile.addUse (t : Tile) (tag : KeyTag) (n : Nat) : Tile × Nat :=
  let room := t.wb.length < 32
  match (t.cache.find? fun p => p.2.st = 2 && p.2.tag.slot = tag.slot && p.2.tag.gen = tag.gen).map Prod.fst with
  | some i =>
    let c := t.entry i
    let d := c.delta + n
    if d < 2 ^ 24 then (t.setEntry i { c with delta := d }, 0)
    else if room then ((t.setEntry i { c with delta := 0 }).wbPush c.tag d false, 0)
    else (t.setEntry i { c with delta := 0 }, d)
  | none => if room then (t.wbPush tag n false, 0) else (t, n)

/-- A context reports block slots used under its key; a count that finds the buffer full waits in its report register (R162). -/
def State.reportUse (s : State) (e : Nat) (l : Option Latched) (n : Nat) : State :=
  match l with
  | none => s
  | some l =>
    if n = 0 then s
    else
      let k := (s.eng e).ctx l.ctx
      match k.heldUse with
      | some h => s.updEng e fun g => g.setCtx l.ctx { k with heldUse := some (h.1, h.2 + n) }
      | none =>
        let r := (s.tile (tileOf e)).addUse l.tag n
        (s.setTile (tileOf e) r.1).updEng e fun g => g.setCtx l.ctx { k with heldUse := if r.2 = 0 then none else some (l.tag, r.2) }

/-! ## The end of a transfer (R135 to R137) -/

/-- A completion entry enters ENGn_DMDONE and ENGn_XFERCNT rises by one (R135, R136). -/
def State.postDone (s : State) (e slot outcome lba : Nat) : State :=
  s.updEng e fun g =>
    { g with dmDone := g.dmDone ++ [BitVec.ofNat 32 (2 ^ 31 + lba % 1024 * 2 ^ 21 + slot * 2 ^ 12 + outcome)], xferCnt := g.xferCnt + 1 }

/-- The host offsets of GCM-sector LBAs that are partly written, and are zero-filled (R127, R137). -/
def Xfer.zeroFills (x : Xfer) : List Nat :=
  if x.gcm && x.dir = 1 then
    (x.lbas.filter fun p => p.2.verdict = 0 && p.2.record.isSome && !p.2.blocks.isEmpty).map fun p => p.1 * x.unit
  else []

/-- An active transfer ends early with an outcome of R137: held drive reads are answered Completer Abort, partly written LBAs are zero-filled
(but for RELEASED), its use is reported and its entry queued. A MOVED transfer gets no second entry, and serves no more. -/
def State.endXfer (s : State) (e slot outcome : Nat) : State :=
  match s.xferOf e slot with
  | none => s
  | some x =>
    if x.phase = 2 then s
    else
      let s := if outcome = 0x33 || x.phase = 1 then s else x.zeroFills.foldl (fun s o => s.hostData x.func e slot o (List.replicate x.unit 0)) s
      let s := x.held.foldl (fun s h => s.emit (.driveRefuse h.drive 2)) s
      let s := (s.reportUse e x.c1 x.used).reportUse e x.c2 x.used2
      let s := s.putXfer e slot (some { x with phase := 2, held := [], used := 0, used2 := 0, outcome := if x.phase = 0 then outcome else x.outcome })
      if x.phase = 0 then s.postDone e slot outcome 0 else s

/-- A transfer that has supplied every byte, and whose host writes have all been issued, becomes MOVED and queues its entry with its outcome
(R136). -/
def State.tryMoved (s : State) (e slot : Nat) : State :=
  match s.xferOf e slot with
  | none => s
  | some x =>
    if x.phase = 0 && x.complete && !((s.ctl x.func).hostq.any fun w => w.of e slot) then
      let v := x.verdict
      let s := (s.reportUse e x.c1 x.used).reportUse e x.c2 x.used2
      let s := s.putXfer e slot (some { x with phase := 1, used := 0, used2 := 0, outcome := v.1, lbaIdx := v.2 })
      s.postDone e slot v.1 v.2
    else s

/-- Slots of an engine that hold a transfer. -/
def Engine.xferSlots (e : Engine) : List Nat := (e.slots.filter fun p => p.2.xfer.isSome).map Prod.fst

/-! ## Contexts cleared, and the unit disabled (R114, R119, R141) -/

/-- A context after its key is cleared: EMPTY with a status; a KLOAD whose READY has not been written resolves with `pend` instead. -/
def KeyCtx.clearKey (k : KeyCtx) (status pend : Nat) : KeyCtx :=
  if k.st = 3 then { k with st := 0, key := 0, tag := KeyTag.none, status := status, relPending := false }
  else if k.st = 1 && k.result = some 0 then { k with key := 0, tag := KeyTag.none, result := some pend }
  else k

/-- A queued WAIT request or an outstanding fill request of a context withdrawn from the tile (R116, R159). -/
def State.withdrawKey (s : State) (e c : Nat) : State :=
  s.updTile (tileOf e) fun t =>
    { t with waitq := t.waitq.filter fun w => !(w.eng = e && w.ctx = c)
             cache := Tbl.mapv CacheEntry.init t.cache fun y => { y with reqs := y.reqs.filter fun r => !(r.eng = e && r.ctx = c) } }

/-- A context's request ends with a status before any key arrives: an unwritten KLOAD result becomes it, a queued request is withdrawn and
raises KEY (R88, R117). -/
def State.failCtx (s : State) (e c status : Nat) : State :=
  let k := (s.eng e).ctx c
  if k.st = 1 then (s.withdrawKey e c).updEng e fun g => g.setCtx c { k with result := some status, key := 0, tag := KeyTag.none }
  else if k.st = 2 then (s.withdrawKey e c).updEng e fun g => g.setCtx c { k with st := 0, status := status, keyEvt := true }
  else if k.st = 3 then s.updEng e fun g => g.setCtx c (k.clearKey status status)
  else s

/-- A MOVED transfer of a direction that uses no context: the unit has no part in it, and its repeats are still served (R129, R136). -/
def State.plainMoved (s : State) (e k : Nat) : Bool := match s.xferOf e k with | some x => x.phase = 1 && x.c1.isNone | none => false

/-- The unit stops with a fault cause of R319: key schedules cleared, transfers ended UNIT_FAULT, FAULT set, and an engine fault raised whose
DETAIL is EPC (R114, R141, R324). A MOVED transfer that needs the unit serves no more (DEDUCED, log 87). -/
def State.disableUnit (s : State) (e cause : Nat) : State :=
  let s := s.each [0, 1, 2, 3] fun s c => s.failCtx e c 0x17
  let s := s.each (s.eng e).xferSlots fun s k => if s.plainMoved e k then s else s.endXfer e k 0x17
  let s := s.updEng e fun g => { g with cuFault := true, cuRail := g.cuRail || (g.cuTesting && cause = 3) }
  s.faultEvent (dieOfTile (tileOf e)) cause e (s.eng e).proc.epc

/-- The plaintext guard ends a transfer: its controller receives an event, and the unit is disabled (R115, R509). -/
def State.plaintextGuard (s : State) (e func : Nat) : State :=
  (s.tenantEvent func 0x04 0 3 (BitVec.ofNat 32 e)).disableUnit e 0x03

end Sys2Proof.Machine
end

