-- ==== Sys2Proof/Machine/Keys.lean ====
section
/-!
DEFINITION. The K extension (R62 to R65, R116 to R119), the keyslot record (R142 to R146), the tile key cache with its fills, contention,
pins, purges and write-back (R154 to R172), and the two custody paths into a tile (R21, R35, R36).
-/

namespace Sys2Proof.Machine

/-! ## Keyslot records (R142 to R146) -/

/-- Byte address in buffer DRAM of keyslot `slot` in the copy of stack `die`, as a tile's KSBASE places the table (R142, R167). -/
def recAddr (ksbase : Word) (die slot : Nat) : Nat := die * 2 ^ 32 + fld ksbase.toNat 4 0 * 2 ^ 27 + 128 * slot

def recState (r : List Byte) : Nat := fld (wordAt r 1).toNat 31 28
def recGen (r : List Byte) : Nat := fld (wordAt r 0).toNat 27 24
def recSlot (r : List Byte) : Nat := fld (wordAt r 0).toNat 19 0
def recFmt (r : List Byte) : Nat := fld (wordAt r 0).toNat 31 28
def recEpoch (r : List Byte) : Nat := fld (wordAt r 1).toNat 15 0
def recMode (r : List Byte) : Nat := fld (wordAt r 1).toNat 27 26
def recCtrl (r : List Byte) : Nat := fld (wordAt r 2).toNat 9 0
def recNsx (r : List Byte) : Nat := fld (wordAt r 3).toNat 15 0
def recBand (r : List Byte) : Nat := fld (wordAt r 3).toNat 31 26
def recUlimit (r : List Byte) : Nat := leAt r 120 4

/-- The tags a cache entry takes from the header (05, "The tile key cache"). -/
def recTag (r : List Byte) : KeyTag :=
  { slot := recSlot r, gen := recGen r, mode := recMode r, ctrl := recCtrl r, altEn := bitOf (wordAt r 2).toNat 31
    alt := fld (wordAt r 2).toNat 25 16, nsx := recNsx r }

/-- The header with STATE = ACTIVE, as P carries it (R146). -/
def recHeader (r : List Byte) : List Byte := patch (r.take 16) 4 (leBytes 4 (setFld (wordAt r 1).toNat 31 28 1))

/-- The tags allow FUNC as an owner (R134, R144). -/
def KeyTag.admits (k : KeyTag) (f : Nat) : Bool := f = k.ctrl || (k.altEn && f = k.alt)

/-! ## Requests to a tile (R19, R154, R157 to R159) -/

/-- FREE entries of a tile (R168). -/
def Tile.freeCount (t : Tile) : Nat := 512 - (t.cache.filter fun p => p.2.st ≠ 0).length
/-- Pinned entries (R168). -/
def Tile.pinned (t : Tile) : Nat := (t.cache.filter fun p => p.2.pin).length
/-- LOWWATER; 0 acts as 1 (R167). -/
def Tile.low (t : Tile) : Nat := max 1 t.lowwater
/-- The lowest FREE entry. -/
def Tile.freeEntry (t : Tile) : Option Nat := (List.range 512).find? fun i => (t.entry i).st = 0

/-- Fills in progress; with 32 of them a miss waits before issue, and a queued request or a pin waits in its place (R81, R156, log 95). -/
def Tile.fills (t : Tile) : Nat := (t.cache.filter fun p => p.2.st = 1).length
/-- A fill may start. -/
def Tile.fillRoom (t : Tile) : Bool := t.fills < 32
/-- The generation of a pin that runs for the keyslot (R160, R171). -/
def Tile.pinFor (t : Tile) (slot : Nat) : Option Nat := if t.pinGo && t.pinOp && t.pinSlot = slot then some t.pinGen else none

/-- Entry `i` starts to fill for a keyslot, with the requests of KLOADs and of a pin that waits for it. The record is read in one access, as it
stands now (R155; log 97); a pin's own fill is no miss of a KLOAD (R154, R160, R172). -/
def State.startFill (s : State) (n i slot : Nat) (reqs : List FillReq) : State :=
  let t := s.tile n
  let c := { CacheEntry.init with st := 1, tag := { KeyTag.none with slot := slot }, reqs := reqs, pinReq := t.pinFor slot, base := t.ksbase
                                  record := s.dramBytes (recAddr t.ksbase (dieOfTile n) slot) 128, gens := reqs.map FillReq.gen ++ (t.pinFor slot).toList }
  s.setTile n { t.setEntry i c with kcMiss := t.kcMiss + (if reqs.isEmpty then 0 else 1) }

/-- Whether the record access of a fill has returned by now is open; it is settled when a request joins or a purge arrives (R155, R170, log 97). -/
def State.fillTick (s : State) (n i : Nat) : State :=
  let c := (s.tile n).entry i
  if c.st ≠ 1 || c.hdr then s
  else let b := s.fresh 1; b.2.updTile n fun t => t.setEntry i { c with hdr := b.1 = 1 }

/-- A KLOAD joins the fill of entry `i`; its generation counts for row 7 of R155 while the header has not been read. -/
def State.joinFill (s : State) (n i : Nat) (q : FillReq) : State :=
  let s := s.fillTick n i
  s.updTile n fun t =>
    let c := t.entry i
    { t.setEntry i { c with reqs := c.reqs ++ [q], gens := if c.hdr then c.gens else c.gens ++ [q.gen] } with kcHit := t.kcHit + 1 }

/-- A context's request gets a result, with the key when it is READY. -/
def State.answerCtx (s : State) (e c result : Nat) (tag : KeyTag) (key : BitVec 512) : State :=
  s.updEng e fun g =>
    let k := g.ctx c
    let k := if result = 0 then { k with tag := tag, key := key } else k
    g.setCtx c (
      if k.st = 2 then { k with st := if result = 0 then 3 else 0, status := result, keyEvt := true }
      else if k.st = 1 then { k with result := some result } else k)

/-- A well-formed request reaches the tile: a hit, a fill joined, a fill started, or WAIT (R154, R157, R158). -/
def State.keyRequest (s : State) (e c slot gen : Nat) : State :=
  let n := tileOf e
  let t := s.tile n
  match t.find slot with
  | some i =>
    let x := t.entry i
    if x.st = 2 then
      (s.setTile n { t.setEntry i { x with refd := true } with kcHit := t.kcHit + 1 }).answerCtx e c (if x.tag.gen = gen then 0 else 0x11) x.tag x.key
    else s.joinFill n i { eng := e, ctx := c, gen := gen }
  | none =>
    match (if t.waitq.length < t.freeCount then t.freeEntry else none) with
    | some i => s.startFill n i slot [{ eng := e, ctx := c, gen := gen }]
    | none =>
      (s.setTile n { t with waitq := t.waitq ++ [{ eng := e, ctx := c, slot := slot, gen := gen }]
                            keyToken := if t.waitq.isEmpty then some e else some (t.keyToken.getD e)
                            kcWait := t.kcWait + 1 }).answerCtx e c 1 KeyTag.none 0

/-! ## The K instructions (R63 to R65, R116 to R118) -/

/-- A KLOAD of the handle must wait before issue: its miss would be a 33rd fill of the tile (R156, log 95). -/
def State.fillsFull (s : State) (e : Nat) (h : BitVec 24) : Bool :=
  let t := s.tile (tileOf e)
  (t.find (handleSlot h)).isNone && t.waitq.length < t.freeCount && !t.fillRoom

/-- A KLOAD by itself: it waits while the context has a request, or a count that its key must still report; CTX_BUSY where a transfer references
the context; otherwise the old key is released and the request goes out. gd is held until KLOAD_RESOLVE (R64, R116, R162). -/
def kloadIssue (p : Pid) (gd gs : Reg) (ctx : Fin 4) (s : State) : Res :=
  s.issue p { word := encReg 0x0D gd gs ctx 0, uses := [gd, gs], priv := true, laneOnly := true } fun s =>
    let e := s.eng p
    let k := e.ctx ctx
    let h := e.proc.reg gs
    if k.st = 1 || k.st = 2 then s
    else if k.st = 3 && e.refs ctx then (if e.cuTesting && !e.cuPeriodic then s else s.writeReg p gd 0x15)
    else if k.heldUse.isSome || (!e.cuFault && fld h.toNat 31 24 = 0 && s.fillsFull p (h.truncate 24)) then s
    else
      let k := { k with st := 1, key := 0, tag := KeyTag.none, handle := h.truncate 24, gd := some gd, result := none, keyEvt := false, relPending := false }
      let s := s.updEng p fun e => { e.setCtx ctx k with proc := (e.proc.setBusy gd).retire }
      if e.cuFault then s.answerCtx p ctx 0x17 KeyTag.none 0
      else if fld h.toNat 31 24 ≠ 0 then s.answerCtx p ctx 0x10 KeyTag.none 0
      else s.keyRequest p ctx (fld h.toNat 23 4) (fld h.toNat 3 0)

/-- The engine whose request the mutex resolves first, of two that reach it in the same resolution: the holder of the tile's token if it is one
of them, else either (R19, R158). -/
def State.mutexFirst (s : State) (token : Option Nat) (a b : Nat) : Bool × State :=
  if token = some a then (true, s) else if token = some b then (false, s) else let c := s.fresh 1; (c.1 = 1, c.2)

/-- The state that a command of this part answers. -/
def resState (r : Res) (s : State) : State := match r with | .next t => t | _ => s

/-- Two KLOADs of one tile in one resolution: one goes first, and where the second then finds no FREE entry, the token leaves a first that held it and
passes to the second (R19, R158). -/
def kloadPair (p : Pid) (gd gs : Reg) (ctx : Fin 4) (p2 : Pid) (gd2 gs2 : Reg) (ctx2 : Fin 4) (s : State) : State :=
  let u := resState (kloadIssue p gd gs ctx s) s
  let v := resState (kloadIssue p2 gd2 gs2 ctx2 u) u
  if (u.tile (tileOf p)).waitq.length < (v.tile (tileOf p)).waitq.length && (s.tile (tileOf p)).waitq.length = (u.tile (tileOf p)).waitq.length
      && (v.tile (tileOf p)).keyToken = some p.val then v.updTile (tileOf p) fun t => { t with keyToken := some p2.val }
  else v

/-- KLOAD, alone or with the KLOAD of another engine of its tile that reaches the mutex in the same resolution (R19, R64, R116, R158). -/
def execKload (p : Pid) (gd gs : Reg) (ctx : Fin 4) (s : State) (rival : Option (EngId × Reg × Reg × Fin 4) := none) : Res :=
  match rival with
  | none => kloadIssue p gd gs ctx s
  | some (e, gd2, gs2, ctx2) =>
    let p2 : Pid := e.castSucc
    if p = p2 || p.val = 128 || tileOf p ≠ tileOf e then kloadIssue p gd gs ctx s
    else
      let r := s.mutexFirst (s.tile (tileOf p)).keyToken p e
      .next (if r.1 then kloadPair p gd gs ctx p2 gd2 gs2 ctx2 r.2 else kloadPair p2 gd2 gs2 ctx2 p gd gs ctx r.2)

/-- KLOAD_RESOLVE: the result of a resolved request is written to gd and to STATUS, and the context takes its state; held back while the
power-on self-test runs (R64, R116, R117, R139). -/
def execKloadResolve (e : EngId) (ctx : Fin 4) (s : State) : Res :=
  .next (
    let g := s.eng e
    let k := g.ctx ctx
    match k.st, k.result with
    | 1, some r =>
      if g.cuTesting && !g.cuPeriodic then s
      else
        let st := if r = 0 then 3 else if r = 1 then 2 else 0
        let p := match k.gd with | some gd => (g.proc.setReg gd (BitVec.ofNat 32 r)).clearBusy gd | none => g.proc
        s.setEng e { g.setCtx ctx { k with st := st, status := r, gd := none, result := none } with proc := p }
    | _, _ => s)

/-- KWAIT: the final result once no request is queued (R63, R118). -/
def execKwait (p : Pid) (gd : Reg) (ctx : Fin 4) (s : State) : Res :=
  s.issue p { word := encReg 0x0D gd 0 ctx 1, uses := [gd], priv := true, laneOnly := true } fun s =>
    let k := (s.eng p).ctx ctx
    if k.st = 1 || k.st = 2 then s
    else (s.updEng p fun e => e.setCtx ctx { k with keyEvt := false }).writeReg p gd (BitVec.ofNat 32 k.status)

/-- KREL: withdraws a request, releases a key that no transfer references, or is kept until the last such transfer is released; waits for a
held count (R64, R116, R162). -/
def execKrel (p : Pid) (ctx : Fin 4) (s : State) : Res :=
  s.issue p { word := encReg 0x0D 0 0 ctx 2, uses := [], priv := true, laneOnly := true } fun s =>
    let e := s.eng p
    let k := e.ctx ctx
    if k.st = 1 || k.st = 2 then
      let s := s.withdrawKey p ctx
      s.updEng p fun e =>
        let q := match k.gd with | some gd => (e.proc.setReg gd 2).clearBusy gd | none => e.proc
        { e.setCtx ctx { k with st := 0, key := 0, tag := KeyTag.none, status := 2, gd := none, result := none, keyEvt := false } with proc := q.retire }
    else if k.st = 3 && e.refs ctx then s.updEng p fun e => { e.setCtx ctx { k with relPending := true } with proc := e.proc.retire }
    else if k.heldUse.isSome then s
    else s.updEng p fun e => { e.setCtx ctx { k with st := 0, key := 0, tag := KeyTag.none, status := 2 } with proc := e.proc.retire }

/-- Bits [32i+31:32i] of the starting tweak replaced (R65). -/
def setTweak (t : BitVec 128) (i : Nat) (v : Word) : BitVec 128 := BitVec.ofNat 128 (setFld t.toNat (32 * i + 31) (32 * i) v.toNat)

/-- A context parameter written (R65). -/
def KeyCtx.setParam (k : KeyCtx) (sel : Nat) (v : Word) : KeyCtx :=
  if sel = 0 then { k with mode := v } else if sel = 1 then { k with dusize := v }
  else if sel = 6 then { k with version := v } else { k with tweak := setTweak k.tweak (sel - 2) v }

/-- A context parameter read (R65). -/
def KeyCtx.param (k : KeyCtx) (sel : Nat) : Word :=
  if sel = 0 then k.mode else if sel = 1 then k.dusize else if sel = 6 then k.version
  else if sel = 8 then BitVec.ofNat 32 (b2n (k.st = 3) * 2 ^ 31 + k.handle.toNat)
  else if sel = 9 then BitVec.ofNat 32 k.status
  else (k.tweak >>> (32 * (sel - 2))).truncate 32

/-- KSET (R65): the value affects transfers started later. -/
def execKset (p : Pid) (gs : Reg) (ctx : Fin 4) (sel : U5) (s : State) : Res :=
  s.issue p { word := encReg 0x0D 0 gs ctx (sel.toNat * 64 + 3), uses := [gs], priv := true, laneOnly := true, illegal := 6 < sel.toNat } fun s =>
    s.updEng p fun e => { e.setCtx ctx ((e.ctx ctx).setParam sel.toNat (e.proc.reg gs)) with proc := e.proc.retire }

/-- KGET (R65). -/
def execKget (p : Pid) (gd : Reg) (ctx : Fin 4) (sel : U5) (s : State) : Res :=
  s.issue p { word := encReg 0x0D gd 0 ctx (sel.toNat * 64 + 4), uses := [gd], priv := true, laneOnly := true
              illegal := 9 < sel.toNat || sel.toNat = 7 } fun s =>
    s.writeReg p gd (((s.eng p).ctx ctx).param sel.toNat)

/-! ## Fills (R155) -/

/-- The outcome of a fill on the record it read: result, and the key (R155 rows 1 to 10, R146). -/
def fillCheck (en : Bool) (wk : Option (BitVec 256 × Nat)) (err : Bool) (slot : Nat) (gens : List Nat) (r : List Byte) : Nat × BitVec 512 :=
  if !en then (0x10, 0)
  else match wk with
  | none => (0x13, 0)
  | some (k, epoch) =>
    if err then (0x19, 0)
    else if recFmt r ≠ 1 || recSlot r ≠ slot then (0x14, 0)
    else if recState r ≠ 1 && recState r ≠ 2 then (0x10, 0)
    else if recState r = 2 || recEpoch r ≠ epoch then (0x12, 0)
    else if !gens.contains (recGen r) then (0x11, 0)
    else match kwUnwrap (leBytes 32 k.toNat) ((r.drop 16).take 88) with
      | none => (0x14, 0)
      | some p =>
        if p.drop 64 ≠ recHeader r then (0x14, 0)
        else if recMode r = 1 && p.take 32 = (p.drop 32).take 32 then (0x16, 0)
        else (0, BitVec.ofNat 512 (ofLe (p.take 64)))

/-- A pin or flush operation of a tile has completed (R171, R336). -/
def State.pinDone (s : State) (n result : Nat) : State :=
  (s.updTile n fun t => { t with pinGo := false, pinResult := result }).raise (48 + n)

/-- A pin that waits for LOWWATER free entries starts its fill (R160). -/
def State.pinTry (s : State) (n : Nat) : State :=
  let t := s.tile n
  if t.pinGo && t.pinOp && (t.find t.pinSlot).isNone && t.low ≤ t.freeCount && t.fillRoom then
    match t.freeEntry with
    | some i => s.startFill n i t.pinSlot []
    | none => s
  else s

/-- KEY_FILL_COMPLETE: the record of a FILLING entry returns and the fill ends with the first row of R155 that applies; each request takes
its own result (R154). A fill of a tile that still waits for its wrapping key goes on waiting (R147). -/
def execKeyFillComplete (t : TileId) (slot : BitVec 20) (err : Bool) (s : State) : Res :=
  .next (
    let x := s.tile t
    match x.find slot.toNat with
    | none => s
    | some i =>
      let c := x.entry i
      if c.st ≠ 1 then s
      else if bitOf c.base.toNat 8 && x.wk.isNone && s.vault.wk.isSome then s
      else
        let v := fillCheck (bitOf c.base.toNat 8) x.wk err slot.toNat c.gens c.record
        let tag := recTag c.record
        let x := x.setEntry i (if v.1 = 0 then { CacheEntry.init with st := 2, tag := tag, key := v.2, refd := true } else CacheEntry.init)
        let x := if v.1 = 0x14 then { x with errUnwrap := true, errSlot := slot.toNat }
                 else if v.1 = 0x19 then { x with errDram := true, errSlot := slot.toNat } else x
        let s := s.setTile t x
        let s := if v.1 = 0x14 then s.faultEvent (dieOfTile t) 0x10 t (slot.zeroExtend 32)
                 else if v.1 = 0x19 then s.faultEvent (dieOfTile t) 0x11 t (slot.zeroExtend 32) else s
        let s := c.reqs.foldl (fun s q => s.answerCtx q.eng q.ctx (if v.1 = 0 && q.gen ≠ tag.gen then 0x11 else v.1) tag v.2) s
        match c.pinReq with
        | none => s.pinTry t
        | some g =>
          if v.1 = 0 && g = tag.gen then
            (if 448 ≤ x.pinned then s.pinDone t 1
             else (s.updTile t fun x => x.setEntry i { x.entry i with pin := true }).pinDone t 0)
          else s.pinDone t 2)

/-! ## Eviction and queued requests (R157 to R159) -/

/-- The clock hand moved over the entries: reference bits cleared on its way, and the victim, if any (R157). -/
def Tile.clock : Nat → Tile → Tile × Option Nat
  | 0, t => (t, none)
  | n + 1, t =>
    let i := t.hand
    let c := t.entry i
    let t := { t with hand := (i + 1) % 512 }
    if c.st ≠ 2 || c.pin then Tile.clock n t
    else if c.refd then Tile.clock n (t.setEntry i { c with refd := false })
    else if c.delta ≠ 0 && t.wb.length ≥ 32 then Tile.clock n t
    else (t, some i)

/-- EVICT: while fewer than LOWWATER entries are FREE, the clock's victim is freed and its DELTA moves to the write-back buffer (R157). -/
def execEvict (t : TileId) (s : State) : Res :=
  .next (
    let x := s.tile t
    if !s.tileOn t || x.low ≤ x.freeCount then s
    else
      let r := Tile.clock 1025 x
      match r.2 with
      | none => s.setTile t r.1
      | some i =>
        let c := r.1.entry i
        let y := r.1.setEntry i CacheEntry.init
        let late := y.due.any fun d => d.1 = c.tag.slot && d.2
        let y := { y with due := y.due.filter fun d => d.1 ≠ c.tag.slot }
        (s.setTile t (if c.delta = 0 then y else y.wbPush c.tag c.delta late)).pinTry t)

/-- KEY_WAIT_GRANT: the head of the queue, whose WAIT has been written, takes a freed entry and starts its fill, or finds its keyslot cached by
now (R154, R158, R159). -/
def execKeyWaitGrant (t : TileId) (s : State) : Res :=
  .next (
    let x := s.tile t
    match x.waitq, x.freeEntry with
    | w :: rest, some i =>
      if ((s.eng w.eng).ctx w.ctx).st ≠ 2 then s
      else
      let y := { x with waitq := rest }
      match y.find w.slot with
      | none => if x.fillRoom then (s.setTile t y).startFill t i w.slot [{ eng := w.eng, ctx := w.ctx, gen := w.gen }] else s
      | some j =>
        let c := y.entry j
        if c.st = 2 then
          (s.setTile t { y.setEntry j { c with refd := true } with kcHit := y.kcHit + 1 }).answerCtx w.eng w.ctx (if c.tag.gen = w.gen then 0 else 0x11) c.tag c.key
        else (s.setTile t y).joinFill t j { eng := w.eng, ctx := w.ctx, gen := w.gen }
    | _, _ => s)

/-! ## Counts on their way to the buffer (R162, R167) -/

/-- The contexts of a tile's engines. -/
def ctxsOf (n : Nat) : List (Nat × Nat) := (enginesOf n).flatMap fun e => [(e, 0), (e, 1), (e, 2), (e, 3)]

/-- A report register of the tile that can take a DELTA of the key: that of a context which holds the key, with nothing or a count of the same key
in it (R162, log 96). -/
def State.reportReg (s : State) (n : Nat) (tag : KeyTag) : Option (Nat × Nat) :=
  (ctxsOf n).find? fun p =>
    let k := (s.eng p.1).ctx p.2
    k.st = 3 && k.tag = tag && (match k.heldUse with | some h => h.1 = tag | none => true)

/-- The DELTA of entry `i` is due: it moves to the write-back buffer, or with a full buffer to a report register, and DELTA restarts at 0; where no
report register can take it, it waits in the entry (R162, log 96). -/
def State.moveDelta (s : State) (n i : Nat) (flush : Bool) : State :=
  let t := s.tile n
  let c := t.entry i
  let mark := flush || t.due.any fun d => d.1 = c.tag.slot && d.2
  if c.delta = 0 then s
  else
    let t := { t with due := t.due.filter fun d => d.1 ≠ c.tag.slot }
    let u := t.setEntry i { c with delta := 0 }
    if t.wb.length < 32 then s.setTile n (u.wbPush c.tag c.delta mark)
    else match s.reportReg n c.tag with
      | some p =>
        let k := (s.eng p.1).ctx p.2
        (s.setTile n (if mark && !u.flushCtx.contains p then { u with flushCtx := u.flushCtx ++ [p] } else u)).updEng p.1 fun g =>
          g.setCtx p.2 { k with heldUse := some (c.tag, c.delta + (match k.heldUse with | some h => h.2 | none => 0)) }
      | none => s.setTile n { t with due := t.due ++ [(c.tag.slot, mark)] }

/-- Every nonzero DELTA of a tile is due (R162, R165, R167). -/
def State.moveDeltas (s : State) (n : Nat) (flush : Bool) : State := s.each ((s.tile n).cache.map Prod.fst) fun s i => s.moveDelta n i flush

/-- Counts that wait in report registers, and then the DELTAs that are due, enter the buffer while it has room (R162). -/
def State.drainHeld (s : State) (n : Nat) : State :=
  let s := (ctxsOf n).foldl (fun s p =>
    let k := (s.eng p.1).ctx p.2
    match k.heldUse with
    | some h =>
      if (s.tile n).wb.length < 32 then
        (s.updTile n fun t => { t.wbPush h.1 h.2 (t.flushCtx.contains p) with flushCtx := t.flushCtx.filter (· ≠ p) }).updEng p.1 fun g =>
          g.setCtx p.2 { k with heldUse := none }
      else s
    | none => s) s
  s.each ((s.tile n).due.map Prod.fst) fun s slot => match (s.tile n).find slot with | some i => s.moveDelta n i false | none => s

/-- Every count of the tile is in DRAM. -/
def State.noCounts (s : State) (n : Nat) : Bool :=
  (s.tile n).wb.isEmpty && (s.tile n).cache.all (fun p => p.2.delta = 0) && (enginesOf n).all fun e => (s.eng e).ctxs.all fun p => p.2.heldUse.isNone

/-- Counts that were present when WBFLUSH was written have not reached DRAM. -/
def Tile.flushLeft (t : Tile) : Bool := t.wb.any WbItem.flush || !t.flushCtx.isEmpty || t.due.any Prod.snd

/-- A WBFLUSH operation ends once every count that was present at the write is in DRAM, and raises KCOP (R167, R336). -/
def State.flushCheck (s : State) (n : Nat) : State :=
  if (s.tile n).wbFlush && !(s.tile n).flushLeft then (s.updTile n fun t => { t with wbFlush := false }).raise (48 + n) else s

/-- TILEn_KCCTRL.WBFLUSH: every count present is marked, and every nonzero DELTA is due (R162, R167). -/
def State.wbflush (s : State) (n : Nat) : State :=
  let held := (ctxsOf n).filter fun p => ((s.eng p.1).ctx p.2).heldUse.isSome
  let s := s.updTile n fun t => { t with wb := t.wb.map (fun w => { w with flush := true }), flushCtx := held, wbFlush := true }
  (s.moveDeltas n true).flushCheck n

def execKcctrlWbflush (t : TileId) (s : State) : Res := .next (if s.tileOn t then s.wbflush t else s)

/-! ## Custody paths and purges (R21, R35, R36, R119, R147, R170) -/

/-- KEY_DELIVERY: a powered tile's unwrap unit takes the wrapping key and epoch number as one token, once no purge line is driven; nothing is
delivered while the vault holds no epoch secret (R21, R35, R147, R180). A token with a dual-rail code error never completes: the tile keeps what it had
and raises TILE_KEYBUS (R21, R319). -/
def execKeyDelivery (t : TileId) (s : State) (err : Bool := false) : Res :=
  .next (match s.vault.wk with
    | some k =>
      if !s.tileOn t || !s.vault.line.isEmpty then s
      else if err then s.faultEvent (dieOfTile t) 0x13 t 0
      else s.updTile t fun x => { x with wk := some (k, s.vault.epoch) }
    | none => s)

/-- One context meets a purge; `all` is the purge line, which clears every context: a KLOAD that has not resolved ends ERASED, and an EMPTY context
shows PURGED too. The answer is true when a key was cleared (R119). -/
def State.purgeCtx (s : State) (e c : Nat) (m : KeyTag → Bool) (all : Bool) : State × Bool :=
  let k := (s.eng e).ctx c
  if (k.st = 3 || (k.st = 1 && k.result = some 0)) && m k.tag then
    (s.updEng e fun g => { g.setCtx c { k.clearKey 0x18 0x12 with heldUse := none } with evPurge := true }, true)
  else if all then
    let q := { k with heldUse := none }
    let q := if k.st = 2 then { q with st := 0, status := 0x18, keyEvt := true }
             else if k.st = 1 then (if k.result.isNone || k.result = some 1 then { q with result := some 0x12 } else q)
             else { q with status := 0x18 }
    ((s.withdrawKey e c).updEng e fun g => { g.setCtx c q with evPurge := true }, false)
  else
    (match k.heldUse with
     | some h => if m h.1 then s.updEng e fun g => g.setCtx c { k with heldUse := none } else s
     | none => s, false)

/-- A fill in progress meets a purge: with its header read it ends ERASED if that matches, and otherwise the access is discarded and the record is read
again after the purge (R170). -/
def State.purgeFill (s : State) (n : Nat) (m : KeyTag → Bool) (i : Nat) : State :=
  let s := s.fillTick n i
  let c := (s.tile n).entry i
  if !c.hdr then s.updTile n fun t => t.setEntry i { c with record := s.dramBytes (recAddr c.base (dieOfTile n) c.tag.slot) 128 }
  else if bitOf c.base.toNat 8 && m (recTag c.record) then
    let s := s.updTile n fun t => t.setEntry i CacheEntry.init
    let s := c.reqs.foldl (fun s q => s.answerCtx q.eng q.ctx 0x12 KeyTag.none 0) s
    if c.pinReq.isSome then s.pinDone n 2 else s
  else s

/-- A purge of one tile: transfers under a matching key end PURGED, and every matching entry, fill, context and count is cleared (R119, R137, R170). The
answer is the tags of the keys it cleared; a key counts as its CTRL owner's (R183; DESIGN CHOICE for a key with a second owner, log 83). -/
def State.purgeTile (s : State) (n : Nat) (m : KeyTag → Bool) (all : Bool) : State × List KeyTag :=
  let s := (enginesOf n).foldl (fun s e => (s.eng e).xferSlots.foldl (fun s k =>
    match s.xferOf e k with | some x => if x.uses m then s.endXfer e k 0x32 else s | none => s) s) s
  let t := s.tile n
  let hit := (t.cache.filter fun p => p.2.st = 2 && m p.2.tag).map fun p => p.2.tag
  let fills := (t.cache.filter fun p => p.2.st = 1).map Prod.fst
  let s := s.setTile n { t with cache := t.cache.filter (fun p => !(p.2.st = 2 && m p.2.tag)), wb := t.wb.filter fun w => !m w.tag
                                due := t.due.filter fun d => !hit.any fun k => k.slot = d.1 }
  let s := s.each fills fun s i => s.purgeFill n m i
  let r := (ctxsOf n).foldl (fun (a : State × List KeyTag) p =>
    let q := a.1.purgeCtx p.1 p.2 m all
    (q.1, if q.2 then a.2 ++ [((a.1.eng p.1).ctx p.2).tag] else a.2)) (s, hit)
  let s := r.1.updTile n fun t => { t with flushCtx := t.flushCtx.filter fun p => ((r.1.eng p.1).ctx p.2).heldUse.isSome }
  (((s.drainHeld n).flushCheck n).pinTry n, r.2)

/-- The tags that a purge of a scope matches (R169, R170). -/
def purgeMatch (scope key : Nat) (k : KeyTag) : Bool :=
  if scope = 0 then k.slot = key else if scope = 1 then k.nsx = key % 2 ^ 16 else if scope = 2 then k.ctrl = key % 2 ^ 10 else true

/-- Powered tiles. -/
def State.tilesOn (s : State) : List Nat := (List.range 16).filter s.tileOn

/-- KCPURGE_GO: TILEn_KCPURGE starts a purge, or sets OVF while one runs. `done` says whether the tile completes it now; a purge that a
stuck tile does not complete is completed by the purge line (R169, R170, R179). -/
def State.kcpurge (s : State) (n scope key : Nat) (done : Bool) : State :=
  if (s.tile n).purgeGo then s.updTile n fun t => { t with purgeOvf := true }
  else
    let s := s.updTile n fun t => { t with purgeScope := scope, purgeKey := key }
    if done && s.tileOn n then ((s.purgeTile n (purgeMatch scope key) false).1).raise (32 + n)
    else s.updTile n fun t => { t with purgeGo := true }

def execKcpurgeGo (t : TileId) (scope : Fin 4) (key : BitVec 20) (done : Bool) (s : State) : Res :=
  .next (if s.tileOn t then s.kcpurge t scope key.toNat done else s)

/-! ## Pins (R160, R171) -/

/-- TILEn_KCPIN with GO: a pin or unpin (R160, R171). A write with GO while one runs is discarded whole (DESIGN CHOICE, log 81). -/
def State.kcpin (s : State) (n : Nat) (op : Bool) (slot gen : Nat) : State :=
  let t := s.tile n
  if t.pinGo then s
  else
    let t := { t with pinOp := op, pinSlot := slot, pinGen := gen, pinGo := true }
    let s := s.setTile n t
    match t.find slot with
    | some i =>
      let c := t.entry i
      if !op then
        (if c.pin then (s.setTile n (t.setEntry i { c with pin := false })).pinDone n 0 else s.pinDone n 3)
      else if 448 ≤ t.pinned && !c.pin then s.pinDone n 1
      else if c.st = 2 then
        (if c.tag.gen = gen then (s.setTile n (t.setEntry i { c with pin := true })).pinDone n 0 else s.pinDone n 2)
      else
        let s := s.fillTick n i
        s.updTile n fun t => let c := t.entry i; t.setEntry i { c with pinReq := some gen, gens := if c.hdr then c.gens else c.gens ++ [gen] }
    | none => if !op then s.pinDone n 3 else if 448 ≤ t.pinned then s.pinDone n 1 else s.pinTry n

def execKcpinPin (t : TileId) (slot : BitVec 20) (gen : Fin 16) (s : State) : Res :=
  .next (if s.tileOn t then s.kcpin t true slot.toNat gen else s)
def execKcpinUnpin (t : TileId) (slot : BitVec 20) (s : State) : Res :=
  .next (if s.tileOn t then s.kcpin t false slot.toNat (s.tile t).pinGen else s)

/-! ## Write-back (R162 to R165) -/

/-- The read-add-write of USAGE in the stack A copy, where SLOT and GEN still match and STATE is ACTIVE; crossing ULIMIT sets the flag and
posts USAGE_LIMIT to the key's owner and to the operator (R162, R164, R509). -/
def State.addUsage (s : State) (n : Nat) (w : WbItem) : State :=
  let a := recAddr (s.tile n).ksbase 0 w.tag.slot
  let r := s.dramBytes a 128
  if recFmt r = 1 && recSlot r = w.tag.slot && recGen r = w.tag.gen && recState r = 1 then
    let old := leAt r 104 8
    let new := (old + w.count) % 2 ^ 64
    let s := s.dramPut (a + 104) (leBytes 8 new)
    let lim := recUlimit r * 2 ^ 20
    if lim ≠ 0 && old < lim && lim ≤ new then
      ((s.updTile n fun t => { t with errUlimit := true, errSlot := w.tag.slot }).tenantEvent (recCtrl r) 0x0A 0 0 (BitVec.ofNat 32 w.tag.slot)).emit
        (.operator 0x0A (BitVec.ofNat 32 w.tag.slot))
    else s
  else s

/-- WRITEBACK_ITEM: the oldest item is added to its record; waiting counts take the space (R162). -/
def execWritebackItem (t : TileId) (s : State) : Res :=
  .next (
    let x := s.tile t
    match x.wb with
    | [] => s
    | w :: rest =>
      let s := (s.setTile t { x with wb := rest, wbPromoted := x.wbPromoted && !rest.isEmpty }).addUsage t w
      (s.drainHeld t).flushCheck t)

/-- DELTA_AGE_EXPIRY: a DELTA that has been nonzero for 1 s is due (R162). -/
def execDeltaAgeExpiry (t : TileId) (slot : BitVec 20) (s : State) : Res :=
  .next (match (s.tile t).find slot.toNat with | none => s | some i => s.moveDelta t i false)

/-- WRITEBACK_PROMOTE: write-back that lost 256 arbitrations or aged 100 ms is promoted, counted and reported to the controllers homed on the
tile (R163, R509). -/
def execWritebackPromote (t : TileId) (s : State) : Res :=
  .next (
    let x := s.tile t
    if x.wb.isEmpty || x.wbPromoted then s
    else
      (s.setTile t { x with wbPromoted := true, wbLost := 0, wbAged := x.wbAged + 1 }).tenantEvents (s.homedOn t) 0x08 (some 0) 7
        (BitVec.ofNat 32 (2 ^ 31 + t)))

end Sys2Proof.Machine
end

