-- ==== Sys2Proof/Machine/Completion.lean ====
section
/-!
DEFINITION. Completions and interrupts of the virtual controllers: posting a completion entry (R30, R225), the MSI-X messages and their
coalescing (R286 to R288), asynchronous events (R209, R242), and the freeing of an engine's slots (R133, R223, R241).
-/

namespace Sys2Proof.Machine

/-! ## MSI-X (R286 to R290) -/

def Ctl.vec (c : Ctl) (v : Nat) : Vec := Tbl.get Vec.init c.vecs v
def Ctl.setVec (c : Ctl) (v : Nat) (x : Vec) : Ctl := { c with vecs := Tbl.set Vec.init c.vecs v x }
/-- Interrupt Coalescing feature: threshold and time (R216, R286). -/
def Ctl.thr (c : Ctl) : Nat := fld (Tbl.get 0 c.feats 8).toNat 7 0
def Ctl.itime (c : Ctl) : Nat := fld (Tbl.get 0 c.feats 8).toNat 15 8

/-- A message is due on a vector: the count and timer restart; a masked vector sets its pending bit; a message that D3hot, the link or an
IDE stream holds is owed (R286 to R288). -/
def State.msixDue (s : State) (f v : Nat) : State :=
  let x := (s.ctl f).vec v
  let y := { x with held := 0, timer := none }
  if x.masked then s.updCtl f fun c => c.setVec v { y with pending := true }
  else if s.canSend f then (s.updCtl f fun c => c.setVec v { y with owed := false }).emit (.msix f v)
  else s.updCtl f fun c => c.setVec v { y with owed := true }

/-- A completion entry has been written for a vector: its count rises, its timer starts, and its message becomes due at THR + 1 entries; the
admin vector, a vector with Coalescing Disable and a TIME of 0 are not coalesced (R286). -/
def State.vecEntry (s : State) (f v : Nat) : State :=
  let c := s.ctl f
  let x := c.vec v
  let x := { x with held := x.held + 1, timer := some (x.timer.getD s.now) }
  let s := s.updCtl f fun c => c.setVec v x
  if v = 0 || x.coalesceOff || c.itime = 0 || c.thr + 1 ≤ x.held then s.msixDue f v else s

/-! ## Completion entries (R30, R225, R288) -/

def Ctl.sq (c : Ctl) (q : Nat) : Sq := Tbl.get Sq.init c.sqs q
def Ctl.setSq (c : Ctl) (q : Nat) (x : Sq) : Ctl := { c with sqs := Tbl.set Sq.init c.sqs q x }
def Ctl.cq (c : Ctl) (q : Nat) : Cq := Tbl.get Cq.init c.cqs q
def Ctl.setCq (c : Ctl) (q : Nat) (x : Cq) : Ctl := { c with cqs := Tbl.set Cq.init c.cqs q x }
/-- The completion queue has no room. -/
def Cq.full (q : Cq) : Bool := (q.tail + 1) % max 1 q.size = q.head

/-- A completion entry is written to its completion queue. -/
def State.cplEntry (s : State) (f : Nat) (c : Cpl) : State :=
  let k := (s.ctl f).sq c.sqid
  let q := (s.ctl f).cq k.cq
  let t := (q.tail + 1) % max 1 q.size
  (s.updCtl f fun x => x.setCq k.cq { q with tail := t, phase := if t = 0 then !q.phase else q.phase }).emit (.completion f k.cq c)

/-- A completion entry is written to its completion queue and counts for the queue's vector. -/
def State.cplWrite (s : State) (f : Nat) (c : Cpl) : State :=
  let q := (s.ctl f).cq ((s.ctl f).sq c.sqid).cq
  let s := s.cplEntry f c
  if q.irq then s.vecEntry f q.vector else s

/-- The completion must wait in the port engine: an earlier one of its queue waits, its queue is full, or the controller may not write. -/
def State.cplHeld (s : State) (f : Nat) (c : Cpl) : Bool :=
  let x := s.ctl f
  let cq := (x.sq c.sqid).cq
  !s.canSend f || (c.src.isSome && !(s.queue (1536 + portOf f)).en) || (x.cq cq).full || x.waitCpl.any fun w => (x.sq w.sqid).cq = cq

/-- In D3hot an admin completion that is held causes one PM_PME while PME_En is set; on a link in L1 it waits for L0 (R289). -/
def State.pmeCheck (s : State) (f sqid : Nat) : State :=
  let c := s.ctl f
  if c.d3 && sqid = 0 && c.pmeEn && !c.pmeSent then
    if s.upL0 (portOf f) then (s.updCtl f fun c => { c with pmeSent := true, pmeStatus := true }).emit (.pme f)
    else s.updCtl f fun c => { c with pmeSent := true, pmeStatus := true, pmeOwed := true }
  else s

/-- A PM_PME that waited for the link is sent (R289). -/
def State.pmeFlush (s : State) (f : Nat) : State :=
  if (s.ctl f).pmeOwed then (s.updCtl f fun c => { c with pmeOwed := false }).emit (.pme f) else s

/-- A completion with an error enters the Error Information log, newest first, 64 entries at most (R216). -/
def State.errLog (s : State) (f : Nat) (c : Cpl) : State :=
  if c.sct = 0 && c.sc = 0 then s else s.updCtl f fun x => { x with errors := (c :: x.errors).take 64, errTotal := x.errTotal + 1 }

/-- A completion entry reaches the port engine, which writes it or holds it; nothing is posted for a controller whose queue is gone. -/
def State.cplPost (s : State) (f : Nat) (c : Cpl) : State :=
  let s := s.errLog f c
  if !((s.ctl f).sq c.sqid).live then s
  else if s.cplHeld f c then (s.updCtl f fun x => { x with waitCpl := x.waitCpl ++ [c] }).pmeCheck f c.sqid
  else s.cplWrite f c

/-- An admin command of controller `f` completes, and its CID is free (R216, R242). -/
def State.adminDone (s : State) (f cid : Nat) (dw0 : Word) (sct sc : Nat) (dnr : Bool) : State :=
  let s := s.updCtl f fun c => c.setSq 0 { c.sq 0 with cids := (c.sq 0).cids.erase cid }
  s.cplPost f { sqid := 0, cid := cid, dw0 := dw0, sct := sct, sc := sc, dnr := dnr, crd := 0, src := none }

/-- An asynchronous event completes an outstanding request, or waits for one (R209, R242). -/
def State.asyncEvent (s : State) (f : Nat) (dw0 : Word) : State :=
  match (s.ctl f).aers with
  | [] => s.updCtl f fun c => { c with aens := c.aens ++ [dw0] }
  | cid :: rest => (s.updCtl f fun c => { c with aers := rest }).adminDone f cid dw0 0 0 false

/-- All functions of a port. -/
def State.funcsOfPort (s : State) (u : Nat) : List Nat := s.funcs.filter fun f => portOf f = u

/-- Completions of the engines that a controller's port engine has not yet written (R225, R257). -/
def Ctl.waitEng (c : Ctl) : Nat := (c.waitCpl.filter fun x => x.src.isSome).length

/-! ## The end of commands (R194, R223, R241) -/

/-- Engines of a quadrant. -/
def enginesOfQuad (q : Nat) : List Nat := (List.range 32).map (32 * q + ·)

/-- A busy slot holds a delivered command of a controller that has not ended, of one queue or of all. -/
def Slot.isCmd (x : Slot) (f : Nat) (sq : Option Nat) : Bool :=
  x.busy && x.delivered && !x.posted && x.func = f && (match sq with | some q => x.sqid = q | none => true)

/-- Engine and slot of every command of a controller, of one queue or of all. -/
def State.cmdsOf (s : State) (f : Nat) (sq : Option Nat) : List (Nat × Nat) :=
  s.engines.flatMap fun p => (p.2.slots.filter fun x => x.2.isCmd f sq).map fun x => (p.1, x.1)

/-- The gate counters that count a command fall by one (R194). -/
def State.uncount (s : State) (f : Nat) (gates : List (Nat × Bool)) : State :=
  s.updQuad (s.funcQuad f) fun q => gates.foldl (fun q g =>
    let x := q.gate g.1
    q.setGate g.1 (if g.2 then { x with cnt1 := x.cnt1 - 1 } else { x with cnt0 := x.cnt0 - 1 })) q

/-- A command has ended: a reset waits for the last one before RDY falls, and the deletion of a queue completes after the last one of that
queue (R241). -/
def State.endCheck (s : State) (f : Nat) : State :=
  let s := if (s.ctl f).ending && (s.cmdsOf f none).isEmpty then s.updCtl f fun c => { c with ending := false, rdy := false } else s
  (s.ctl f).sqs.foldl (fun s p =>
    match p.2.deleting with
    | some cid => if (s.cmdsOf f (some p.1)).isEmpty then (s.updCtl f fun c => c.setSq p.1 Sq.init).adminDone f cid 0 0 0 false else s
    | none => s) s

/-- A slot becomes free; its generation stays for its next use (R29, R223). -/
def State.freeSlot (s : State) (e k : Nat) : State :=
  let x := (s.eng e).slot k
  let s := s.updEng e fun g => { g.setSlot k { Slot.init with gen := x.gen } with cmdq := g.cmdq.erase k }
  if x.delivered then s.endCheck x.func else s

/-- A command ends without a completion entry: its counts fall, its transfers end, and its own and its claimed slots are free (R194, R241). -/
def State.endQuietly (s : State) (e k : Nat) : State :=
  let x := (s.eng e).slot k
  let s := s.uncount x.func x.gates
  let s := if x.conflict || x.posted then s else s.updCtl x.func fun c =>
    if (c.sq x.sqid).live then c.setSq x.sqid { c.sq x.sqid with cids := (c.sq x.sqid).cids.erase x.cid } else c
  let kids := ((s.eng e).slots.filter fun p => p.2.busy && p.2.parent = some k).map Prod.fst
  let s := kids.foldl (fun s j => (s.endXfer e j 0x33).freeSlot e j) s
  (s.endXfer e k 0x33).freeSlot e k

/-- Some drive command of the command in slot `k`, its own or of a slot it claimed, has no answer yet. -/
def Engine.driveOpen (g : Engine) (k : Nat) : Bool :=
  g.slots.any fun p => p.2.busy && (p.1 = k || p.2.parent = some k) && (match p.2.drv with | some d => !d.answered | none => false)

/-- Host commands end without completions: those not issued to a drive at once, issued ones when their drive commands are answered (R241). -/
def State.endCommands (s : State) (f : Nat) (sq : Option Nat) : State :=
  (s.cmdsOf f sq).foldl (fun s p =>
    if (s.eng p.1).driveOpen p.2 then s.updEng p.1 fun g => g.setSlot p.2 { g.slot p.2 with mute := true }
    else s.endQuietly p.1 p.2) s

/-- The drive commands of a command that ends without a completion are answered: it ends (R241). -/
def State.muteCheck (s : State) (e k : Nat) : State :=
  let x := (s.eng e).slot k
  let p := x.parent.getD k
  if ((s.eng e).slot p).mute && !(s.eng e).driveOpen p then s.endQuietly e p else s

/-- A completion that waited has been written: a slot that was released meanwhile is free (R225). -/
def State.cplSent (s : State) (c : Cpl) : State :=
  match c.src with
  | some (e, k) => if ((s.eng e).slot k).relWait then s.freeSlot e k else s
  | none => s

/-- Completions that wait in the port engine are written, oldest first, as far as their queues have room (R225, R270, R290). -/
def State.cplDrain (s : State) (f : Nat) : State :=
  if s.canSend f then
    let w := (s.ctl f).waitCpl
    let s := s.updCtl f fun c => { c with waitCpl := [] }
    w.foldl (fun s c => if s.cplHeld f c then s.updCtl f fun x => { x with waitCpl := x.waitCpl ++ [c] } else (s.cplWrite f c).cplSent c) s
  else s

/-- Messages that were owed are sent (R287, R290). -/
def State.msixOwed (s : State) (f : Nat) : State :=
  if s.canSend f then (s.ctl f).vecs.foldl (fun s p => if p.2.owed then s.msixDue f p.1 else s) s else s

/-- Writes to host memory that waited are issued, oldest first, and transfers that had nothing else to do become MOVED (R136, R270, R283). -/
def State.hostFlush (s : State) (f : Nat) : State :=
  if s.canSend f then
    let w := (s.ctl f).hostq
    let s := w.foldl (fun s x => s.emit (x.out f)) (s.updCtl f fun c => { c with hostq := [] })
    (w.filterMap fun x => match x with | .data e k _ _ _ => some (e, k) | .admin .. => none).eraseDups.foldl (fun s p => s.tryMoved p.1 p.2) s
  else s

/-- A controller may send again: what waited goes out, data before entries and entries before messages (R30). -/
def State.funcSend (s : State) (f : Nat) : State := ((s.hostFlush f).cplDrain f).msixOwed f

/-- The link of UPu has reached L0: a PM_PME, data, entries and messages that waited go out (R270, R287, R289). -/
def State.portSend (s : State) (u : Nat) : State :=
  (s.funcs.filter fun f => portOf f = u).foldl (fun s f => (s.pmeFlush f).funcSend f) s

/-! ## Controller end and failure (R241, R242) -/

/-- Spilled entries of a controller leave its queue; the words of the queue follow (R251). -/
def Queue.fit (q : Queue) (words : Nat) : Queue :=
  let h := min q.headW words
  let m := min q.midB ((words - h) / 32)
  { q with tailW := words - h - 32 * m, midB := m, headW := h }

/-- Spilled and held entries of a controller, of one queue or of all, are discarded (R241). -/
def State.dropEntries (s : State) (f : Nat) (sq : Option Nat) : State :=
  let hit := fun (x : Spilled) => x.entry.func = f && (match sq with | some q => x.entry.sqid = q | none => true)
  let s := s.updCtl f fun c => { c with spill := c.spill.filter fun x => !hit x }
  let s := s.updQueue (512 + f) fun q => q.fit (5 * (s.ctl f).spill.length)
  s.updQuad (s.funcQuad f) fun q =>
    { q with gates := Tbl.mapv Gate.init q.gates fun g => { g with held := g.held.filter fun x => !hit x }
             admin := if sq.isNone then q.admin.filter (fun a => a.1 ≠ f) else q.admin }

/-- A controller's queues end: nothing is posted after the reset is seen, its commands end as for queue deletion, and RDY falls once the last
has ended; its features, events and requests return to their reset values (R241). -/
def State.ctlReset (s : State) (f : Nat) : State :=
  let w := (s.ctl f).waitCpl
  let s := s.dropEntries f none
  let s := { s with erases := s.erases.map fun (x : Erase) => if (x.origin = 1 || x.origin = 2) && x.page = f then { x with cid := none } else x }
  let s := s.updCtl f fun c =>
    { c with ccEn := false, shn := 0, shst := 0, cfs := false, ending := true, sqs := [], cqs := [], feats := [], acre := false, aers := []
             aens := [], errors := [], errTotal := 0, waitCpl := [], hostq := [], cc := 0, vecs := Tbl.mapv Vec.init c.vecs fun v => { v with held := 0, timer := none, owed := false } }
  (w.foldl State.cplSent (s.endCommands f none)).endCheck f

/-- A controller fails: CSTS.CFS is set, fetching stops, its commands end as on reset, and it receives CONTROLLER_FATAL; `viol` counts the
violation in its ledger (R242, R509). -/
def State.ctlFail (s : State) (f : Nat) (viol : Bool) : State :=
  if (s.ctl f).cfs then s
  else
    let w := (s.ctl f).waitCpl
    let s := s.dropEntries f none
    let s := s.updCtl f fun c =>
      { c with cfs := true, waitCpl := [], hostq := [], ledger := { c.ledger with violations := c.ledger.violations + b2n viol } }
    (w.foldl State.cplSent (s.endCommands f none)).tenantEvent f 0x0E 0 0 0

/-- A tenant protocol violation is counted (R242). -/
def State.countViolation (s : State) (f : Nat) : State :=
  s.updCtl f fun c => { c with ledger := { c.ledger with violations := c.ledger.violations + 1 } }

end Sys2Proof.Machine
end

