-- ==== Sys2Proof/Machine/Quadrant.lean ====
section
/-!
DEFINITION. The quadrant dispatchers (R193 to R197, R220 to R235): admission buckets, molt gates, classification, the choice of an engine,
the submission fetch, the spill service, and the admission table.
-/

namespace Sys2Proof.Machine

/-! ## Admission buckets (R231 to R233), in 1/2560 of a byte -/

def Ctl.commit (c : Ctl) : Nat := fld c.admw0.toNat 15 0
def Ctl.elastic (c : Ctl) : Nat := fld c.admw0.toNat 31 16
def Ctl.quota (c : Ctl) : Nat := fld c.admw1.toNat 12 0
def Ctl.lat (c : Ctl) : Nat := fld c.admw1.toNat 27 20

/-- One byte of cost in bucket units: a rate of 10 MB/s fills 256 units in a tick of 10 ns. -/
def bktUnit : Nat := 2560

/-- Depth of the committed and the elastic bucket (R233); a rate of 0 leaves its bucket empty. -/
def Ctl.depthC (c : Ctl) : Nat := if c.commit = 0 then 0 else max (c.commit * 10000) 2101248 * bktUnit
def Ctl.depthE (c : Ctl) : Nat := if c.elastic = 0 then 0 else max (c.elastic * 100000) 2101248 * bktUnit

/-- SCALEk + 1 of the home tile of a controller (R231). -/
def State.scaleOf (s : State) (f : Nat) : Nat :=
  match s.homeTile f with
  | some t => fld (s.quad (quadOfTile t)).scale.toNat (8 * (t % 4) + 7) (8 * (t % 4)) + 1
  | none => 256

/-- A controller's buckets filled up to now (R233). -/
def State.fillBkt (s : State) (f : Nat) : State :=
  let c := s.ctl f
  let dt := s.now - c.bktT
  s.setCtl f { c with bktC := min c.depthC (c.bktC + dt * c.commit * s.scaleOf f), bktE := min c.depthE (c.bktE + dt * c.elastic * 256), bktT := s.now }

/-- The controllers of a quadrant's upstream ports (R208). -/
def State.funcsOf (s : State) (q : Nat) : List Nat := s.funcs.filter fun f => s.funcQuad f = q

/-- The buckets of a quadrant's controllers filled up to now, before a rate changes. -/
def State.fillQuad (s : State) (q : Nat) : State := (s.funcsOf q).foldl State.fillBkt s

/-- RATE is latched in the eight engines of a tile that is on (R88, R433). -/
def State.rate (s : State) (t : Nat) : State :=
  if s.tileOn t then s.each (enginesOf t) fun s e => s.updEng e fun g => { g with evRate := true } else s

/-- An override of TARGET and SCALEk is in force (R440, R448, R490). -/
def Pwr.overridden (p : Pwr) : Bool := 2 ≤ p.stage || p.thermClip

/-- PWR_CTRL.STATE as it acts: 2 and 3 act as 0 (R438). -/
def Pwr.mode (p : Pwr) : Nat := if p.state = 1 then 1 else 0

/-- The override acts on tile `t`: in BASKING only on one that is on (R448, R452). -/
def State.overrides (s : State) (t : Nat) : Bool := s.pwr.overridden && (s.pwr.mode = 0 || s.domOn t)

/-- The stage-2 value of SCALEk for a tile (R238): C is in units of 10 MB/s, and 7/8 of 76 GB/s is 6,650 of them. -/
def State.stage2Scale (s : State) (t : Nat) : Nat :=
  let c := ((s.homedOn t).map fun f => (s.ctl f).commit).sum
  if c = 0 then 255 else min 256 (6650 * 256 / c) - 1

/-- SCALEk of a tile in its dispatcher. -/
def State.scaleByte (s : State) (t : Nat) : Nat := fld (s.quad (quadOfTile t)).scale.toNat (8 * (t % 4) + 7) (8 * (t % 4))

/-- SCALEk of a tile takes a value: buckets fill at the old rate up to now, and RATE is latched where it changes (R233, R448). -/
def State.setScale (s : State) (t v : Nat) : State :=
  if s.scaleByte t = v then s
  else
    let q := quadOfTile t
    let s := (s.fillQuad q).updQuad q fun x => { x with scale := BitVec.ofNat 32 (setFld x.scale.toNat (8 * (t % 4) + 7) (8 * (t % 4)) v) }
    s.rate t

/-- SCALEk of a tile takes its stage-2 value; warden firmware tells the tile's tenants of a scale below 0xFF, if it changed or they are new to it (R238,
R509). -/
def State.scaleTile (s : State) (t : Nat) (tell : Bool) : State :=
  let v := s.stage2Scale t
  let changed := s.scaleByte t ≠ v
  let s := s.setScale t v
  if v < 255 && s.fwUp && (tell || changed) then s.tenantEvents (s.homedOn t) 0x05 (some 4) 0 (BitVec.ofNat 32 (256 * t + v)) else s

/-- Contracts or homes have changed: while the override is in force each SCALEk follows the new sums (R238). -/
def State.scaleFollow (s : State) : State := s.each ((List.range 16).filter s.overrides) fun s t => s.scaleTile t false

/-- The contract in force for a controller becomes these words: a bucket above its new depth is cut, and one whose contract is first written starts
empty (R231, R233). -/
def State.inForce (s : State) (f : Nat) (w0 w1 : Word) : State :=
  ((s.fillBkt f).updCtl f fun c =>
    let n := { c with admw0 := w0, admw1 := w1 }
    { n with bktC := min n.bktC n.depthC, bktE := min n.bktE n.depthE }).scaleFollow

/-- The admission entry of a controller in a quadrant (R231). -/
def State.admEntry (s : State) (q f : Nat) : Word × Word := Tbl.get (0, 0) (s.quad q).adm f

/-- The admission entry of a controller written in a quadrant; it is the contract in force where the quadrant serves the controller's port (R208, R231). -/
def State.admWrite (s : State) (q f : Nat) (w0 w1 : Word) : State :=
  let w1 := w1 &&& 0xFFF01FFF#32
  let s := s.updQuad q fun x => { x with adm := Tbl.set (0, 0) x.adm f (w0, w1) }
  if s.funcQuad f = q then s.inForce f w0 w1 else s

/-- A controller's contract written by the warden, in the quadrant that serves it (R231, R232). -/
def State.setContract (s : State) (f : Nat) (w0 w1 : Word) : State := s.admWrite (s.funcQuad f) f w0 w1

/-- Another quadrant serves some controllers now: vendor warden firmware moves their contracts there; without it, the entries of that quadrant are in
force (R231; DESIGN CHOICE, log 103). -/
def State.admFollow (old s : State) : State :=
  s.funcs.foldl (fun s f =>
    let q := old.funcQuad f
    if s.funcQuad f = q then s
    else
      let c := s.ctl f
      if c.tenant && s.fwUp then (s.admWrite q f 0 0).setContract f c.admw0 c.admw1
      else s.inForce f (s.admEntry (s.funcQuad f) f).1 (s.admEntry (s.funcQuad f) f).2) s

/-! ## Entries -/

def Entry.opcode (x : Entry) : Nat := fld (x.sqe.getD 0 0).toNat 7 0
def sqeSlba (w : List Word) : Nat := (w.getD 10 0).toNat + 2 ^ 32 * (w.getD 11 0).toNat
def sqeNlb (w : List Word) : Nat := fld (w.getD 12 0).toNat 15 0 + 1

/-- The cost of an I/O command: 4,096 bytes plus its data length (R233). -/
def State.costOf (s : State) (nsx : Nat) (w : List Word) : Nat :=
  let op := fld (w.getD 0 0).toNat 7 0
  4096 + (if op = 1 || op = 2 then sqeNlb w * 2 ^ (s.ns nsx).lbads else 0)

/-- The namespace of an NSID, if it is attached to the controller (R212, R221). -/
def State.nsOf (s : State) (f nsid : Nat) : Option Nat :=
  let x := Tbl.get 0 (s.ctl f).attach nsid
  if (s.ctl f).tenant && x ≠ 0 && (s.ns (x - 1)).valid then some (x - 1) else none

/-- The entry overlaps the range of a closed gate: Flush never does, and a command whose range does not stand in the entry does (R195). -/
def Entry.overlaps (x : Entry) (g : Gate) : Bool :=
  if x.opcode = 0 then false
  else if x.opcode = 1 || x.opcode = 2 then sqeSlba x.sqe < g.hi && g.lo < sqeSlba x.sqe + sqeNlb x.sqe
  else true

/-- The lowest gate that holds the entry, if any (R195). -/
def Quad.gateFor (q : Quad) (x : Entry) : Option Nat :=
  (q.gates.find? fun p => p.2.en && p.2.closed && p.2.nsx = x.nsx && x.overlaps p.2).map Prod.fst

/-- Entries that the gates of a quadrant hold (R195). -/
def Quad.heldCount (q : Quad) : Nat := (q.gates.map fun p => p.2.held.length).sum

/-! ## Engine choice and delivery (R223, R194) -/

def Engine.occupied (g : Engine) : Nat := (g.slots.filter fun p => p.2.busy).length
def Engine.freeSlots (g : Engine) : List Nat := (List.range 512).filter fun k => !(g.slot k).busy && (g.slot k).xfer.isNone

/-- An engine that dispatch may choose: not halted, not quarantined, its command queue enabled and a slot free (R223, R250). -/
def State.engOk (s : State) (e : Nat) : Bool :=
  (s.eng e).run ≠ 2 && !Tbl.get false s.flt.qeng e && (s.queue e).en && (s.eng e).occupied < 512

/-- The engine of a tile with the most free slots, ties to the lowest index counted from the rotating start (R223). -/
def State.pickEngine (s : State) (t start : Nat) : Option Nat :=
  (((List.range 8).map fun i => 8 * t + (start + i) % 8).filter s.engOk).foldl (fun best e =>
    match best with
    | some b => if (s.eng e).occupied < (s.eng b).occupied then some e else best
    | none => some e) none

/-- Occupied slots of a tile (R231). -/
def State.tileOccupied (s : State) (t : Nat) : Nat := ((enginesOf t).map fun e => (s.eng e).occupied).sum

/-- The engine that a command of the controller would go to now. -/
def State.engineFor (s : State) (f : Nat) : Option Nat :=
  match s.homeTile f with
  | some t => s.pickEngine t (s.quad (quadOfTile t)).engStart
  | none => none

/-- Ledger counters of a dispatch (R246). -/
def Ledger.dispatched (l : Ledger) (cls : Nat) : Ledger :=
  match cls with
  | 0 => { l with admCommitted := l.admCommitted + 1 }
  | 1 => { l with admElastic := l.admElastic + 1 }
  | 2 => { l with refQuota := l.refQuota + 1 }
  | 3 => { l with refTail := l.refTail + 1 }
  | _ => l

/-- An entry is delivered to an engine with its class: it takes a free slot, every gate of its namespace counts it in its phase, and
the ledger counts it (R194, R221, R223, R228). -/
def State.deliver (s : State) (x : Entry) (cls e : Nat) : State :=
  let q := s.funcQuad x.func
  match s.choose (s.eng e).freeSlots with
  | none => s
  | some (k, s) =>
    let gates := if cls = 4 then [] else ((s.quad q).gates.filter fun p => p.2.en && p.2.nsx = x.nsx).map fun p => (p.1, p.2.phase)
    let s := s.updQuad q fun q =>
      let q := gates.foldl (fun q g =>
        let y := q.gate g.1
        q.setGate g.1 (if g.2 then { y with cnt1 := y.cnt1 + 1 } else { y with cnt0 := y.cnt0 + 1 })) q
      { q with engStart := (q.engStart + 1) % 8 }
    let s := s.updEng e fun g =>
      { g.setSlot k { Slot.init with busy := true, delivered := true, cls := cls, gen := ((g.slot k).gen + 1) % 16, func := x.func, sqid := x.sqid
                                     cid := fld (x.sqe.getD 0 0).toNat 31 16, sqe := x.sqe, nsx := x.nsx, cost := x.cost, fetched := x.fetched
                                     gates := gates, heldBy := x.heldBy, conflict := x.conflict }
        with cmdq := g.cmdq ++ [k] }
    let s := s.updCtl x.func fun c => { c with ledger := c.ledger.dispatched cls }
    if cls = 3 && !(s.ctl x.func).tdRefused then
      (s.updCtl x.func fun c => { c with tdRefused := true }).tenantEvent x.func 0x06 (s.ctl x.func).rung 0 0
    else s

/-! ## Spill queues (R234, R235, R251) -/

/-- Words pass from the tail to the head while the middle is empty and the head of 10 words has room (R251). -/
def Queue.settle (q : Queue) : Queue :=
  if q.midB = 0 then let m := min q.tailW (10 - q.headW); { q with tailW := q.tailW - m, headW := q.headW + m } else q

/-- The spill queue of a controller has a credit for one more item (R250, R251). -/
def State.spillRoom (s : State) (f : Nat) : Bool :=
  let q := s.queue (512 + f)
  q.en && 5 * ((s.ctl f).spill.length + 1) ≤ 50 + 32 * fld q.rsize.toNat 15 0

/-- The five words of a spilled item: the entry and a record of FUNC, SQID, NSX, cost and fetch time (R257; the record's layout is log 93). -/
def Spilled.bytes (x : Spilled) : List Byte :=
  let y := x.entry
  (List.range 16).flatMap (fun i => leBytes 4 (y.sqe.getD i 0).toNat) ++ leBytes 2 y.func ++ leBytes 2 y.sqid ++ leBytes 2 y.nsx ++ leBytes 2 y.cost ++ leBytes 8 y.fetched

/-- A burst of 32 words goes from the tail of a spill queue to its ring in buffer DRAM, if the middle has room (R251). -/
def State.spillUp (s : State) (f : Nat) : State :=
  let q := s.queue (512 + f)
  let b := fld q.rsize.toNat 15 0
  if q.tailW < 32 || b ≤ q.midB then s
  else
    let ws := (((s.ctl f).spill.flatMap Spilled.bytes).drop (16 * (q.headW + 32 * q.midB))).take 512
    (s.dramPut (b2n (q.ring.getLsbD 0) * 2 ^ 32 + fld q.ring.toNat 31 9 * 512 + 512 * q.midW) ws).updQueue (512 + f) fun q =>
      { q with tailW := q.tailW - 32, midB := q.midB + 1, midW := (q.midW + 1) % b }

/-- The tail of 40 words has room for an item: it has, or a burst leaves for the middle, which a burst into the head makes room for (R251). -/
def State.spillMakeRoom (s : State) (f : Nat) : State :=
  let q := s.queue (512 + f)
  if q.tailW + 5 ≤ 40 then s
  else
    let s := if fld q.rsize.toNat 15 0 ≤ q.midB && q.midB ≠ 0 then s.updQueue (512 + f) fun q => { q with midB := q.midB - 1, headW := q.headW + 32 } else s
    s.spillUp f

/-- An entry enters the tail of its controller's spill queue (R234, R235, R251). -/
def State.spillPush (s : State) (x : Entry) : State :=
  ((s.spillMakeRoom x.func).updCtl x.func fun c =>
    { c with spill := c.spill ++ [{ entry := x, since := s.now }], ledger := { c.ledger with delayed := c.ledger.delayed + 1 } }).updQueue (512 + x.func) fun q =>
    Queue.settle { q with tailW := q.tailW + 5 }

/-- The head of a spill queue leaves it, and its wait is summed (R246). -/
def State.spillPop (s : State) (f : Nat) : State :=
  match (s.ctl f).spill with
  | [] => s
  | x :: rest =>
    let w := (s.now - x.since) / 100
    (s.updCtl f fun c => { c with spill := rest, ledger := { c.ledger with delayTotal := c.ledger.delayTotal + w, delayMax := max c.ledger.delayMax w } }).updQueue
      (512 + f) fun q => Queue.settle { q with headW := q.headW - 5 }

/-! ## Classification (R221, R234) -/

/-- The committed bucket holds the cost, and is debited. -/
def State.debitC (s : State) (f cost : Nat) : Option State :=
  let s := s.fillBkt f
  if cost * bktUnit ≤ (s.ctl f).bktC then some (s.updCtl f fun c => { c with bktC := c.bktC - cost * bktUnit }) else none

/-- The elastic bucket holds the cost, the home tile is below ELIMIT and tail drop does not shut elastic service out; it is debited (R448). -/
def State.debitE (s : State) (f cost : Nat) : Option State :=
  let s := s.fillBkt f
  let open_ := match s.homeTile f with | some t => s.tileOccupied t < (s.quad (quadOfTile t)).elimit | none => false
  if s.pwr.stage = 0 && open_ && cost * bktUnit ≤ (s.ctl f).bktE then some (s.updCtl f fun c => { c with bktE := c.bktE - cost * bktUnit }) else none

/-- An entry past its gates is classified by the first row of R234 that applies; none where it finds no slot or no credit and must wait. -/
def State.classify (s : State) (x : Entry) : Option State :=
  let f := x.func
  match s.engineFor f with
  | none => none
  | some e =>
    let row1 := if (s.ctl f).spill.isEmpty then s.debitC f x.cost else none
    match row1 with
    | some s => some (s.deliver x 0 e)
    | none =>
      let row2 := if (s.ctl f).spill.isEmpty then s.debitE f x.cost else none
      match row2 with
      | some s => some (s.deliver x 1 e)
      | none =>
        if (s.ctl f).spill.length < (s.ctl f).quota then (if s.spillRoom f then some (s.spillPush x) else none)
        else some (s.deliver x 2 e)

/-! ## Commands over a window whose drive is out (R206, R313) -/

/-- The extent that holds an LBA (R214). -/
def Ns.extentOf (n : Ns) (x : Nat) : Option Extent := n.extents.find? fun e => e.nstart ≤ x && x < e.nstart + e.len
/-- The port of the extent carries two drives (R275). -/
def State.dualPort (s : State) (port : Nat) : Bool := (s.group (port / 2)).gmode = 1 && (s.group (port / 2)).qmode (port % 2) = 3
/-- The drive index of an extent: DNSID[31] names the link on a DUAL port (R275, R302). -/
def State.extDrive (s : State) (x : Extent) : Nat := driveIndex x.dport (s.dualPort x.dport && x.dnsid.getLsbD 31)
/-- The drive is quarantined or absent, or not yet back from it (R206; DEDUCED for the states INIT, UNSUPPORTED and UNKNOWN, log 33). -/
def State.drvOut (s : State) (d : Nat) : Bool := (s.drive d).st ≠ 2 && (s.drive d).st ≠ 3

/-- The molt is paused over a journalled window whose drive is quarantined or absent: the window stays gated, and commands held over it complete
with Namespace Not Ready (R206, R313). -/
def State.pendingOut (s : State) (m : Nat) : Bool :=
  let r := s.molt m
  r.st = 3 && r.win = 6 && match (s.ns r.nsx).extentOf r.wmark with | some x => s.drvOut (s.extDrive x) | none => false

/-- A spilled or held entry completes with a generic status, and its CID is free (R241, R242, R321). -/
def State.entryFail (s : State) (sc : Nat) (x : Entry) : State :=
  let cid := fld (x.sqe.getD 0 0).toNat 31 16
  let s := if x.conflict then s else s.updCtl x.func fun c => c.setSq x.sqid { c.sq x.sqid with cids := (c.sq x.sqid).cids.erase cid }
  s.cplPost x.func { sqid := x.sqid, cid := cid, dw0 := 0, sct := 0, sc := sc, dnr := false, crd := 0, src := none }

/-- An entry meets the gates: a closed gate that it overlaps holds it, while the quadrant's store of 256 has room, or completes it where
the drive behind the gate is out; otherwise it is classified (R195, R206, R221). None where it must wait unfetched. -/
def State.admitEntry (s : State) (x : Entry) : Option State :=
  let q := s.quad (s.funcQuad x.func)
  match q.gateFor x with
  | some m =>
    if s.pendingOut m then some (s.entryFail 0x82 x)
    else if q.heldCount < 256 then
      let g := q.gate m
      let s := s.setQuad (s.funcQuad x.func) (q.setGate m { g with held := g.held ++ [{ entry := { x with heldBy := some m }, since := s.now }] })
      some (s.updCtl x.func fun c => { c with ledger := { c.ledger with heldMolt := c.ledger.heldMolt + 1 } })
    else none
  | none => s.classify x

/-- The gate holds the entry now; an entry of its store that it does not hold has been released (R195, R197). -/
def Gate.holds (g : Gate) (x : Entry) : Bool := g.en && g.closed && x.overlaps g

/-- The released entries among `l`, the store of a gate, go to dispatch in the order they were held, as far as slots allow; one that must wait holds back
the later ones of its submission queue. The answer is what stays in the store (R197). -/
def drainReleased (s : State) (q m : Nat) : List Spilled → List (Nat × Nat) → List Spilled × State
  | [], _ => ([], s)
  | x :: rest, stuck =>
    let key := (x.entry.func, x.entry.sqid)
    if ((s.quad q).gate m).holds x.entry || stuck.contains key then
      let r := drainReleased s q m rest stuck
      (x :: r.1, r.2)
    else match s.admitEntry x.entry with
      | none => let r := drainReleased s q m rest (key :: stuck); (x :: r.1, r.2)
      | some t => drainReleased (t.updCtl x.entry.func fun c =>
          { c with ledger := { c.ledger with holdTotal := c.ledger.holdTotal + (s.now - x.since) / 100 } }) q m rest stuck

/-- A gate goes on releasing: its store is emptied, dispatched as far as it goes, and what stays put before what the gate has held meanwhile. -/
def State.gateDrain (s : State) (q m : Nat) : State :=
  let held := ((s.quad q).gate m).held
  let r := drainReleased (s.updQuad q fun x => x.setGate m { x.gate m with held := [] }) q m held []
  r.2.updQuad q fun x => x.setGate m { x.gate m with held := r.1 ++ (x.gate m).held }

/-- A released entry of a submission queue waits for dispatch in a gate's store: nothing later of that queue goes before it (R197). -/
def Quad.releasedOf (q : Quad) (f sq : Nat) : Bool := q.gates.any fun p => p.2.held.any fun x => x.entry.func = f && x.entry.sqid = sq && !p.2.holds x.entry

/-- The commands that gate m of a quadrant holds complete with Namespace Not Ready (R206, R313). -/
def State.failHeld (s : State) (q m : Nat) : State :=
  let held := ((s.quad q).gate m).held
  let s := s.updQuad q fun x => x.setGate m { x.gate m with held := [] }
  held.foldl (fun s x => (s.updCtl x.entry.func fun c =>
    { c with ledger := { c.ledger with holdTotal := c.ledger.holdTotal + (s.now - x.since) / 100 } }).entryFail 0x82 x.entry) s

/-- Every gate of a quadrant goes on releasing. -/
def State.release (s : State) (q : Nat) : State := (s.quad q).gates.foldl (fun s p => s.gateDrain q p.1) s

/-- QDn_GCTRL.OPEN (R197). -/
def State.gateOpen (s : State) (q m : Nat) : State :=
  if ((s.quad q).gate m).closed then
    (s.updQuad q fun q => q.setGate m { q.gate m with closed := false, drainedEvt := false }).gateDrain q m
  else s

/-- QDn_GCTRL.CLOSE over [lo, hi): the phase flips; a CLOSE of a closed gate is discarded and sets ERR (R195, R231). -/
def State.gateClose (s : State) (q m lo hi : Nat) : State :=
  s.updQuad q fun q =>
    let g := q.gate m
    q.setGate m (if g.closed then { g with err := true } else { g with closed := true, phase := !g.phase, lo := lo, hi := hi, drainedEvt := false })

/-- The gate is DRAINED: closed, and the earlier phase's counter is 0 (R196). -/
def Gate.drained (g : Gate) : Bool := g.closed && (if g.phase then g.cnt0 else g.cnt1) = 0

def execGateClose (q : QuadId) (m : MoltId) (s : State) : Res :=
  .next (s.gateClose q m ((s.quad q).gate m).loR.toNat ((s.quad q).gate m).hiR.toNat)
def execGateOpen (q : QuadId) (m : MoltId) (s : State) : Res := .next (s.gateOpen q m)

/-! ## The submission fetch (R220, R221) -/

/-- Entries a submission queue holds for the dispatcher. -/
def Sq.count (q : Sq) : Nat := (q.tail + q.size - q.head) % max 1 q.size

/-- The dispatcher may fetch from the queue now: the controller runs and can make requests, the queue has an entry, and for I/O the quadrant's admission
entry has EN, the home tile has a free slot and the queue is not being deleted (R220, R231, R241, R283, R288; log 103). -/
def State.fetchable (s : State) (f sq : Nat) : Bool :=
  let c := s.ctl f
  let q := c.sq sq
  c.rdy && !c.cfs && !c.ending && !c.d3 && s.ideOk f && q.live && q.deleting.isNone && q.head ≠ q.tail
    && (sq = 0 || (c.admw1.getLsbD 31 && (s.engineFor f).isSome && !(s.quad (s.funcQuad f)).releasedOf f sq))

/-- Controller and queue of every fetchable queue of a quadrant, in order of number; ring A holds the controllers whose committed bucket is
nonempty and whose spill queue is empty (R220). -/
def State.ring (s : State) (q : Nat) (a : Bool) : List (Nat × Nat) :=
  (s.funcsOf q).flatMap fun f =>
    let c := (s.fillBkt f).ctl f
    if (c.bktC ≠ 0 && c.spill.isEmpty) = a then (c.sqs.map Prod.fst).filterMap (fun k => if s.fetchable f k then some (f, k) else none) else []

/-- The queue that a ring serves next: the present one until it has given 8 entries, then the controller's next queue, then the next
controller, in rotation (R220). -/
def ringNext (r : List (Nat × Nat)) (cur : Nat × Nat) (turn : Nat) : Option (Nat × Nat) :=
  if turn < 8 && r.contains cur then some cur
  else match r.find? fun p => cur.1 < p.1 || (p.1 = cur.1 && cur.2 < p.2) with
    | some p => some p
    | none => r.head?

/-- The turn of a quadrant's ring after one entry of a queue, or after a queue whose entry had to wait. -/
def Quad.advance (x : Quad) (a : Bool) (p : Nat × Nat) (took : Bool) : Quad :=
  if a then { x with curA := p, turnA := if !took then 8 else if x.curA = p && x.turnA < 8 then x.turnA + 1 else 1 }
  else { x with curB := p, turnB := if !took then 8 else if x.curB = p && x.turnB < 8 then x.turnB + 1 else 1 }

/-- One entry leaves a submission queue, its CID outstanding (R242). -/
def Ctl.take (c : Ctl) (sq cid : Nat) : Ctl :=
  let q := c.sq sq
  c.setSq sq { q with head := (q.head + 1) % max 1 q.size, cids := if q.cids.contains cid then q.cids else q.cids ++ [cid] }

/-- One fetched I/O entry through R221; none where it must stay in the host's queue. -/
def State.takeIo (s : State) (f sq : Nat) (w : List Word) : Option State :=
  let cid := fld (w.getD 0 0).toNat 31 16
  let conflict := ((s.ctl f).sq sq).cids.contains cid
  let nsx := s.nsOf f (w.getD 1 0).toNat
  let x : Entry := { func := f, sqid := sq, sqe := w, nsx := nsx.getD 0, cost := s.costOf (nsx.getD 0) w, fetched := s.now, heldBy := none, conflict := conflict }
  let r := match nsx, s.engineFor f with
    | none, some e => some (s.deliver x 4 e)
    | some _, some e => if 3 ≤ s.pwr.stage then some (s.deliver x 3 e) else s.admitEntry x
    | _, none => none
  r.map fun s => s.updCtl f fun c => c.take sq cid

/-- One fetched admin entry: it goes to the warden, but for one whose CID is outstanding, which completes with Command ID Conflict (R216, R242). -/
def State.takeAdmin (s : State) (q f : Nat) (w : List Word) (cid : Nat) : State :=
  let s' := s.updCtl f fun c => c.take 0 cid
  if ((s.ctl f).sq 0).cids.contains cid then
    (s'.countViolation f).cplPost f { sqid := 0, cid := cid, dw0 := 0, sct := 0, sc := 0x03, dnr := true, crd := 0, src := none }
  else s'.updQuad q fun x => { x with admin := x.admin ++ [(f, w)] }

/-- SQ_ENTRY_FETCH: the quadrant's dispatcher reads the next entry in ring order from host memory, where it has the 64 bytes given, and
resolves, gates, classifies and dispatches it; an admin entry goes to the warden. A fetch that ends in an error fails the controller
(R216, R220, R221, R242). -/
def execSqEntryFetch (q : QuadId) (sqe : Bytes) (err : Bool) (s : State) : Res :=
  .next (
    let s := s.release q
    let x := s.quad q
    if !x.en || s.flt.qquad.getLsbD q then s
    else
      let ra := s.ring q true
      let pick := match ringNext ra x.curA x.turnA with
        | some p => some (true, p)
        | none => (ringNext (s.ring q false) x.curB x.turnB).map fun p => (false, p)
      match pick with
      | none => s
      | some (a, (f, k)) =>
        if err then (s.ctlFail f true).updQuad q fun x => x.advance a (f, k) false
        else
          let w := toWords 16 sqe
          let cid := fld (w.getD 0 0).toNat 31 16
          let r := if k = 0 then some (s.takeAdmin q f w cid)
                   else s.takeIo f k w
          (r.getD s).updQuad q fun x => x.advance a (f, k) r.isSome)

/-! ## Spill service (R235) -/

/-- The spill head of a controller is dispatched, if its bucket, the tile and its gates allow (R235). -/
def State.serveSpill (s : State) (f : Nat) : Option State :=
  match (s.ctl f).spill with
  | [] => none
  | x :: _ =>
    if (s.queue (512 + f)).headW < 5 then none
    else
      let q := s.quad (s.funcQuad f)
      match q.gateFor x.entry with
      | some _ => (s.admitEntry x.entry).map fun s => s.spillPop f
      | none =>
        match s.engineFor f with
        | none => none
        | some e =>
          match s.debitC f x.entry.cost with
          | some s => some ((s.deliver x.entry 0 e).spillPop f)
          | none => (s.debitE f x.entry.cost).map fun s => (s.deliver x.entry 1 e).spillPop f

/-- An uncorrectable error in the dispatcher's held store or admission table while it writes an item: the item is rewound and the fault raised (R253,
R319). -/
def State.dispatchFault (s : State) (q : QuadId) (f : Nat) : State :=
  let s := match s.engineFor f with
    | some e => s.updQueue e fun x => { x with rewinds := if x.rewinds = 0xFF then x.rewinds else x.rewinds + 1 }
    | none => s
  s.faultEvent (q.val / 2) 0x20 q 0

/-- SPILL_SERVICE: the next nonempty spill queue of the quadrant has its turn; none is served during tail-drop stage 3. `err`: a word of the item, or the
admission table, reads back uncorrectable (R235, R253, R319, R448). -/
def execSpillService (q : QuadId) (s : State) (err : Bool := false) : Res :=
  .next (
    let s := s.release q
    let x := s.quad q
    if !x.en || 3 ≤ s.pwr.stage || s.flt.qquad.getLsbD q then s
    else
      let fs := (s.funcsOf q).filter fun f => !(s.ctl f).spill.isEmpty
      match (match fs.find? fun f => x.spillCur < f with | some f => some f | none => fs.head?) with
      | none => s
      | some f => if err then s.dispatchFault q f else ((s.serveSpill f).getD s).updQuad q fun x => { x with spillCur := f })

/-! ## Doorbells (R209, R242) -/

/-- SQ_DOORBELL: a host writes doorbell `index` of a controller's BAR: 2q the tail of submission queue q, 2q + 1 the head of completion queue
q. A queue that does not exist, or a value beyond its size, is ignored, counted and answered with an Error Status event (R242, R279). -/
def execSqDoorbell (f : FuncId) (index : Fin 130) (value : Word) (s : State) : Res :=
  .next (
    let c := s.ctl f
    let i := index.toNat / 2
    let v := fld value.toNat 15 0
    if !c.funcOn || c.d3 || !s.ideOk f then s
    else if index.toNat % 2 = 0 then
      let q := c.sq i
      if !q.live then (s.countViolation f).asyncEvent f 0x00010000#32
      else if q.size ≤ v then (s.countViolation f).asyncEvent f 0x00010100#32
      else s.updCtl f fun c => c.setSq i { q with tail := v }
    else
      let q := c.cq i
      if !q.live then (s.countViolation f).asyncEvent f 0x00010000#32
      else if q.size ≤ v then (s.countViolation f).asyncEvent f 0x00010100#32
      else (s.updCtl f fun c => c.setCq i { q with head := v }).cplDrain f)

/-! ## The admission table and the tenant ledger (R231, R247) -/

def execAdmidxWr (q : QuadId) (f : FuncId) (s : State) : Res :=
  .next ((s.admWrite q f (s.quad q).admw0 (s.quad q).admw1).updQuad q fun x => { x with admFunc := f })

/-- The entry of a controller loaded into the quadrant's registers; ADMSPILL is the depth of its spill queue, which the quadrant that serves it holds. -/
def State.admRead (s : State) (q f : Nat) : State :=
  s.updQuad q fun x => { x with admFunc := f, admw0 := (s.admEntry q f).1, admw1 := (s.admEntry q f).2
                                admSpill := if s.funcQuad f = q then (s.ctl f).spill.length else 0 }

def execAdmidxRd (q : QuadId) (f : FuncId) (s : State) : Res :=
  .next (s.admRead q f)

/-- One controller's ledger record copied to buffer DRAM, with its present spill depth (R246, R247). -/
def State.ledgerCopy (s : State) (f : Nat) : State :=
  s.updCtl f fun c => { c with ledger := { c.ledger with spillDepth := c.spill.length }, ledgerCopy := { c.ledger with spillDepth := c.spill.length } }

/-- LEDGER_COPY: a quadrant's dispatcher copies the records of its controllers (R247). -/
def execLedgerCopy (q : QuadId) (s : State) : Res := .next ((s.funcsOf q).foldl State.ledgerCopy s)

/-- CQ_FULL_TIMEOUT: a completion has waited 1 s on a full completion queue, and its controller fails (R225, R242). -/
def execCqFullTimeout (f : FuncId) (s : State) : Res :=
  .next (
    let c := s.ctl f
    if !c.d3 && c.waitCpl.any fun w => (c.cq (c.sq w.sqid).cq).full then s.ctlFail f true else s)

end Sys2Proof.Machine
end

