-- ==== Sys2Proof/Machine/MoltOps.lean ====
section
/-!
DEFINITION. What molts, erases and provisioning share: keyslot records and bands (R142 to R152), extents and drives (R214, R302), the molt
record, its gates and journal, and the transitions of R192 and R206.
-/

namespace Sys2Proof.Machine

/-! ## Records, bands and extents -/

/-- Offset of the keyslot table in each stack, as the warden placed it; before that, as TILE0_KSBASE has it (R142, R167). -/
def State.tableAt (s : State) : Nat := s.boot.tableBase.getD (fld (s.tile 0).ksbase.toNat 4 0 * 2 ^ 27)

/-- The record of a keyslot in the stack A copy. -/
def State.krec (s : State) (slot : Nat) : List Byte := s.dramBytes (s.tableAt + 128 * slot) 128

/-- A record written by the warden to both copies (R148). -/
def State.putRec (s : State) (slot : Nat) (r : List Byte) : State :=
  (s.dramPut (s.tableAt + 128 * slot) r).dramPut (2 ^ 32 + s.tableAt + 128 * slot) r

/-- Keyslots whose record has been written since the table was set up: only these can be ACTIVE or ERASED. -/
def State.tableSlots (s : State) : List Nat :=
  let base := s.tableAt
  (s.stackA.filter fun c => base ≤ c.1 && c.1 < base + 2 ^ 27 && (c.1 - base) % 128 = 3).map fun c => (c.1 - base) / 128

/-- Slots whose record is ACTIVE and matches. -/
def State.activeSlots (s : State) (m : List Byte → Bool) : List Nat :=
  s.tableSlots.filter fun k => recFmt (s.krec k) = 1 && recState (s.krec k) = 1 && m (s.krec k)

/-- VALID and handle of a band table word (R151). -/
def bandValid (w : Word) : Bool := w.getLsbD 31
def bandHandle (w : Word) : BitVec 24 := w.truncate 24
def mkBandWord (h : BitVec 24) : Word := 0x80000000#32 ||| h.zeroExtend 32

def Ns.band (n : Ns) (b : Nat) : Band := Tbl.get Band.init n.bands b
def Ns.setBand (n : Ns) (b : Nat) (x : Band) : Ns := { n with bands := Tbl.set Band.init n.bands b x }
/-- First LBA of band b, and the first LBA after it (R152). -/
def Ns.bandLo (n : Ns) (b : Nat) : Nat := if b = 0 then 0 else (n.band b).start
def Ns.bandHi (n : Ns) (b : Nat) : Nat := if b + 1 < n.nbands then (n.band (b + 1)).start else n.nsze
/-- The band of an LBA (R152). -/
def Ns.bandOf (n : Ns) (x : Nat) : Nat := ((List.range n.nbands).filter fun b => n.bandLo b ≤ x).length - 1

/-- Extents that meet [lo, hi). -/
def Ns.extentsIn (n : Ns) (lo hi : Nat) : List Extent := n.extents.filter fun e => e.nstart < hi && lo < e.nstart + e.len

/-- The namespace identifier on the drive. -/
def State.extNsid (s : State) (x : Extent) : Nat := if s.dualPort x.dport then x.dnsid.toNat % 2 ^ 31 else x.dnsid.toNat
/-- What the drive reported of the extent's namespace. -/
def State.extNs (s : State) (x : Extent) : DrvNs := Tbl.get DrvNs.init (s.drive (s.extDrive x)).ident.nss (s.extNsid x)
/-- Die of a drive's port group. -/
def dieOfDrive (d : Nat) : Nat := d / 32

/-- The drive namespace meets R123 for LBAs of the given size. -/
def gcmOk (d : DrvNs) (lbads : Nat) : Bool := d.lbads = lbads && (d.msize = 32 || d.msize = 64 || d.msize = 128) && !d.extLba

/-- The drive takes I/O (R303). -/
def State.drvActive (s : State) (d : Nat) : Bool := (s.drive d).st = 2

/-! ## The molt record (R187 to R192) -/

/-- The band's CTRL owner, as the old keyslot's record names it. -/
def State.moltOwner (s : State) (m : Nat) : Nat := recCtrl (s.krec (handleSlot (s.molt m).old))

/-- The journal entry of a molt is written (R200). -/
def State.moltJournal (s : State) (m : Nat) (pend : Bool) (fp : DWord) : State :=
  let r := s.molt m
  let e : Journal := if r.st = 0 then Journal.init else
    { used := true, nsx := r.nsx, band := r.band, pend := pend, pcause := if r.st = 3 then r.pcause else 0, old := r.old, new := r.new
      wmark := r.wmark, wlen := if pend then r.wend - r.wmark else 0, fp := fp }
  s.updVault fun v => { v with journal := Tbl.set Journal.init v.journal m e }

def State.journalOf (s : State) (m : Nat) : Journal := Tbl.get Journal.init s.vault.journal m

/-- Quadrants whose gate m is programmed for the molt (R193). -/
def State.moltGates (s : State) (m : Nat) : List Nat := (List.range 4).filter fun q => ((s.quad q).gate m).en

def State.moltOpen (s : State) (m : Nat) : State := (s.moltGates m).foldl (fun s q => s.gateOpen q m) s
def State.moltClose (s : State) (m lo hi : Nat) : State := (s.moltGates m).foldl (fun s q => s.gateClose q m lo hi) s

/-- Work is posted to an engine's molt work queue: 1 RUN, 2 GO, 3 RESOLVE, 4 ABANDON; without a credit it is discarded with OVF (R199, R227, R250,
R257). -/
def State.moltWork (s : State) (m kind : Nat) : State :=
  let e := (s.molt m).engine
  if (s.queue (256 + e)).en && (s.eng e).moltq.length < 64 then s.updEng e fun g => { g with moltq := g.moltq ++ [(kind, m)] }
  else s.updQueue (256 + e) fun q => { q with ovf := true }

/-- The drive of the window at the watermark. -/
def State.moltDrive (s : State) (m : Nat) : Option Nat :=
  ((s.ns (s.molt m).nsx).extentOf (s.molt m).wmark).map s.extDrive

/-- The fault ledger has quarantined the engine, its tile or its quadrant (R326). -/
def State.engQuar (s : State) (e : Nat) : Bool := Tbl.get false s.flt.qeng e || s.flt.qtile.getLsbD (tileOf e) || s.flt.qquad.getLsbD (quadOfEng e)

/-- The engine that vendor firmware places the next window on: of the drive's die, neither halted nor quarantined, with the fewest occupied
slots, the lowest index on ties (R202). -/
def State.moltPick (s : State) (d : Nat) : Option Nat :=
  (((List.range 64).map fun i => 64 * dieOfDrive d + i).filter fun e => s.tileAvail (tileOf e) && (s.eng e).run ≠ 2 && !s.engQuar e).foldl
    (fun best e => match best with
      | some b => if (s.eng e).occupied < (s.eng b).occupied then some e else best
      | none => some e) none

/-- No engine can run the molt's next window now (R202). -/
def State.moltNoEng (s : State) (m : Nat) : Bool := match s.moltDrive m with | some d => (s.moltPick d).isNone | none => false

/-- The causes of R191 that arise and clear by themselves: TAIL_DROP, DRIVE, EPOCH_LOST, and FAULT where the molt's engine is quarantined and no other can
be assigned. -/
def State.moltCauses (s : State) (m : Nat) : List Nat :=
  let r := s.molt m
  let n := s.ns r.nsx
  (if 1 ≤ s.pwr.stage then [2] else []) ++
  (if (n.extentsIn (n.bandLo r.band) r.bend).any fun x => s.drvOut (s.extDrive x) then [3] else []) ++
  (if s.vault.epochst ≠ 1 then [4] else []) ++
  (if s.engQuar r.engine && s.moltNoEng m then [6] else [])

/-- The molt's PLACE is chosen anew. -/
def State.moltPlace (s : State) (m : Nat) : State :=
  match (s.moltDrive m).bind s.moltPick with
  | some e => s.updMolt m fun r => { r with engine := e }
  | none => s

/-- A window that has not passed step 5 is abandoned: its engine is told, the gates open, nothing was written (R199). -/
def State.moltAbandon (s : State) (m : Nat) : State :=
  let r := s.molt m
  let s := if r.win = 2 then s.moltWork m 4 else s
  ((s.updMolt m fun r => { r with win := 0, wend := r.wmark, promoted := false, lost := 0, since := s.now }).moltOpen m).moltPlace m

/-- A molt goes to PAUSED with a cause; owner and operator hear of DRIVE, EPOCH_LOST, DRAIN and FAULT, and a pause that only molt-resume clears is
journalled. A PAUSED molt whose cause changes shows the new one (R191, R192, R200, R248). -/
def State.moltPause (s : State) (m cause : Nat) : State :=
  let r := s.molt m
  if r.st = 3 && r.cause = cause then s
  else
    let s := s.updMolt m fun r => { r with st := 3, cause := cause }
    let d : Word := BitVec.ofNat 32 (cause * 256 + m)
    let s := if 3 ≤ cause && r.st ≠ 3 then (s.tenantEvent (s.moltOwner m) 0x0C 0 0 d).emit (.operator 0x0C d) else s
    if r.pcause ≠ 0 then s.moltJournal m (r.win = 6) (s.journalOf m).fp else s

/-- WMARK reached BEND: the hand-over closes every gate over the whole band (R192). With no gate programmed nothing has to drain, and the hand-over
is carried out at the molt's next timer. -/
def State.moltSwitch (s : State) (m : Nat) : State :=
  let r := s.molt m
  (s.updMolt m fun r => { r with st := 5, win := 5, pcause := 0, retry := (s.moltGates m).isEmpty }).moltClose m ((s.ns r.nsx).bandLo r.band) r.bend

/-- The transitions that the molt's causes call for now (R192, R201, R206). -/
def State.moltStep (s : State) (m : Nat) : State :=
  let r := s.molt m
  let auto := s.moltCauses m
  let cause := if r.pcause ≠ 0 then r.pcause else auto.headD 0
  if !s.fwUp || r.st = 0 || r.st = 1 || r.st = 5 then s
  else
    let stuck := auto.contains 3 || auto.contains 4 || auto.contains 6 || 3 ≤ s.pwr.stage
    let s := if (r.win = 3 || r.win = 4) && (auto.contains 3 || auto.contains 4 || 3 ≤ s.pwr.stage) then s.updMolt m fun r => { r with win := 6 } else s
    let r := s.molt m
    if r.win = 6 then
      if stuck || r.pcause = 6 then
        let s := s.moltPause m cause
        if s.pendingOut m then (s.moltGates m).foldl (fun s q => s.failHeld q m) s else s
      else if r.retry || s.moltNoEng m then s.updMolt m fun r => { r with st := 4 }
      else ((s.updMolt m fun r => { r with st := 4, win := 4 }).moltPlace m).moltWork m 3
    else if r.win = 3 || r.win = 4 then s
    else if cause ≠ 0 then (if r.win = 1 || r.win = 2 then (s.moltAbandon m).moltPause m cause else s.moltPause m cause)
    else if r.bend ≤ r.wmark then s.moltSwitch m
    else if r.st = 3 || r.st = 4 then (s.updMolt m fun r => { r with st := 2 }).moltPlace m
    else s

/-- A claim of the molt is ready (R203). -/
def State.moltReady (s : State) (m : Nat) : Bool :=
  let r := s.molt m
  (r.st = 1 || r.st = 2) && r.win = 0 && !r.retry && r.pcause = 0 && (s.moltCauses m).isEmpty

/-- The molt's causes are looked at again; the wait of a claim runs only while it is ready (R192, R203). -/
def State.moltCheck (s : State) (m : Nat) : State :=
  let was := s.moltReady m
  let s := s.moltStep m
  if !was && (s.molt m).win = 0 && (s.molt m).st ≠ 0 then s.updMolt m fun r => { r with since := s.now } else s

/-- Every molt meets its causes again. -/
def State.moltsCheck (s : State) : State := (s.molts.map Prod.fst).foldl State.moltCheck s

/-- The watermark is published under R189, and the gates open behind it (R197). -/
def State.moltPublish (s : State) (m wm : Nat) : State :=
  (s.updMolt m fun r => { r with wmark := wm, wend := wm, wseq := r.wseq + 2, win := 0, promoted := false, lost := 0, since := s.now }).moltOpen m

/-- A molt's record becomes FREE: journal entry and map byte go with it, its gates open and are no longer programmed (R192, R193, R200). -/
def State.moltFree (s : State) (m : Nat) : State :=
  let r := s.molt m
  let s := if 2 ≤ r.win && r.win ≤ 4 then s.moltWork m 4 else s
  let gs := s.moltGates m
  let s := (s.setMolt m Molt.init).moltJournal m false 0
  gs.foldl (fun s q => (s.gateOpen q m).updQuad q fun q => q.setGate m { q.gate m with en := false }) s

/-- An erase covers a key of the molt: the erase wins, the molt ends, and the band keeps its erased HANDLE with no NEXT (R206). -/
def State.moltErased (s : State) (m : Nat) : State :=
  let r := s.molt m
  (s.updNs r.nsx fun n => n.setBand r.band { n.band r.band with next := 0 }).moltFree m

/-- An engine is lost to the molts placed on it: a window before step 5 is abandoned, a later one resolved by another engine (R206). -/
def State.moltEngineLost (s : State) (e : Nat) : State :=
  ((s.molts.filter fun p => p.2.st ≠ 0 && p.2.engine = e).map Prod.fst).foldl (fun s m =>
    let r := s.molt m
    let s := if r.win = 1 || r.win = 2 then s.moltAbandon m
             else if r.win = 3 || r.win = 4 then s.updMolt m fun r => { r with win := 6 } else s.moltPlace m
    s.moltCheck m) s

/-- Length of the window at the watermark: within the extent and the band, at most WLIMIT, and across no atomic boundary of the drive (R198). -/
def State.moltWindow (s : State) (m : Nat) : Nat :=
  let r := s.molt m
  match (s.ns r.nsx).extentOf r.wmark with
  | none => 0
  | some x =>
    let d := s.extNs x
    let dl := x.dstart + (r.wmark - x.nstart)
    let room := if !d.nsfeat1 || d.nabspf = 0 then 2 ^ 64 else if dl < d.nabo then d.nabo - dl else d.nabspf + 1 - (dl - d.nabo) % (d.nabspf + 1)
    min (min (x.nstart + x.len - r.wmark) (r.bend - r.wmark)) (min r.wlimit room)

/-- The atomic write unit for power fail of the extent's drive namespace, in LBAs: its own, or the controller's (R198). -/
def State.extAtomic (s : State) (x : Extent) : Nat :=
  let d := s.extNs x
  if d.nsfeat1 then d.nawupf + 1 else (s.drive (s.extDrive x)).ident.awupf + 1

/-- WLIMIT: the atomic write unit for power fail of the drive namespace, at most 256 KiB (R198). -/
def State.moltLimit (s : State) (m : Nat) : Nat :=
  let r := s.molt m
  match (s.ns r.nsx).extentOf r.wmark with
  | none => 0
  | some x => max 1 (min (s.extAtomic x) (2 ^ 18 / 2 ^ (s.ns r.nsx).lbads))

/-- Gate m is programmed with the namespace in every quadrant that has an upstream port with a controller attached to it (R193). -/
def State.moltProgram (s : State) (m nsx : Nat) : State :=
  let qs := (s.funcs.filter fun f => (s.ctl f).attach.any fun p => p.2 = nsx + 1).map s.funcQuad
  qs.foldl (fun s q => s.updQuad q fun q => q.setGate m { q.gate m with en := true, nsx := nsx }) s

/-- A molt's claim or window work is promoted, which the ledger of the band's owner counts as a BACKGROUND_AGED event (R203, R509). -/
def State.moltPromote (s : State) (m : Nat) : State :=
  if (s.molt m).promoted then s
  else (s.updMolt m fun r => { r with promoted := true }).tenantEvent (s.moltOwner m) 0x08 0 7 (BitVec.ofNat 32 m)

/-- Spill blocks of the window that a molt has open on an engine of a tile (R205). -/
def State.moltBlocks (s : State) (t : Nat) : Nat :=
  (s.molts.map fun p => if tileOf p.2.engine = t && 1 ≤ p.2.win && p.2.win ≤ 4 then ((p.2.wend - p.2.wmark) * 2 ^ (s.ns p.2.nsx).lbads + 4095) / 4096 else 0).sum

/-- The molt table and map are rebuilt from the journal at start-up and after a warden restart: an entry whose namespace or band is gone is
cleared; a pending window is gated again and resolved first, whatever pause holds; a pause that only molt-resume clears holds (R206, R340). -/
def State.moltRebuild (s : State) : State :=
  s.vault.journal.foldl (fun s p =>
    let m := p.1
    let j := p.2
    let n := s.ns j.nsx
    if !j.used then s
    else if !n.valid || n.nbands ≤ j.band then
      (s.updVault fun v => { v with journal := Tbl.set Journal.init v.journal m Journal.init }).emit (.operator 0x81 (BitVec.ofNat 32 m))
    else
      let r : Molt := { Molt.init with st := if j.pend then 4 else 2, band := j.band, nsx := j.nsx, old := j.old, new := j.new, wmark := j.wmark
                                       bend := n.bandHi j.band, wend := if j.pend then j.wmark + j.wlen else j.wmark
                                       pcause := if j.pend && j.pcause = 6 then 0 else j.pcause
                                       moved := j.wmark - n.bandLo j.band, win := if j.pend then 6 else 0 }
      let s := (s.setMolt m r).moltProgram m j.nsx
      let s := s.updMolt m fun r => { r with wlimit := s.moltLimit m }
      let s := if j.pend then s.moltClose m j.wmark (j.wmark + j.wlen) else s
      ((s.moltPlace m).moltCheck m).updMolt m fun r => { r with pcause := j.pcause }) s

end Sys2Proof.Machine
end

