-- ==== Sys2Proof/Machine/Vault.lean ====
section
/-!
DEFINITION. The Vunilyn vault (R364 to R395): derived keys, provisioning, the epoch and its shares, tamper trips, retention, wakes, the
retained ledger and the vault commands.
-/

namespace Sys2Proof.Machine

/-! ## Keys (R365) -/

def ascii (t : String) : List Byte := t.toList.map fun c => BitVec.ofNat 8 c.toNat
/-- A value as a byte string in little-endian order. -/
def bvBytes {w : Nat} (n : Nat) (x : BitVec w) : List Byte := leBytes n x.toNat

def wkOf (secret : BitVec 256) (epoch : Nat) : BitVec 256 :=
  BitVec.ofNat 256 (ofLe ((shake256x64 (ascii "ODNV-WRAP" ++ bvBytes 32 secret ++ leBytes 2 epoch)).take 32))
def checkOf (secret : BitVec 256) (epoch : Nat) : BitVec 128 :=
  BitVec.ofNat 128 (ofLe ((shake256x64 (ascii "ODNV-CHECK" ++ bvBytes 32 secret ++ leBytes 2 epoch)).take 16))
/-- Share wrapping key SWK. -/
def swk : List Byte := (shake256x64 (ascii "ODNV-SHARE" ++ bvBytes 32 Config.deviceKey)).take 32
/-- Seeds of the import key pair, and the slot 0 signing key before its reduction. -/
def mlkemSeed : List Byte := shake256x64 (ascii "ODNV-MLKEM" ++ bvBytes 32 Config.deviceKey)
def idSeed : List Byte := shake256x64 (ascii "ODNV-ID" ++ bvBytes 32 Config.deviceKey)

/-! Primitives of the standards (log 6): 1 ML-KEM-1024 encapsulation key, 2 decapsulation, 3 P-384 public key, 4 ECDSA signature, 5 ECDH. -/

def encapKey : List Byte := Config.primitive 1568 1 mlkemSeed
def mlkemDecap (ct : List Byte) : List Byte := Config.primitive 32 2 (mlkemSeed ++ ct)
def p384Public (d : List Byte) : List Byte := Config.primitive 97 3 d
def ecdsaSign (seed digest : List Byte) : List Byte := Config.primitive 96 4 (seed ++ digest)
def ecdh (d q : List Byte) : List Byte := Config.primitive 48 5 (d ++ q)

/-! ## Events of the vault's own (R36, R183, R370) -/

/-- The purge line is driven, when the VIN domains are on (R36, R372). -/
def State.driveLine (s : State) (cause late : Nat) : State :=
  if s.pwr.vinOn then s.updVault fun v => { v with line := v.line ++ [(cause, late)] } else s

/-- Sensors armed now (R371). -/
def State.sensArmed (s : State) : BitVec 7 :=
  let v := s.vault
  BitVec.ofNat 7 (0b0000101 + (if v.shed then 0 else 0b0100010) + (if s.pwr.vinOn then 0b1001000 else 0) + (if v.glitchArmed then 0b0010000 else 0))

/-- A restore in progress ends: its shares are erased and EPOCHST returns to its state before it (R387). -/
def Vault.endRestore (v : Vault) : Vault :=
  if v.epochst = 4 then { v with epochst := v.before, shares := [], cardFaults := 0, challenge := none } else { v with shares := [] }

/-- TAMPER_TRIP: sensors trip together, `first` the one the mutex resolved first. Armed ones clear the epoch, erase nonces and shares, latch
the trip and drive the purge line (R372, R373). A part with no epoch keeps its state BLANK (log 35). -/
def execTamperTrip (sensors : BitVec 7) (first : Fin 7) (s : State) : Res :=
  .next (
    let hit := sensors &&& s.sensArmed
    if hit = 0 then s
    else
      let f := if hit.getLsbD first then first.toNat else ((List.range 7).find? fun i => hit.getLsbD i).getD 0
      let s := s.updVault fun v =>
        let v := v.endRestore
        { v with secret := 0, epoch := 0, check := 0, wk := none, nonces := [], shares := [], poly := none, live := v.live ||| hit, tamper := true
                 epochst := if v.epochst = 0 then 0 else 2
                 trips := satAdd v.trips 1, first := if v.mask = 0 then f else v.first, mask := v.mask ||| hit }
      let s := s.updVault fun v =>
        { v with tamperRec := some { vtime := s.vtime, sensors := v.mask, first := v.first, epoch := v.trips.toNat, detail0 := s.glb.tj.toNat
                                     detail1 := s.pwr.vin, detail2 := s.pwr.vhold } }
      ((s.driveLine 1 0).vaultEvent 0x01 f).moltsCheck)

/-- VHOLD_GLITCH_ARM: VHOLD has stayed at or above 6.0 V for 1 s; DISARM: it fell below 5.5 V slowly (R371). -/
def execVholdGlitchArm (s : State) : Res := .next (s.updVault fun v => { v with glitchArmed := true })
def execVholdGlitchDisarm (s : State) : Res := .next (s.updVault fun v => { v with glitchArmed := false })

/-- BROWNOUT: the custody rail sags to 0.52 V; the optional sensors are shed (R376). DETAIL names them by their bits (DEDUCED, log 34). -/
def execBrownout (s : State) : Res :=
  .next ((s.updVault fun v => { v with shed := true, brownout := true, brownouts := satAdd v.brownouts 1 }).vaultEvent 0x06 0x22)
/-- BROWNOUT_RECOVERY: the rail has stayed above 0.56 V for 100 ms and the sensors return (R376). -/
def execBrownoutRecovery (s : State) : Res := .next (s.updVault fun v => { v with shed := false })

/-- VHOLD_LOW: VHOLD has been below 6.5 V for 1 s, at the value given in mV (R375). -/
def execVholdLow (mv : Fin 6500) (s : State) : Res :=
  .next (({ s with pwr := { s.pwr with vhold := mv } }.updVault fun v => { v with vholdLow := true, vholdFell := s.vtime }).vaultEvent 0x08 0)
/-- NOHOLD: VHOLD has crossed 4.5 V, to the value given in mV: below it NOHOLD is set while the mode is FULL, and at or above it is clear again
(R375). Warden firmware reports a NOHOLD that has been set to every operator. A VHOLD of 6.5 V or more also ends VHOLD_LOW (DESIGN CHOICE, log 108). -/
def execNohold (mv : BitVec 16) (s : State) : Res :=
  let t := { s with pwr := { s.pwr with vhold := mv.toNat } }.updVault fun v => { v with nohold := mv.toNat < 4500 && (v.nohold || v.full),
                                                                                                       vholdLow := v.vholdLow && mv.toNat < 6500 }
  .next (if t.vault.nohold && !s.vault.nohold && s.fwUp then t.emit (.operator 0x82 0) else t)

/-- What the vault loses with VIN: nonces, shares, the random generator's state and a restore in progress (R364, R378, R387). -/
def Vault.vinLoss (v : Vault) : Vault := { v.endRestore with nonces := [], challenge := none, eph := 0, testChallenge := none, testOpen := false }

/-- The checked regions that fail are reset to their empty state: header, ring, tamper, wake and custody by bit (R369). -/
def Vault.resetRegions (v : Vault) (bad : BitVec 5) : Vault :=
  let v := if bad.getLsbD 0 then { v with slotmapVer := 0, restarts := 0, wfailed := false, rwin := [], evHead := 0, evLost := 0 } else v
  let v := if bad.getLsbD 1 then { v with ring := [] } else v
  let v := if bad.getLsbD 2 then { v with tamperRec := none } else v
  let v := if bad.getLsbD 3 then { v with brownouts := 0, vholdFell := 0, offTime := 0, deepest := 0, wakeValid := false, wakeMask := 0, wakeSrc := 15, wakeTime := 0 } else v
  let v := if bad.getLsbD 4 then { v with custody := none } else v
  if bad = 0 then v else { v with ledgerLost := true }

/-- The vault core starts: the device key is rebuilt or DEVKEY_FAIL set, ledger regions are checked, and an epoch whose retention failed is
cleared and never used: its canary cells, of which `lost` tells, or its check value are wrong (R364, R369, R377); lost retention takes the molt journal and the warden area with it (R200). -/
def State.coreStart (s : State) (lost pufFail noiseOk : Bool) (bad : BitVec 5) : State :=
  let lost := lost || (s.vault.epochst = 1 && s.vault.check ≠ checkOf s.vault.secret s.vault.epoch)
  let s := s.updVault fun v =>
    let v := { v with devkeyFail := pufFail, noise := noiseOk }
    let v := if lost then
        { v.endRestore with secret := 0, epoch := 0, check := 0, wk := none, poly := none, tamper := false, mask := 0, trips := 0, first := 0
                            epochst := if v.endRestore.epochst = 0 then 0 else 3, journal := [], warea := [], nonces := [], wakecfg := [] }
      else v
    let v := v.resetRegions bad
    { v with wk := if v.epochst = 1 && !pufFail then some (wkOf v.secret v.epoch) else none }
  let s := if lost then s.vaultEvent 0x07 0 else s
  s.moltsCheck

def execVaultCoreStart (lost pufFail noiseOk : Bool) (bad : BitVec 5) (s : State) : Res := .next (s.coreStart lost pufFail noiseOk bad)

/-- A wake is recorded (R382). -/
def State.wakeRecord (s : State) (source : Nat) (mask : BitVec 8) : State :=
  (s.updVault fun v => { v with wakeValid := true, wakeMask := mask, wakeSrc := source, wakeTime := BitVec.ofNat 32 (s.vtime.toNat / 32768) }).vaultEvent 0x09 source

/-- NONCE_EXPIRY and RESTORE_TIMEOUT (R173, R387). -/
def execNonceExpiry (f : FuncId) (s : State) : Res := .next (s.updVault fun v => { v with nonces := Tbl.set none v.nonces f none })
def execRestoreTimeout (s : State) : Res := .next (s.updVault Vault.endRestore)

/-! ## Provisioning (R146, R150, R173 to R176) -/

/-- The record of a provisioned key: header, wrapped material with its copy of the header, and cleared usage (R143 to R146). -/
def mkRecord (wk : BitVec 256) (epoch slot gen mode ctrl : Nat) (alt : Option Nat) (nsx band : Nat) (material : List Byte) : List Byte :=
  let hdr := leBytes 4 (2 ^ 28 + gen % 16 * 2 ^ 24 + slot) ++ leBytes 4 (2 ^ 28 + mode * 2 ^ 26 + epoch % 65536)
    ++ leBytes 4 ((match alt with | some a => 2 ^ 31 + a * 2 ^ 16 | none => 0) + ctrl) ++ leBytes 4 (band * 2 ^ 26 + nsx)
  hdr ++ kwWrap (bvBytes 32 wk) (material ++ hdr) ++ List.replicate 24 0

/-- Draws of `n` bytes from the vault's random bit generator (R365): free values. -/
def State.draw (s : State) (n : Nat) : List Byte × State := s.freshBytes n

/-- XTS material: drawn, and drawn again while its halves are equal (R176). After `n` such draws one bit is taken as drawn otherwise (log 99). -/
def State.drawXts : Nat → State → List Byte × State
  | 0, s => let d := s.draw 64; ((d.1.take 32) ++ (match d.1.take 32 with | b :: t => (b ^^^ 1) :: t | [] => []), d.2)
  | n + 1, s => let d := s.draw 64; if d.1.take 32 = d.1.drop 32 then d.2.drawXts n else d

/-- Key material drawn for a mode (R146, R176). -/
def State.drawKey (s : State) (mode : Nat) : List Byte × State :=
  if mode = 1 then s.drawXts 64 else let d := s.draw 32; (d.1 ++ List.replicate 32 0, d.2)

/-- An import's nonce is the controller's outstanding one (R173, R175 row 6). -/
def State.nonceKnown (s : State) (f : Nat) (nonce : List Byte) : Bool :=
  nonce.length = 16 && Tbl.get none s.vault.nonces f = some (BitVec.ofNat 128 (ofLe nonce))

/-- An import attempted with the outstanding nonce uses it up, whatever its outcome (R173). -/
def State.useNonce (s : State) (f : Nat) (nonce : List Byte) : State :=
  if s.nonceKnown f nonce then s.updVault fun v => { v with nonces := Tbl.set none v.nonces f none } else s

/-- Rows 5 to 8 of R175 for an import: 0 and the material, or the outcome's status. -/
def State.vImport (s : State) (known : Bool) (mode : Nat) (aad ct sealed : List Byte) : Nat × List Byte :=
  if s.vault.wk.isNone then (0x105, [])
  else if !known then (0x106, [])
  else match gcmOpen (mlkemDecap ct) (List.replicate 12 0) aad (sealed.take 64) (sealed.drop 64) with
    | none => (0x107, [])
    | some m => if (mode = 2 && (m.drop 32).any (· ≠ 0)) || (mode = 1 && m.take 32 = m.drop 32) then (0x108, []) else (0, m)

/-- The vault issues a controller's import nonce (R173). -/
def State.vNonce (s : State) (f : Nat) : State :=
  let n := s.fresh 128
  n.2.updVault fun v => { v with nonces := Tbl.set none v.nonces f (some n.1) }

/-! ## The epoch and its shares (R366, R384 to R388) -/

def Vault.floor (v : Vault) : Nat := v.floorFuses + 1

/-- A new epoch secret and number take effect, with the keys derived from them; a part whose device key failed uses none (R364, R365). -/
def Vault.setEpoch (v : Vault) (secret : BitVec 256) (epoch : Nat) : Vault :=
  { v with secret := secret, epoch := epoch, check := checkOf secret epoch, epochst := 1, wk := if v.devkeyFail then none else some (wkOf secret epoch) }

/-- New sharing polynomials of degree m - 1 for the present secret (R384). -/
def State.newPoly (s : State) (m : Nat) : State :=
  let cs := (List.range (m - 1)).map fun i => Config.freeBits 256 (s.free + i)
  { s with free := s.free + (m - 1) }.updVault fun v => { v with poly := some cs, issued := [], shared := false }

/-- Share value y of index x: the secret and the polynomial's terms, byte by byte (R384). -/
def shareY (secret : BitVec 256) (poly : List (BitVec 256)) (x : Nat) : List Byte :=
  (poly.foldl (fun (a : List Byte × Byte) c =>
    let p := gmul a.2 (BitVec.ofNat 8 x)
    (xorBytes a.1 ((bvBytes 32 c).map fun b => gmul b p), p)) (bvBytes 32 secret, 1#8)).1

/-- Lagrange interpolation at 0 of shares (R387). -/
def combine (sh : List Share) : BitVec 256 :=
  BitVec.ofNat 256 (ofLe (sh.foldl (fun acc a =>
    let w := sh.foldl (fun (w : Byte) b =>
      if b.index = a.index then w else gmul w (gmul (BitVec.ofNat 8 b.index) (ginv (BitVec.ofNat 8 b.index ^^^ BitVec.ofNat 8 a.index)))) 1#8
    xorBytes acc ((bvBytes 32 a.y).map fun y => gmul y w)) (List.replicate 32 0)))

/-- CUSTODY_INIT (R384). -/
def State.vCustodyInit (s : State) (m n : Nat) : State × Nat :=
  if s.vault.epochst ≠ 0 || s.vault.tamper then (s, 1)
  else if m < 2 || n < m || 8 < n then (s, 2)
  else
    let d := s.fresh 256
    let s := d.2.updVault fun v =>
      { v.setEpoch d.1 v.floor with custody := some { m := m, n := n, gen := 0, epoch := v.floor, cards := [] }, shared := false }
    ((s.newPoly m).moltsCheck, 0)

/-- SHARE_ROTATE (R384). -/
def State.vShareRotate (s : State) : State × Nat :=
  match s.vault.wk, s.vault.custody with
  | none, _ => (s, 3)
  | _, none => (s, 1)
  | some _, some c => ((s.updVault fun v => { v with custody := some { c with gen := (c.gen + 1) % 256 } }).newPoly c.m, 0)

/-- Qe, nonce and signature of a channel exchange; the ephemeral key and nonce are drawn (R386). -/
def State.vChannel (s : State) : (List Byte × List Byte × List Byte) × State :=
  let d := s.draw 48
  let n := d.2.draw 16
  let q := p384Public d.1
  ((d.1, n.1, q ++ n.1 ++ ecdsaSign idSeed (q ++ n.1)), n.2)

/-- Card channel key Kc (R365). -/
def channelKey (d card nonce : List Byte) : List Byte := (shake256x64 (ascii "ODNV-CARD" ++ ecdh d card ++ nonce)).take 32

/-- Plaintext of a share (R385). -/
def shareBytes (x : Share) : List Byte :=
  [BitVec.ofNat 8 x.index, BitVec.ofNat 8 x.m, BitVec.ofNat 8 x.n, BitVec.ofNat 8 x.gen] ++ leBytes 2 x.epoch ++ [0, 0] ++ bvBytes 32 x.y ++ bvBytes 16 x.check

/-- A share read from its plaintext (R385). -/
def shareOfBytes (b : List Byte) : Share :=
  { index := leAt b 0 1, m := leAt b 1 1, n := leAt b 2 1, gen := leAt b 3 1, epoch := leAt b 4 2, y := BitVec.ofNat 256 (leAt b 8 32)
    check := BitVec.ofNat 128 (leAt b 40 16) }

/-- The STORE SHARE data for an index and a card's public key (R386): result and data. -/
def State.vShareOut (s : State) (i : Nat) (card : List Byte) : (Nat × List Byte) × State :=
  let v := s.vault
  match v.wk, v.custody, v.poly with
  | none, _, _ => ((3, []), s)
  | _, none, _ => ((1, []), s)
  | _, _, none => ((1, []), s)
  | some _, some c, some p =>
    if i = 0 || c.n < i || card.length ≠ 97 then ((2, []), s)
    else
      let r := s.vChannel
      let blob := kwWrap swk (shareBytes { index := i, m := c.m, n := c.n, gen := c.gen, epoch := v.epoch
                                           y := BitVec.ofNat 256 (ofLe (shareY v.secret p i)), check := v.check })
      let k := channelKey r.1.1 card r.1.2.1
      let iv : List Byte := List.replicate 12 0
      let ct := gcmPass k iv 0 blob
      ((0, r.1.2.2 ++ ct ++ gcmTag k iv r.1.2.1 ct), r.2)

/-- A share has been issued to an index: the descriptor keeps its card's key hash, and SHARED rises with the last of the N (R368, R383, R393). -/
def State.shareIssued (s : State) (i : Nat) (card : List Byte) : State :=
  match s.vault.custody with
  | none => s
  | some c =>
    let h := BitVec.ofNat 64 (ofLe ((sha384 card).take 8))
    let c := { c with cards := Tbl.set none c.cards i (some h) }
    let iss := if s.vault.issued.contains i then s.vault.issued else s.vault.issued ++ [i]
    let all := (List.range c.n).all fun k => iss.contains (k + 1)
    let s := s.updVault fun v => { v with custody := some c, issued := iss, shared := v.shared || all }
    if all then s.vaultEvent 0x0D c.gen else s

/-- RESTORE_BEGIN (R387). -/
def State.vRestoreBegin (s : State) : State × Nat :=
  let v := s.vault
  if (v.epochst = 2 || v.epochst = 3) && !v.tamper then
    (s.updVault fun v => { v with before := v.epochst, epochst := 4, shares := [], cardFaults := 0 }, 0)
  else (s, 1)

/-- CHALLENGE: the RELEASE SHARE data (R386). -/
def State.vChallenge (s : State) (i : Nat) : (Nat × List Byte) × State :=
  if s.vault.epochst ≠ 4 then ((1, []), s)
  else if i = 0 || 8 < i then ((2, []), s)
  else
    let r := s.vChannel
    ((0, r.1.2.2), r.2.updVault fun v => { v with challenge := some (BitVec.ofNat 128 (ofLe r.1.2.1)), eph := BitVec.ofNat 384 (ofLe r.1.1) })

/-- A counted card fault: logged, and the sixteenth ends the restore (R387, R388). -/
def State.cardFault (s : State) (i : Nat) : State :=
  let s := (s.updVault fun v => { v with cardFaults := v.cardFaults + 1 }).vaultEvent 0x05 i
  if 16 ≤ s.vault.cardFaults then s.updVault Vault.endRestore else s

/-- The shares held are M: they are combined and checked (R387). -/
def State.vCombine (s : State) (m n gen epoch : Nat) (check : BitVec 128) : State × Nat :=
  let secret := combine s.vault.shares
  if checkOf secret epoch = check then
    let s := s.updVault fun v =>
      let v : Vault := { v.setEpoch secret epoch with shared := true, shares := [], cardFaults := 0, challenge := none, issued := (List.range n).map (· + 1) }
      if v.before = 3 then { v with custody := some { m := m, n := n, gen := gen, epoch := epoch, cards := [] } } else v
    ((s.vaultEvent 0x03 m).moltsCheck, 0)
  else ((s.updVault Vault.endRestore).vaultEvent 0x04 9, 9)

/-- SHARE_IN: a card's sealed blob and public key for an index (R387, R388). -/
def State.vShareIn (s : State) (i : Nat) (card blob : List Byte) : State × Nat :=
  let v := s.vault
  match v.challenge with
  | none => (s, 1)
  | some nonce =>
    if v.epochst ≠ 4 then (s, 1)
    else
      let s := s.updVault fun v => { v with challenge := none }
      let key := channelKey (bvBytes 48 v.eph) card (bvBytes 16 nonce)
      match (gcmOpen key (List.replicate 12 0) (bvBytes 16 nonce) (blob.take 64) (blob.drop 64)).bind (kwUnwrap swk) with
      | none => (s.cardFault i, 7)
      | some pt =>
        let x := shareOfBytes pt
        let unlike : Bool := v.shares.any fun y => y.m ≠ x.m || y.n ≠ x.n || y.epoch ≠ x.epoch || y.gen ≠ x.gen || y.index = x.index
        let genBad : Bool := match v.custody with | some c => decide (c.gen ≠ x.gen) | none => false
        let hash := BitVec.ofNat 64 (ofLe ((sha384 card).take 8))
        let cardBad : Bool := match v.custody with
          | some c => (match Tbl.get none c.cards x.index with | some h => decide (h ≠ hash) | none => false)
          | none => false
        if x.epoch < v.floor || genBad || unlike then (s.cardFault i, 8)
        else if cardBad then (s.cardFault i, 7)
        else
          let s := s.updVault fun v => { v with shares := v.shares ++ [x] }
          if s.vault.shares.length = x.m then s.vCombine x.m x.n x.gen x.epoch x.check else (s, 0)

/-- TAMPER_ACK, with the sensors that have not been quiet for 1 s (R374). -/
def State.vTamperAck (s : State) (noisy : BitVec 7) : State × Nat :=
  let s := s.updVault fun v => { v with live := noisy }
  if !s.vault.tamper then (s, 1)
  else if noisy &&& s.sensArmed ≠ 0 then (s, 5)
  else ((s.updVault fun v => { v with tamper := false, mask := 0, trips := 0, first := 0 }).vaultEvent 0x02 0, 0)

/-- DEVICE_ERASE: a floor fuse is blown, the epoch is replaced by a new one, and the purge line is driven; with no epoch held only the floor
rises (R180, R366, R367, log 35). -/
def State.vDeviceErase (s : State) : State × Nat :=
  let v := s.vault
  if !v.full then (s, 1)
  else if 1024 ≤ v.floorFuses then (s, 0x0A)
  else
    let s := s.updVault fun v => { v.endRestore with floorFuses := v.floorFuses + 1, nonces := [], shared := false }
    let s := s.updVault fun v => { v with custody := v.custody.map fun c => { c with gen := 0, cards := [] } }
    if s.vault.epochst ≠ 1 then ((s.updVault fun v => { v with poly := none, issued := [] }).driveLine 0 0, 3)
    else
      let d := s.fresh 256
      let n := max (v.epoch + 1) (v.floorFuses + 2)
      let s := d.2.updVault fun v => { v.setEpoch d.1 n with custody := v.custody.map fun c => { c with epoch := n } }
      let s := match s.vault.custody with | some c => s.newPoly c.m | none => s.updVault fun v => { v with poly := none, issued := [] }
      ((s.driveLine 0 0).vaultEvent 0x0C (n % 256), 0)

/-! ## Vault commands (R391, R392, R395) -/

/-- A command runs: DEVKEY_FAIL refuses one that needs the device key or the epoch secret, and a failed noise source one that draws (R364,
R365); its result and data are kept, and CMD_DONE is posted. A command is discarded while another runs (R391). -/
def State.vltRun (s : State) (opcode : Nat) (needsKey draws : Bool) (f : State → (Nat × List Byte) × State) : State :=
  if s.vault.cmdBusy then s
  else
    let r := if needsKey && s.vault.devkeyFail then ((0x0B, []), s) else if draws && !s.vault.noise then ((1, []), s) else f s
    (r.2.updVault fun v => { v with cmd := opcode, cmdResult := r.1.1, res := Memory.put [] 0 r.1.2 }).cmdDone

/-- A vault operation that returns no data. -/
def noData (r : State × Nat) : (Nat × List Byte) × State := ((r.2, []), r.1)

def execVltNonce (f : FuncId) (s : State) : Res :=
  .next (s.vltRun 0x01 false true fun s =>
    let t := s.vNonce f
    ((0, match Tbl.get none t.vault.nonces f with | some n => bvBytes 16 n | none => []), t))

/-- IMPORT: rows 5 to 9 of R175, with the header's fields; the record is returned. -/
def execVltImport (f : FuncId) (mode : Fin 4) (slot : BitVec 20) (gen : Fin 16) (nsx : BitVec 16) (band : Fin 64) (alt : Option (Fin 1024))
    (aad ct sealed : Bytes) (s : State) : Res :=
  .next (s.vltRun 0x02 true false fun s =>
    let nonce := (aad.drop 8).take 16
    let r := s.vImport (s.nonceKnown f nonce) mode aad ct sealed
    let s := s.useNonce f nonce
    if r.1 = 0 then
      match s.vault.wk with
      | some wk => ((0, mkRecord wk s.vault.epoch slot.toNat gen mode f (alt.map fun a => a.toNat) nsx.toNat band r.2), s)
      | none => ((3, []), s)
    else ((if r.1 = 0x105 then 3 else if r.1 = 0x107 then 4 else (Config.vaultResult r.1).toNat, []), s))

def execVltGenerate (f : FuncId) (mode : Fin 4) (slot : BitVec 20) (gen : Fin 16) (nsx : BitVec 16) (band : Fin 64) (alt : Option (Fin 1024))
    (s : State) : Res :=
  .next (s.vltRun 0x03 true true fun s =>
    match s.vault.wk with
    | none => ((3, []), s)
    | some wk =>
      if mode.toNat ≠ 1 && mode.toNat ≠ 2 then ((2, []), s)
      else
        let k := s.drawKey mode
        ((0, mkRecord wk s.vault.epoch slot.toNat gen mode f (alt.map fun a => a.toNat) nsx.toNat band k.1), k.2))

/-- Measurement 4: bits [1343:0] of the fuse bank (R362, R367). -/
def meas4 : List Byte := sha384 (leBytes 32 Config.fuseIdent.toNat ++ leBytes 128 Config.fuseHelper.toNat ++ leBytes 8 Config.fuseSettings.toNat)

/-- The slot 1 alias signing key: the device key with measurements 1 to 4 (R361, R365). -/
def State.aliasSeed (s : State) : List Byte :=
  shake256x64 (ascii "ODNV-ALIAS" ++ bvBytes 32 Config.deviceKey ++ s.boot.meas1 ++ s.boot.meas2 ++ s.boot.meas3 ++ meas4)

def execVltSign (slot : Fin 2) (digest : Bytes) (s : State) : Res :=
  .next (s.vltRun 0x04 true false fun s =>
    if digest.length ≠ 48 then ((2, []), s) else ((0, ecdsaSign (if slot.toNat = 0 then idSeed else s.aliasSeed) digest), s))

def execVltDeviceErase (s : State) : Res := .next (s.vltRun 0x05 false true fun s => noData s.vDeviceErase)
def execVltSlotmapBump (s : State) : Res :=
  .next (s.vltRun 0x06 false false fun s => ((0, []), s.updVault fun v => { v with slotmapVer := v.slotmapVer + 1 }))
def execVltCustodyInit (m n : U8) (s : State) : Res := .next (s.vltRun 0x07 true true fun s => noData (s.vCustodyInit m.toNat n.toNat))
def execVltShareRotate (s : State) : Res := .next (s.vltRun 0x08 true true fun s => noData s.vShareRotate)
def execVltShareOut (i : U8) (card : Bytes) (s : State) : Res :=
  .next (s.vltRun 0x09 true true fun s =>
    let r := s.vShareOut i.toNat card
    (r.1, if r.1.1 = 0 then r.2.shareIssued i.toNat card else r.2))
def execVltRestoreBegin (s : State) : Res := .next (s.vltRun 0x0A false false fun s => noData s.vRestoreBegin)
def execVltChallenge (i : U8) (s : State) : Res := .next (s.vltRun 0x0B true true fun s => s.vChallenge i.toNat)
def execVltShareIn (i : U8) (card blob : Bytes) (s : State) : Res := .next (s.vltRun 0x0C true false fun s => noData (s.vShareIn i.toNat card blob))
def execVltRestoreAbort (s : State) : Res :=
  .next (s.vltRun 0x0D false false fun s => if s.vault.epochst = 4 then ((0, []), s.updVault Vault.endRestore) else ((1, []), s))
def execVltTamperAck (noisy : BitVec 7) (s : State) : Res := .next (s.vltRun 0x0E false false fun s => noData (s.vTamperAck noisy))
/-- WARDEN_RESET: a warden restart with cause 4 (R340, R370). -/
def execVltWardenReset (s : State) : Res := .next (s.vltRun 0x0F false false fun s => ((0, []), s.wardenRestart 4))

/-! ## Test mode (R475 to R477) -/

/-- The token passes every check: the challenge, IDENT, and both signatures (R475). -/
def State.tokenOk (s : State) (t : List Byte) : Bool :=
  (match s.vault.testChallenge with | some c => t.take 32 = bvBytes 32 c | none => false)
    && (t.drop 32).take 32 = leBytes 32 Config.fuseIdent.toNat
    && (t.drop 68).take 4 = [0, 0, 0, 0] && t.length = 4795
    && Config.verifies 1 (t.take 72 ++ (t.drop 72).take 4627) && Config.verifies 2 (sha384 (t.take 72) ++ (t.drop 4699).take 96)

/-- Step 5 of R476: every RAM of the part is overwritten with zeros, and with it what the model holds of their content as tables. -/
def State.zeroRams (s : State) : State :=
  { s with warden := { s.warden with iram := [], sram := [] }
           engines := Tbl.mapv Engine.init s.engines fun e => { e with iram := [], dram := [] }
           tiles := Tbl.mapv Tile.init s.tiles fun t => { t with scratch := [] }
           nss := [], molts := [], ctls := Tbl.mapv Ctl.init s.ctls fun c => { c with ledgerCopy := Ledger.init }
           stackA := [], stackB := [], boot := { s.boot with tableBase := none, touched := [], lane := [], stage := [] } }

/-- TEST_UNLOCK: an accepted token makes the vault erase everything of R476 in order before the test mode opens; a challenge is used up. The
results are those of R467. -/
def State.vTestUnlock (s : State) (token : List Byte) : State × Nat :=
  let ok := s.tokenOk token
  let s := s.updVault fun v => { v with testChallenge := none }
  if !ok then (s, 7)
  else if 16 ≤ s.vault.testFuses then (s, 8)
  else
    let s := s.updVault fun v => { v.endRestore with secret := 0, epoch := 0, check := 0, wk := none, epochst := 0, shared := false, poly := none, issued := [] }
    let s := s.driveLine 0 0
    let s := s.updVault fun v =>
      { v with warea := [], slotmapVer := 0, restarts := 0, wfailed := false, rwin := [], evHead := 0, evLost := 0, ring := [], evNew := 0
               journal := [], tamperRec := none, deepest := 0, vholdFell := 0, offTime := 0, custody := none, tamper := false, mask := 0, trips := 0, first := 0
               wakeValid := false, wakeMask := 0, wakeSrc := 0, wakeTime := 0, brownouts := 0, nonces := [], shares := [], cardFaults := 0
               challenge := none, eph := 0, testFuses := v.testFuses + 1, testOpen := true }
    (s.zeroRams.moltsCheck, 0)

def execVltTestUnlock (token : Bytes) (s : State) : Res :=
  .next (s.vltRun 0x10 false false fun s =>
    let r := s.vTestUnlock token
    ((if r.2 = 8 then 0x0A else if r.2 = 0 then 0 else (Config.vaultResult r.2).toNat, []), r.1))

/-! ## The retained ledger (R368 to R370) -/

/-- A region of 128 bytes whose fields the spec names without a layout: bytes 0 to 123 by the open layout, and their CRC-32C. -/
def ledgerRegion (region : Nat) (fields : List Nat) : List Byte :=
  let b := (List.range 124).map fun i => Config.ledgerByte region i fields
  b ++ leBytes 4 (crc32c b).toNat

def VEvt.bytes (e : VEvt) : List Byte := leBytes 6 e.vtime.toNat ++ [BitVec.ofNat 8 e.kind, BitVec.ofNat 8 e.detail] ++ leBytes 8 e.data.toNat

/-- The event ring's 1,536 bytes. -/
def Vault.ringBytes (v : Vault) : List Byte :=
  (List.range 96).flatMap fun i => match Tbl.get none v.ring i with | some e => e.bytes | none => List.replicate 16 0

/-- Header bytes 8 to 127 (R368). -/
def Vault.headerTail (v : Vault) : List Byte :=
  leBytes 8 v.slotmapVer.toNat ++ leBytes 2 v.restarts.toNat ++ [BitVec.ofNat 8 (b2n v.wfailed), 0] ++ leBytes 4 (v.rwin.headD 0)
    ++ leBytes 2 v.evHead ++ leBytes 2 v.evLost.toNat ++ leBytes 4 (crc32c v.ringBytes).toNat ++ List.replicate 96 0

/-- A journal entry's 32 bytes (R200), and the entry of 32 bytes. -/
def Journal.bytes (j : Journal) : List Byte :=
  leBytes 2 j.nsx ++ [BitVec.ofNat 8 j.band, BitVec.ofNat 8 (b2n j.used + 2 * b2n j.pend + 4 * j.pcause)] ++ leBytes 3 j.old.toNat ++ leBytes 3 j.new.toNat
    ++ [0, 0] ++ leBytes 8 j.wmark ++ leBytes 4 j.wlen ++ leBytes 8 j.fp.toNat
def Journal.ofBytes (b : List Byte) : Journal :=
  { used := bitOf (leAt b 3 1) 0, nsx := leAt b 0 2, band := leAt b 2 1 % 64, pend := bitOf (leAt b 3 1) 1, pcause := fld (leAt b 3 1) 4 2
    old := BitVec.ofNat 24 (leAt b 4 3), new := BitVec.ofNat 24 (leAt b 7 3), wmark := leAt b 12 8, wlen := leAt b 20 4
    fp := BitVec.ofNat 64 (leAt b 24 8) }

/-- Fields of the regions whose layout is open. -/
def Vault.tamperFields (v : Vault) : List Nat :=
  match v.tamperRec with | some t => [1, t.vtime.toNat, t.sensors.toNat, t.first, t.epoch, t.detail0, t.detail1, t.detail2] | none => [0]
def Vault.wakeFields (v : Vault) : List Nat :=
  [b2n v.wakeValid, v.wakeMask.toNat, v.wakeSrc, v.wakeTime.toNat, v.brownouts.toNat, v.vholdFell.toNat, v.offTime.toNat, v.deepest]
def Vault.custodyFields (v : Vault) : List Nat :=
  match v.custody with
  | some c => [1, c.m, c.n, c.gen, c.epoch] ++ (List.range 8).map fun i => match Tbl.get none c.cards (i + 1) with | some h => h.toNat | none => 0
  | none => [0]

/-- The 8 KiB of the retained ledger (R368). -/
def Vault.ledgerBytes (v : Vault) (off n : Nat) : List Byte :=
  let head := [0x01#8, 0, 0, 0] ++ leBytes 4 (crc32c v.headerTail).toNat ++ v.headerTail
  let pick := fun (a : Nat) =>
    if a < 0x80 then head.getD a 0
    else if a < 0x100 then (ledgerRegion 0 v.tamperFields).getD (a - 0x80) 0
    else if a < 0x180 then (ledgerRegion 1 v.wakeFields).getD (a - 0x100) 0
    else if a < 0x200 then (ledgerRegion 2 v.custodyFields).getD (a - 0x180) 0
    else if a < 0x800 then v.ringBytes.getD (a - 0x200) 0
    else if a < 0x1000 then (Tbl.get Journal.init v.journal ((a - 0x800) / 32)).bytes.getD (a % 32) 0
    else Memory.rd v.warea (a - 0x1000)
  (List.range n).map fun i => pick (off + i)

/-- A word of the retained ledger written by the warden: the molt journal and the warden area take it, every other region discards it (R369). -/
def Vault.ledgerWrite (v : Vault) (off : Nat) (w : Word) : Vault :=
  if 0x1000 ≤ off then { v with warea := Memory.putNum v.warea (off - 0x1000) 4 w.toNat }
  else if 0x800 ≤ off then
    let k := (off - 0x800) / 32
    let b := patch (Tbl.get Journal.init v.journal k).bytes (off % 32) (leBytes 4 w.toNat)
    { v with journal := Tbl.set Journal.init v.journal k (Journal.ofBytes b) }
  else v

/-- A ledger read of the ring starts a new count of unread events (R368 EVENTS_LOST). -/
def Vault.ledgerSeen (v : Vault) (off n : Nat) : Vault := if off < 0x800 && 0x200 < off + n then { v with evNew := 0 } else v

/-- VLT_LDATA: the ledger word at VLT_LADDR is read, or written, and the address advances (R369, R391). -/
def State.ledgerData (s : State) (write : Option Word) : Word × State :=
  let v := s.vault
  let w := BitVec.ofNat 32 (ofLe (v.ledgerBytes (4 * v.laddr) 4))
  let v := match write with | some x => v.ledgerWrite (4 * v.laddr) x | none => v.ledgerSeen (4 * v.laddr) 4
  (w, { s with vault := { v with laddr := (v.laddr + 1) % 2048 } })

def execLedgerDataAccess (write : Option Word) (s : State) : Res := .next (s.ledgerData write).2

/-! ## Erase registrations (R341, R391) -/

/-- A registration takes a free slot; with both busy it is discarded and OVF set. -/
def State.eraseRegister (s : State) : State × Option Nat :=
  let v := s.vault
  if !v.regBusy.getLsbD 0 then ({ s with vault := { v with regBusy := v.regBusy ||| 1#2, regLined := v.regLined &&& 2#2 } }, some 0)
  else if !v.regBusy.getLsbD 1 then ({ s with vault := { v with regBusy := v.regBusy ||| 2#2, regLined := v.regLined &&& 1#2 } }, some 1)
  else ({ s with vault := { v with regOvf := true } }, none)

def State.eraseWithdraw (s : State) (slot : Nat) : State :=
  s.updVault fun v => { v with regBusy := v.regBusy &&& ~~~(1#2 <<< slot), regSlot := slot = 1 }

def execEraseregRegister (s : State) : Res := .next s.eraseRegister.1
def execEraseregWithdraw (slot : Fin 2) (s : State) : Res := .next (s.eraseWithdraw slot)

end Sys2Proof.Machine
end

