-- ==== Sys2Proof/Machine/MboxOps.lean ====
section
/-!
DEFINITION. What the Imdex commands share: who asks (R344, R354), the accepted request, and the response with its header and status (R346,
R349, R351, R355).
-/

namespace Sys2Proof.Machine

/-- The boot ROM serves MCTP endpoint 0 in recovery mode (R461). -/
def State.recoveryUp (s : State) : Bool := s.warden.up && s.warden.recovery && s.domOn 36

/-- The opcodes that recovery mode serves (R461). -/
def recoveryOp (op : Nat) : Bool := op = 1 || op = 2 || (0x0701 ≤ op && op ≤ 0x0706)

/-- Requests of a page are served: by warden firmware, or for the page of endpoint 0 by the ROM in recovery mode (R461). -/
def State.pageServed (s : State) (p : Nat) : Bool := s.fwUp || (p = 1028 && s.recoveryUp)

/-- The request of a page is accepted, of this opcode, and not yet answered, and the warden serves the page (R346). -/
def State.mbxReady (s : State) (p op : Nat) : Bool :=
  let g := s.page p
  s.pageServed p && g.st = 2 && !g.answered && fld g.req.toNat 15 0 = op

/-- The bytes of a response: OPCODE, TAG and SEQUENCE echoed, LENGTH, STATUS with DETAIL, and the payload (R349). -/
def respBytes (req seq : Word) (status detail : Nat) (payload : List Byte) : List Byte :=
  leBytes 4 req.toNat ++ leBytes 4 payload.length ++ leBytes 4 seq.toNat ++ leBytes 2 status ++ leBytes 2 detail ++ payload

/-- An accepted request is answered: the response stands in the response area and is remembered with the request's SEQUENCE, OPCODE and TAG;
a page that was reset meanwhile discards it (R347, R349, R351). -/
def State.respond (s : State) (p status detail : Nat) (payload : List Byte) : State :=
  s.updPage p fun g =>
    if g.discard then { g with answered := true }
    else
      let b := respBytes g.req g.seq status detail payload
      { g with area := Memory.put g.area 0x800 b, answered := true, mem := some (g.seq, g.req, b) }

/-- A command of an Imdex opcode: nothing happens unless its request is accepted and unanswered. -/
def State.imdex (s : State) (p op : Nat) (f : State → State) : Res := .next (if s.mbxReady p op then f s else s)

/-- The requester is a tenant page (R344). -/
def isTenant (p : Nat) : Bool := p < 1024
/-- An MCTP endpoint's page. -/
def isMctp (p : Nat) : Bool := 1028 ≤ p
/-- An MCTP endpoint whose request has operator rights, as its rights, its message, and recovery mode give them (R358, R461). -/
def State.mctpOp (s : State) (p : Nat) : Bool :=
  isMctp p && ((s.ep (p - 1028)).rights = 2 || ((s.ep (p - 1028)).rights = 1 && (s.page p).secured) || (p = 1028 && s.recoveryUp))
/-- The requester acts as the operator of the port of controller `f` (R354). -/
def State.operatorOf (s : State) (p f : Nat) : Bool := (1024 ≤ p && p < 1028 && p - 1024 = portOf f) || s.mctpOp p
/-- The controller that a request is about: the tenant's own, or the one an operator names (R354). -/
def reqFunc (p f : Nat) : Nat := if isTenant p then p else f
/-- The requester may act on controller `f`: its own, or one of its port (R354). -/
def State.mayAct (s : State) (p f : Nat) : Bool := if isTenant p then p = f else s.operatorOf p f
/-- The requester holds operator rights of some kind. -/
def State.isOperator (s : State) (p : Nat) : Bool := (1024 ≤ p && p < 1028) || s.mctpOp p

/-- Erases in progress: running, or accepted and about to begin (R181). -/
def State.erasesOpen (s : State) : Nat :=
  s.erases.length + (s.pages.filter fun q =>
    q.2.st = 2 && fld q.2.req.toNat 15 0 = 0x0105 && !q.2.answered && !s.erases.any fun x => x.origin = 0 && x.page = q.1).length

end Sys2Proof.Machine
end

