-- ==== Sys2Proof/Machine/Erase.lean ====
section
/-!
DEFINITION. Durable changes (R149, R463, R464), provisioning of a keyslot (R150, R176), crypto-erases (R178 to R183, R218, R341), and the purge
line (R36, R119, R170, R372).
-/

namespace Sys2Proof.Machine

/-! ## The durable store (R149, R463, R464) -/

/-- What the store keeps of a controller: its tenant record and contract (R463; mailbox rates with it, log 36). -/
def Ctl.durable (c : Ctl) : Ctl :=
  { Ctl.init with tenant := c.tenant, attach := c.attach, attachAlt := c.attachAlt, admw0 := c.admw0, admw1 := c.admw1, rateG := c.rateG
                  rateV := c.rateV, burstG := c.burstG, burstV := c.burstV, tokG := c.burstG * 1000000, tokV := c.burstV * 1000000 }

/-- The durable content as the tables stand now: the records of ACTIVE keyslots, and STATE and GEN of every keyslot ever provisioned. -/
def State.durableNow (s : State) (ver : DWord) : Durable :=
  let ks := s.tableSlots
  { ver := ver
    ctls := (s.ctls.filter fun p => p.2.tenant).map fun p => (p.1, p.2.durable)
    nss := (s.nss.filter fun p => p.2.valid).map fun p => (p.1, { p.2 with busy := 0, staged := [] })
    records := s.drives.filterMap fun p => if p.2.record.isSome then some (p.1, p.2.record) else none
    recs := ks.filterMap fun k => let r := s.krec k; if recFmt r = 1 && recState r = 1 then some (k, r) else none
    slotmap := ks.filterMap fun k => let r := s.krec k; if recState r = 0 && recGen r = 0 then none else some (k, (recState r, recGen r)) }

/-- A durable change: the journal record, which raises the store's version by one, and then SLOTMAP_BUMP (R464). -/
def State.commit (s : State) : State :=
  { s with boot := { s.boot with durable := s.durableNow (s.boot.durable.ver + 1) } }.updVault fun v => { v with slotmapVer := v.slotmapVer + 1 }

/-- The durable ceiling of a key's write counter: FWDATA bytes 0 to 3 of its record (R143). -/
def recCeiling (r : List Byte) : Nat := leAt r 112 4

/-- The write counters after a loss of VIN: each restarts at its stored ceiling (R143). -/
def Durable.counters (d : Durable) : Tbl Nat := d.recs.foldl (fun t p => Tbl.set 0 t (p.1 * 16 + recGen p.2) (recCeiling p.2)) []

/-- The VERSION of the next GCM-sector write under a key. Where the counter has reached the durable ceiling, the warden first raises it by 65,536 and makes
the record durable; none while no warden firmware runs (R126, R143, R464). -/
def State.nextVersion (s : State) (h : BitVec 24) : Option (Nat × State) :=
  let v := Tbl.get 0 s.versions h.toNat
  let r := s.krec (handleSlot h)
  if v < recCeiling r then some (v, s)
  else if !s.fwUp then none
  else some (v, (s.putRec (handleSlot h) (patch r 112 (leBytes 4 (min (recCeiling r + 65536) 0xFFFFFFFF)))).commit)

/-! ## Provisioning (R150, R151, R176) -/

/-- The alternate owner of a record, if enabled (R144). -/
def recAlt (r : List Byte) : Option Nat := let w := (wordAt r 2).toNat; if bitOf w 31 then some (fld w 25 16) else none

/-- A keyslot is provisioned with material: its generation rises by one, both copies are written, and the answer is its new handle. -/
def State.provision (s : State) (wk : BitVec 256) (slot mode ctrl : Nat) (alt : Option Nat) (nsx band : Nat) (material : List Byte) : BitVec 24 × State :=
  let gen := (recGen (s.krec slot) + 1) % 16
  (BitVec.ofNat 24 (slot * 16 + gen), s.putRec slot (mkRecord wk s.vault.epoch slot gen mode ctrl alt nsx band material))

/-- A new key is generated into the keyslot of a band's HANDLE, with the owners and mode it had (R176, R218). -/
def State.regenerate (s : State) (wk : BitVec 256) (nsx band slot : Nat) : State :=
  let r := s.krec slot
  let k := s.drawKey (recMode r)
  let q := k.2.provision wk slot (recMode r) (recCtrl r) (recAlt r) nsx band k.1
  q.2.updNs nsx fun n => n.setBand band { n.band band with handle := mkBandWord q.1 }

/-! ## Crypto-erase (R178 to R182) -/

/-- Keyslots that a controller owns as CTRL, ERASED ones that still carry it among them (R153). -/
def State.ownedSlots (s : State) (f : Nat) : Nat :=
  (s.tableSlots.filter fun k => recFmt (s.krec k) = 1 && recEpoch (s.krec k) ≠ 0 && recCtrl (s.krec k) = f).length

/-- The slot of a record has been provisioned at some time: an epoch has number 1 at least, and an initial record carries 0 (R142, R366). -/
def recUsed (r : List Byte) : Bool := recFmt r = 1 && recEpoch r ≠ 0

/-- A record lies in the scope of an erase: 0 BAND, 1 NAMESPACE, 2 CONTROLLER, 3 DEVICE (R178). The NSX and CTRL of a slot that was never provisioned
name nothing (DEDUCED, log 98). -/
def eraseCovers (scope key : Nat) (r : List Byte) : Bool :=
  if scope = 0 then recSlot r = key else if scope = 1 then recUsed r && recNsx r = key else if scope = 2 then recUsed r && recCtrl r = key else true

/-- The record admits the requester: the tenant as an owner, or an operator of an owner's port (R144, R175, R185). -/
def State.recAdmits (s : State) (p : Nat) (r : List Byte) : Bool :=
  if isTenant p then (recTag r).admits p else s.operatorOf p (recCtrl r) || (match recAlt r with | some a => s.operatorOf p a | none => false)

/-- Scope and key of the erase that a page asks for, where the requester may have it: SCOPE, BAND, FUNC and NSID stand in its payload (R178, R354). -/
def State.eraseAsked (s : State) (p : Nat) : Option (Nat × Nat) :=
  let b := fun o n => Memory.num (s.page p).area (16 + o) n
  let f := reqFunc p (b 2 2)
  if b 0 1 = 3 then (if isTenant p then none else some (3, 0))
  else if 3 < b 0 1 || !s.mayAct p f then none
  else if b 0 1 = 2 then some (2, f)
  else match s.nsOf f (b 4 4) with
    | none => none
    | some nsx =>
      let w := ((s.ns nsx).band (b 1 1)).handle
      if b 0 1 = 1 then some (1, nsx)
      else if (s.ns nsx).nbands ≤ b 1 1 || !bandValid w || !s.recAdmits p (s.krec (handleSlot (bandHandle w))) then none
      else some (0, handleSlot (bandHandle w))

/-- The erases of requests that have been accepted and have not begun. -/
def State.erasesAsked (s : State) : List (Nat × Nat) :=
  s.pages.filterMap fun q =>
    if q.2.st = 2 && fld q.2.req.toNat 15 0 = 0x0105 && !q.2.answered && !s.erases.any (fun x => x.origin = 0 && x.page = q.1) then s.eraseAsked q.1 else none

/-- An erase that covers the keyslot has been accepted and not answered (R175, R182, R185). -/
def State.erasePending (s : State) (slot : Nat) : Bool :=
  s.erases.any (fun x => eraseCovers x.scope x.key (s.krec slot)) || s.erasesAsked.any fun x => eraseCovers x.1 x.2 (s.krec slot)

/-- A record marked ERASED, its WRAPPED zeroed (R179). -/
def recErased (r : List Byte) : List Byte :=
  patch (patch r 4 (leBytes 4 (setFld (wordAt r 1).toNat 31 28 2))) 16 (List.replicate 88 0)

/-- Both copies of every covered record are marked, whatever their STATE was (R179). -/
def State.markErased (s : State) (scope key : Nat) : State :=
  s.tableSlots.foldl (fun s k => if recFmt (s.krec k) = 1 && eraseCovers scope key (s.krec k) then s.putRec k (recErased (s.krec k)) else s) s

/-- A record marked EMPTY, its WRAPPED zero (R145). -/
def recEmpty (r : List Byte) : List Byte := patch (patch r 4 (leBytes 4 (setFld (wordAt r 1).toNat 31 28 0))) 16 (List.replicate 88 0)

/-- Records are marked EMPTY after a DEVICE erase (R180). -/
def State.markEmpty (s : State) : State :=
  s.tableSlots.foldl (fun s k => if recFmt (s.krec k) = 1 then s.putRec k (recEmpty (s.krec k)) else s) s

/-- The molts that an erase covers by either key: they end (R206). -/
def State.eraseMolts (s : State) (scope key : Nat) : State :=
  (s.molts.filter fun p => p.2.st ≠ 0 && (eraseCovers scope key (s.krec (handleSlot p.2.old)) || eraseCovers scope key (s.krec (handleSlot p.2.new)))).foldl
    (fun s p =>
      let s := s.moltErased p.1
      if scope = 0 then [handleSlot p.2.old, handleSlot p.2.new].foldl (fun s k =>
        if recState (s.krec k) = 1 then s.putRec k (recErased (s.krec k)) else s) s
      else s) s

/-- The keyslots whose molts make a BAND erase cover them as well (R206). -/
def State.eraseAlso (s : State) (scope key : Nat) : List Nat :=
  if scope = 0 then
    ((s.molts.filter fun p => p.2.st ≠ 0 && (handleSlot p.2.old = key || handleSlot p.2.new = key)).flatMap fun p =>
      [handleSlot p.2.old, handleSlot p.2.new]).filter (· ≠ key)
  else []

/-- The bands whose keys a Format of a namespace or a Sanitize of a controller makes anew: namespace, band and keyslot (R218). -/
def State.eraseTargets (s : State) (scope key : Nat) : List (Nat × Nat × Nat) :=
  s.nss.flatMap fun p =>
    (List.range p.2.nbands).filterMap fun b =>
      let h := (p.2.band b).handle
      if p.2.valid && bandValid h && (if scope = 1 then p.1 = key else recCtrl (s.krec (handleSlot (bandHandle h))) = key)
      then some (p.1, b, handleSlot (bandHandle h)) else none

/-- The status of an admin command that erased: the new keys stand, or no epoch secret was held (R218). -/
def State.answerAdmin (s : State) (x : Erase) (ok : Bool) : State :=
  let s := x.busy.foldl (fun s n => s.updNs n fun y => { y with busy := 0 }) s
  let s := if x.origin = 2 then s.updCtl x.page fun c => { c with sanitize := if ok then 1 else 3 } else s
  match x.cid with
  | none => s
  | some cid => if ok then s.adminDone x.page cid 0 0 0 false else s.adminDone x.page cid 0 0 0x82 false

/-- The purge of an erase is issued to every powered tile: those not listed as late complete it at once (R170, R179). -/
def State.erasePurge (s : State) (scope key : Nat) (late : List Nat) : State :=
  s.tilesOn.foldl (fun s t => s.kcpurge t scope key (!late.contains t)) s

/-- The accepted erase begins: registered with the vault, records marked, molts ended, purges issued. The answer is its entry, with the tiles
that have not completed (R179, R341). -/
def State.eraseBegin (s : State) (x : Erase) (late : List Nat) : Erase × State :=
  let r := s.eraseRegister
  let also := r.1.eraseAlso x.scope x.key
  let s := (r.1.markErased x.scope x.key).eraseMolts x.scope x.key
  let s := s.erasePurge x.scope x.key late
  let s := also.foldl (fun s k => s.erasePurge 0 k late) s
  ({ x with reg := r.2, waiting := s.tilesOn.filter fun t => (s.tile t).purgeGo }, s)

/-- Every powered tile has completed the purge: the registration is withdrawn, the slot map becomes durable, and the request is answered, for
an admin command after the new keys, or goes on with the next namespace (R179, R180, R218, R341). -/
def eraseFinish : Nat → State → Erase → State
  | 0, s, _ => s
  | n + 1, s, x =>
    let s := (match x.reg with | some k => s.eraseWithdraw k | none => s).updWarden fun w => { w with eraseEnd := s.now }
    let s := if x.scope = 3 then s.markEmpty else s
    let s := s.commit
    if x.origin = 0 then (if x.lost then s.respond x.page 0x105 0 [] else s.respond x.page 0 0 [])
    else if x.origin = 3 then s
    else
      match s.vault.wk with
      | none =>
        match x.rest with
        | [] => s.answerAdmin x false
        | k :: rest =>
          let r := s.eraseBegin { x with key := k, rest := rest, targets := s.eraseTargets 1 k, lost := true } []
          eraseFinish n r.2 r.1
      | some wk =>
        let s := (x.targets.foldl (fun s t => s.regenerate wk t.1 t.2.1 t.2.2) s).commit
        match x.rest with
        | [] => s.answerAdmin x (!x.lost)
        | k :: rest =>
          let r := s.eraseBegin { x with key := k, rest := rest, targets := s.eraseTargets 1 k } []
          eraseFinish n r.2 r.1

/-- An erase goes on: at once if no tile is late, else once its tiles have completed (R179). -/
def State.eraseStart (s : State) (x : Erase) (late : List Nat) : State :=
  let r := s.eraseBegin x late
  if r.1.waiting.isEmpty then eraseFinish (x.rest.length + 1) r.2 r.1 else { r.2 with erases := r.2.erases ++ [r.1] }

/-- An erase of the given origin and scope. -/
def mkErase (origin page : Nat) (cid : Option Nat) (scope key : Nat) : Erase :=
  { origin := origin, page := page, cid := cid, scope := scope, key := key, waiting := [], reg := none, lined := false, lost := false
    targets := [], rest := [], busy := [] }

/-! ## The purge line (R21, R36, R119, R183, R282, R372) -/

/-- The IDE keys of a port are cleared; every stream in Secure leaves that state, and its group's event source is raised (R282, R336). -/
def State.clearIde (s : State) (u : Nat) : State :=
  let p := s.port u
  let p := { p with ideStreams := Tbl.mapv IdeStream.init p.ideStreams fun x => { x with keys := [], go := 0 } }
  let s := s.setPort u p
  if p.ide.any fun x => x.2 = 1 then
    let s := s.setPort u { p with ide := Tbl.mapv 0 p.ide fun x => if x = 1 then 2 else x }
    match s.upSlot u with | some (g, _) => s.raise (112 + g) | none => s
  else s

/-- One powered tile takes the purge line: everything of it is cleared, a purge it had not completed completes, and its wrapping key goes where
the line means that no epoch secret stands behind it any more (R36, R170; DEDUCED for an erase escalation, log 37). -/
def State.lineTile (s : State) (t : Nat) (keepWk : Bool) : State × List KeyTag :=
  let r := s.purgeTile t (fun _ => true) true
  let s := if (s.tile t).purgeGo then (r.1.updTile t fun x => { x with purgeGo := false }).raise (32 + t) else r.1
  (s.updTile t fun x => { x with wk := if keepWk then x.wk else none }, r.2)

/-- The controllers that lose a key by the line: its CTRL owner, and for a line driven under R179 only where no erase covers the key (R183, R509). -/
def State.lineOwners (s : State) (tags : List KeyTag) : List Nat :=
  ((tags.filter fun k => recState (s.krec k.slot) = 1 && !s.erases.any fun x => eraseCovers x.scope x.key (s.krec k.slot)).map KeyTag.ctrl).eraseDups

/-- PURGE_LINE: every powered tile clears its keys and acknowledges, the port engines clear every IDE key, tenants hear of what they lost, and
the vault releases the line; each erase that waited for its tiles is complete (R21, R36, R183, R341, R372, R509). -/
def execPurgeLine (s : State) : Res :=
  .next (
    match s.vault.line with
    | [] => s
    | line =>
      let keep := line.all fun x => x.1 = 2
      let r := s.tilesOn.foldl (fun (a : State × List KeyTag) t => let q := a.1.lineTile t keep; (q.1, a.2 ++ q.2)) (s, [])
      let s := [0, 1, 2, 3].foldl State.clearIde r.1
      let s := if line.any fun x => x.1 = 1 then s.tenantEvents (r.2.map KeyTag.ctrl).eraseDups 0x01 none 1 0
               else match line.find? fun x => x.1 = 2 with
                 | some x => s.tenantEvents (s.lineOwners r.2) 0x02 none 2 (BitVec.ofNat 32 x.2)
                 | none => s
      let done := s.erases
      let s := { s with erases := [], vault := { s.vault with line := [] } }
      let s := done.foldl (fun s x => eraseFinish (x.rest.length + 1) s { x with waiting := [] }) s
      s.vault.regLined.toNat |> fun m => (setBits 2 m).foldl State.eraseWithdraw (s.updVault fun v => { v with regLined := 0 }))

/-- The vault drives the purge line for an erase with late tiles, and each of them raises its fault (R179, R183, R319, R341). ERASE_ESCALATION names the
first of them; where the backstop knows of none, it names tile 0 and no fault is raised (DESIGN CHOICE, log 84). -/
def State.eraseLine (s : State) (late : List Nat) (slot : Option Nat) : State :=
  let s := match slot with | some k => s.updVault fun v => { v with regLined := v.regLined ||| (1#2 <<< k) } | none => s
  (s.each late fun s t => s.faultEvent (dieOfTile t) 0x12 t 0).driveLine 2 (late.headD 0)

/-- ERASE_PURGE_ESCALATION: 8 ms after the acceptance of an erase in progress a tile has not completed its purge (R179). -/
def execErasePurgeEscalation (i : Fin 2) (s : State) : Res :=
  .next (
    match s.erases[i.toNat]? with
    | none => s
    | some x =>
      if x.lined || !s.fwUp then s
      else { s with erases := s.erases.set i { x with lined := true } }.eraseLine x.waiting x.reg)

/-- ERASE_BACKSTOP: a registration is still held at 8.1 ms and the line has not been driven for it (R341). -/
def execEraseBackstop (slot : Fin 2) (s : State) : Res :=
  .next (
    if !s.vault.regBusy.getLsbD slot || s.vault.regLined.getLsbD slot then s
    else
      let late := match s.erases.find? fun x => x.reg = some slot.toNat with | some x => x.waiting | none => []
      { s with erases := s.erases.map fun (x : Erase) => if x.reg = some slot.toNat then { x with lined := true } else x }.eraseLine late (some slot))

end Sys2Proof.Machine
end

