-- ==== Sys2Proof/Machine/Flow.lean ====
section
/-!
DEFINITION. Branches and jumps (R54), hardware loops (R58 to R61), control registers (R72 to R77), the H extension (R66, R67), system
operations (R69 to R71, R98, R104), the ILLEGAL event (R40) and the acceptance of an interrupt (R95, R96).
-/

namespace Sys2Proof.Machine

/-! ## Branches and jumps (R54, R82) -/

/-- BEQ (R54). -/
def execBeq (p : Pid) (ga gb : Reg) (off : Imm) (s : State) : Res := s.branchOp p 0x20 ga gb off fun a b => a = b
/-- BNE (R54). -/
def execBne (p : Pid) (ga gb : Reg) (off : Imm) (s : State) : Res := s.branchOp p 0x21 ga gb off fun a b => a ≠ b
/-- BLT (R54). -/
def execBlt (p : Pid) (ga gb : Reg) (off : Imm) (s : State) : Res := s.branchOp p 0x22 ga gb off fun a b => a.toInt < b.toInt
/-- BGE (R54). -/
def execBge (p : Pid) (ga gb : Reg) (off : Imm) (s : State) : Res := s.branchOp p 0x23 ga gb off fun a b => b.toInt ≤ a.toInt
/-- BLTU (R54). -/
def execBltu (p : Pid) (ga gb : Reg) (off : Imm) (s : State) : Res := s.branchOp p 0x24 ga gb off fun a b => a.toNat < b.toNat
/-- BGEU (R54). -/
def execBgeu (p : Pid) (ga gb : Reg) (off : Imm) (s : State) : Res := s.branchOp p 0x25 ga gb off fun a b => b.toNat ≤ a.toNat

/-- J (R41, R54). -/
def execJ (p : Pid) (off : Off26) (s : State) : Res :=
  s.issue p { word := encJmp 0x28 off, uses := [], noSlot := true } fun s =>
    s.updProc p fun r => r.branchTo true (r.pc + 4 * off.signExtend 32) none

/-- JAL: the return address goes to g31 when the delay slot completes (R41, R82). -/
def execJal (p : Pid) (off : Off26) (s : State) : Res :=
  s.issue p { word := encJmp 0x29 off, uses := [31], noSlot := true } fun s =>
    s.updProc p fun r => r.branchTo true (r.pc + 4 * off.signExtend 32) (some 31)

/-- JALR: the target is formed from the old gs, with bits [1:0] cleared (R41, R54, R82). -/
def execJalr (p : Pid) (gd gs : Reg) (imm : Imm) (s : State) : Res :=
  s.issue p { word := encImm 0x2A gd gs imm, uses := [gd, gs], noSlot := true } fun s =>
    s.updProc p fun r => r.branchTo true (effAddr (r.reg gs) imm &&& ~~~3#32) (some gd)

/-! ## Hardware loops (R58 to R61) -/

/-- A branch or jump (R55, R60). -/
def isBranch : Option Instr → Bool
  | some (.beq ..) | some (.bne ..) | some (.blt ..) | some (.bge ..) | some (.bltu ..) | some (.bgeu ..) => true
  | some (.j ..) | some (.jal ..) | some (.jalr ..) => true
  | _ => false

/-- A word that may not stand at the end of a loop body (R60). -/
def badLoopEnd (i : Option Instr) : Bool :=
  isBranch i || match i with
  | none => true
  | some (.loop ..) | some (.loopi ..) | some (.lexit ..) | some (.setmode ..) | some (.eret ..) | some (.trap ..) => true
  | _ => false

/-- The last word address of the instruction RAM (or, for warden code in the boot ROM, of the ROM) that a loop body may reach (R60). -/
def loopLimit (p : Nat) (pc : Word) : Nat :=
  if p = 128 then (if pc.toNat < 0x11000000 then 0x10007FFC else 0x1107FFFC) else 0x7FFC

/-- The level a new loop takes, if one is available (R58, R60). -/
def Proc.freeLevel (r : Proc) : Option Nat :=
  if r.lstat = 0 then some 0 else if r.lstat = 1#2 then some 1 else none

/-- The setup check of R60: 0, or the reason code of R99; reasons in rising order, but reason 6 where the end lies beyond the RAM and cannot
be read (log 21). -/
def loopReason (s : State) (p : Pid) (r : Proc) (len : Nat) : Nat × State :=
  let stop := r.pc.toNat + 4 * len
  if len = 0 then (1, s)
  else match r.freeLevel with
  | none => (2, s)
  | some k =>
    if stop > loopLimit p r.pc then (6, s)
    else
      let w := s.instrWord p (BitVec.ofNat 32 stop)
      let w2 := w.2.instrWord p (BitVec.ofNat 32 (stop - 4))
      if badLoopEnd (decodeSialven p w.1) then (3, w.2)
      else if 2 ≤ len && isBranch (decodeSialven p w2.1) then (4, w2.2)
      else if k = 1 && r.lend0.toNat ≤ stop then (5, w2.2)
      else (0, w2.2)

/-- The loop registers set for a loop of `count` passes over `len` words (R58). -/
def Proc.setLoop (r : Proc) (count : Word) (len : Nat) : Proc :=
  if r.lstat = 0 then
    { r with lstart0 := r.pc + 4, lend0 := r.pc + BitVec.ofNat 32 (4 * len), lcount0 := count, lstat := 1#2 }
  else { r with lstart1 := r.pc + 4, lend1 := r.pc + BitVec.ofNat 32 (4 * len), lcount1 := count, lstat := 3#2 }

/-- The effect of LOOP and LOOPI once issued (R58, R60). -/
def loopSetup (p : Pid) (count : Word) (len : Nat) (s : State) : State :=
  let r := s.proc p
  let q := loopReason s p r len
  if q.1 ≠ 0 then q.2.takeException p 0x08 (BitVec.ofNat 32 q.1)
  else if count = 0 then q.2.updProc p fun r => r.retireTo (r.pc + BitVec.ofNat 32 (4 * len) + 4)
  else q.2.updProc p fun r => (r.setLoop count len).retire

/-- LOOP (R58). -/
def execLoop (p : Pid) (gs : Reg) (len : Imm) (s : State) : Res :=
  s.issue p { word := encImm 0x0B 0 gs len, uses := [gs], noSlot := true } fun s => loopSetup p ((s.proc p).reg gs) len.toNat s

/-- LOOPI (R58). -/
def execLoopi (p : Pid) (count : U10) (len : Imm) (s : State) : Res :=
  s.issue p { word := encLpi count len, uses := [], noSlot := true } fun s => loopSetup p (count.zeroExtend 32) len.toNat s

/-- LEXIT: the innermost active level becomes inactive (R61). -/
def execLexit (p : Pid) (s : State) : Res :=
  s.issue p { word := encReg 0x30 0 0 0 7, uses := [], noSlot := true } fun s =>
    s.updProc p fun r => (Proc.retire { r with lstat := if r.lstat.getLsbD 1 then r.lstat &&& 1#2 else 0 })

/-! ## Control registers (R72 to R77) -/

/-- User mode may read the control register (R72). -/
def crUser (n : Nat) : Bool := n = 0 || (0x20 ≤ n && n ≤ 0x23) || (0x30 ≤ n && n ≤ 0x34)

/-- The value of a control register before the read (R70 to R77). -/
def State.crValue (s : State) (p : Nat) (n : Nat) : Word :=
  let r := s.proc p
  let lane := p ≠ 128
  match n with
  | 0 => r.mode.zeroExtend 32
  | 1 => r.epc
  | 2 => r.ecause
  | 3 => r.eval
  | 4 => r.estat
  | 5 => r.escratch
  | 6 => r.evec
  | 0x10 => r.lstart0
  | 0x11 => r.lend0
  | 0x12 => r.lcount0
  | 0x14 => r.lstart1
  | 0x15 => r.lend1
  | 0x16 => r.lcount1
  | 0x18 => r.lstat.zeroExtend 32
  | 0x20 => r.instret.truncate 32
  | 0x21 => r.instretHi.getD ((r.instret >>> 32).truncate 32)
  | 0x22 => s.time.truncate 32
  | 0x23 => r.timeHi.getD ((s.time >>> 32).truncate 32)
  | 0x30 => if lane then 0x11 else 0x12
  | 0x31 => if lane then 0x1F else 0x17
  | 0x32 => if lane then 0x11111 else 0x10111
  | 0x33 => if lane then 0x003F2042 else 0x033F2002
  | 0x34 => if lane then BitVec.ofNat 32 p else 0x100
  | _ => 0

/-- A read of a LO register latches its HI half, and a read of the HI register returns the latched half once (R9, R73). -/
def Proc.latchCr (r : Proc) (time : DWord) (n : Nat) : Proc :=
  match n with
  | 0x20 => { r with instretHi := some ((r.instret >>> 32).truncate 32) }
  | 0x21 => { r with instretHi := none }
  | 0x22 => { r with timeHi := some ((time >>> 32).truncate 32) }
  | 0x23 => { r with timeHi := none }
  | _ => r

/-- A writable control register written, reserved bits ignored (R72, R102). -/
def Proc.setCr (r : Proc) (n : Nat) (v : Word) : Proc :=
  match n with
  | 1 => { r with epc := v }
  | 2 => { r with ecause := v }
  | 3 => { r with eval := v }
  | 4 => { r with estat := v &&& 0xBF#32 }
  | 5 => { r with escratch := v }
  | 6 => { r with evec := v &&& ~~~0x3F#32 }
  | 0x10 => { r with lstart0 := v }
  | 0x11 => { r with lend0 := v }
  | 0x12 => { r with lcount0 := v }
  | 0x14 => { r with lstart1 := v }
  | 0x15 => { r with lend1 := v }
  | 0x16 => { r with lcount1 := v }
  | 0x18 => { r with lstat := v.truncate 2 }
  | _ => r

/-- CRD (R72, R73). -/
def execCrd (p : Pid) (gd : Reg) (num : Imm) (s : State) : Res :=
  s.issue p { word := encImm 0x31 gd 0 num, uses := [gd], illegal := !crNumbers.contains num.toNat, priv := !crUser num.toNat } fun s =>
    s.updProc p fun r => ((r.latchCr s.time num.toNat).setReg gd (s.crValue p num.toNat)).retire

/-- CWR (R70, R72). -/
def execCwr (p : Pid) (num : Imm) (gs : Reg) (s : State) : Res :=
  s.issue p { word := encImm 0x32 0 gs num, uses := [gs], illegal := !crWritable.contains num.toNat, priv := true } fun s =>
    s.updProc p fun r => (r.setCr num.toNat (r.reg gs)).retire

/-! ## The H extension (R66, R67) -/

/-- HINIT: a new hash; the previous computation and digest are discarded (R66). -/
def execHinit (p : Pid) (alg : U5) (s : State) : Res :=
  s.issue p { word := encReg 0x0E 0 0 0 (alg.toNat * 64), uses := [], illegal := 5 < alg.toNat } fun s =>
    s.updProc p fun r => (Proc.retire { r with hash := { alg := some alg.toNat, data := [], queue := [], digest := none } })

/-- The whole range of a HABS lies in one region that allows loads: data RAM or tile scratch, or the warden's SRAM (R67). -/
def State.habsLoc (s : State) (p : Nat) (a len : Nat) : Option Loc :=
  if len > 0x200000 then none
  else if p = 128 then
    (if 0x12000000 ≤ a && a + len ≤ 0x12200000 && a < 0x12200000
        && (List.range ((a + len - 1) / 4096 + 1 - a / 4096)).all (fun i => s.warden.allows (s.proc p).sup 0 ((a / 4096 + i) * 4096))
     then some ⟨5, 0, a - 0x12000000⟩ else none)
  else if 0x00100000 ≤ a && a < 0x00120000 && a + len ≤ 0x00120000 then some ⟨1, p, a - 0x00100000⟩
  else if 0x00200000 ≤ a && a < 0x00400000 && a + len ≤ 0x00400000 then some ⟨2, tileOf p, a - 0x00200000⟩
  else none

/-- HABS: the range check at issue, then the absorption is queued; a fifth waits (R67). -/
def execHabs (p : Pid) (gs gt : Reg) (s : State) : Res :=
  s.issue p { word := encReg 0x0E 0 gs gt 1, uses := [gs, gt] } fun s =>
    let r := s.proc p
    match s.habsLoc p (r.reg gs).toNat (r.reg gt).toNat with
    | none => s.takeException p 0x04 (r.reg gs)
    | some l =>
      if r.hash.alg.isNone then s.setProc p r.retire
      else if r.hash.queue.length ≥ 4 then s
      else s.setProc p (Proc.retire { r with hash := { r.hash with queue := r.hash.queue ++ [{ loc := l, len := (r.reg gt).toNat }] } })

/-- The engine's unit is disabled by a self-test whose hash digest was wrong (R141). -/
def State.hashFailed (s : State) (e : Nat) : Bool := (s.eng e).cuFault && (s.eng e).cuLast = 3

/-- HFIN: waits for every outstanding HABS, then the digest is ready and gd is 0; with no HINIT since reset gd is 0xFFFF_FFFF (R66, R67). -/
def execHfin (p : Pid) (gd : Reg) (s : State) : Res :=
  s.issue p { word := encReg 0x0E gd 0 0 2, uses := [gd] } fun s =>
    let r := s.proc p
    match (if p ≠ 128 && s.hashFailed p then none else r.hash.alg) with
    | none => s.setProc p (r.setReg gd 0xFFFFFFFF).retire
    | some a =>
      if !r.hash.queue.isEmpty then s
      else s.setProc p ({ r with hash := { r.hash with digest := some (hashDigest a r.hash.data) } }.setReg gd 0).retire

/-- HGET: a word of the digest, 0 beyond it; waits until the digest is ready (R66, R67). -/
def execHget (p : Pid) (gd : Reg) (idx : U5) (s : State) : Res :=
  s.issue p { word := encReg 0x0E gd 0 idx.toNat 3, uses := [gd] } fun s =>
    let r := s.proc p
    match (if p ≠ 128 && s.hashFailed p then none else r.hash.alg), r.hash.digest with
    | none, _ => s.setProc p (r.setReg gd 0).retire
    | some _, none => s
    | some _, some d => s.setProc p (r.setReg gd (wordAt d idx.toNat)).retire

/-! ## System operations (R69 to R71, R98, R104) -/

/-- SETMODE: the change takes effect after its shadow; illegal in a shadow and with gs[31:2] nonzero (R69, R71, R106). -/
def execSetmode (p : Pid) (gs : Reg) (s : State) : Res :=
  s.issue p { word := encReg 0x30 0 gs 0 0, uses := [gs], noSlot := true } fun s =>
    let r := s.proc p
    if r.shadow.isSome || 4 ≤ (r.reg gs).toNat then s.takeException p 0x01 (encReg 0x30 0 gs 0 0)
    else if !r.sup then s.takeException p 0x02 (encReg 0x30 0 gs 0 0)
    else s.setProc p { r.retire with shadow := some ((r.reg gs).truncate 2) }

/-- ERET (R104). The fetch buffer of a lane processor is empty afterwards; the warden's instruction cache stays as it is (R57). -/
def execEret (p : Pid) (s : State) : Res :=
  s.issue p { word := encReg 0x30 0 0 0 1, uses := [], noSlot := true, priv := true } fun s =>
    s.updProc p fun r =>
      let back := r.estat.truncate 2
      { r with mode := r.shadow.getD back, shadow := if r.estat.getLsbD 3 then some ((r.estat >>> 4).truncate 2) else none
               estat := r.estat &&& ~~~0x80#32, pc := r.epc &&& ~~~3#32, instret := r.instret + 1
               stale := if p.val = 128 then r.stale else [] }

/-- TRAP (R69, R99). -/
def execTrap (p : Pid) (code : U10) (s : State) : Res :=
  s.issue p { word := BitVec.ofNat 32 (0x30 * 2 ^ 26 + code.toNat * 2 ^ 16 + 2), uses := [], noSlot := true } fun s =>
    s.takeException p 0x09 (code.zeroExtend 32)

/-- BREAK (R69, R99). -/
def execBreakpoint (p : Pid) (s : State) : Res :=
  s.issue p { word := encReg 0x30 0 0 0 6, uses := [] } fun s => s.takeException p 0x0A 0

/-- EVWAIT: completes at once if an enabled event is pending, and suspends the processor otherwise (R98, R334). -/
def execEvwait (p : Pid) (s : State) : Res :=
  s.issue p { word := encReg 0x30 0 0 0 3, uses := [], priv := true } fun s =>
    if s.wakeWord p ≠ 0 then s.updProc p Proc.retire else s.updProc p fun r => { r with waiting := true }

/-- FENCE: completes once every earlier access has completed (R53, R80, R328). -/
def execFence (p : Pid) (s : State) : Res :=
  s.issue p { word := encReg 0x30 0 0 0 4, uses := [] } fun s =>
    let r := s.proc p
    if r.loads.isEmpty && r.stores.isEmpty && r.port.isEmpty then s.setProc p r.retire else s

/-- FLUSHI: waits for every earlier store to instruction RAM; after it every fetch returns the new content (R57). -/
def execFlushi (p : Pid) (s : State) : Res :=
  s.issue p { word := encReg 0x30 0 0 0 5, uses := [], priv := true } fun s =>
    let r := s.proc p
    if r.stores.any (fun x => x.loc.space = 0 || x.loc.space = 4) then s else s.setProc p (Proc.retire { r with stale := [] })

/-- EVWAIT_RESUME: an enabled event is pending and the suspended EVWAIT completes; with IE = 1 the interrupt comes first (R98). -/
def execEvwaitResume (p : Pid) (s : State) : Res :=
  .next (
    let r := s.proc p
    if r.waiting && s.wakeWord p ≠ 0 && !r.ie then s.setProc p (Proc.retire { r with waiting := false }) else s)

/-- The processor can accept an interrupt: running or suspended, not halted (R94, R95). -/
def State.canAccept (s : State) (p : Nat) : Bool :=
  if p = 128 then s.warden.up && s.domOn 36 else (s.eng p).run = 0 && s.tileOn (tileOf p)

/-- INTERRUPT_ACCEPT: with IE = 1 and an enabled event the uncommitted instruction is abandoned and the handler entered (R95, R96, R101). -/
def execInterruptAccept (p : Pid) (s : State) : Res :=
  .next (if s.canAccept p && (s.proc p).ie && s.wakeWord p ≠ 0 then s.takeException p 0x80000000 (s.wakeWord p) else s)

/-- A parity error of an issued word is counted: ENGn_ECCCNT.IPAR of a lane; the warden's instruction RAM has ECC instead (R86, R110, R327). -/
def State.countParity (s : State) (p : Nat) : State :=
  if p = 128 then s else s.updEng p fun e => { e with ipar := satAdd e.ipar 1 }

/-- ILLEGAL: the word at issue is illegal and the ILLEGAL exception is taken; a word of a lane whose parity fails raises IPARITY, which comes
first (R40, R86, R99, R100). A word that is a legal instruction is no such event. -/
def execIllegal (p : Pid) (word : Word) (parity : Bool) (s : State) : Res :=
  .next (
    if !s.running p then s
    else if parity && p ≠ 128 then (s.countParity p).takeException p 0x0B (s.proc p).pc
    else if !s.fetchOk p (s.proc p).pc then s.takeException p 0x03 (s.proc p).pc
    else if (decodeSialven p word).isNone then s.takeException p 0x01 word
    else s)

end Sys2Proof.Machine
end

