-- ==== Sys2Proof/Machine/Molt.lean ====
section
/-!
DEFINITION. Molts at work: what an engine reports through its molt post queue and what vendor warden firmware does with it (R192, R196, R199 to
R201, R227), and the events of the gates.
-/

namespace Sys2Proof.Machine

/-- A post finds no credit of the engine's molt post queue: it is not enabled, or 64 items wait (R250, R257). -/
def State.noPostCredit (s : State) (e : Nat) : Bool := !(s.queue (384 + e)).en || 64 ≤ (s.eng e).moltPost.length

/-- A ready claim opens a window at the watermark and closes the molt's gates over it, unless the open windows of the engine's tile would then hold more
than 128 spill blocks (R192, R199 step 1, R203, R205). -/
def State.postClaim (s : State) (m : Nat) : State :=
  if s.moltReady m then
    let t := s.updMolt m fun r => { r with st := 2, wlimit := s.moltLimit m, promoted := false, lost := 0, since := s.now }
    let n := t.moltWindow m
    let r := t.molt m
    let t := t.updMolt m fun r => { r with wend := r.wmark + n, win := 1 }
    if 128 < t.moltBlocks (tileOf r.engine) then s
    else
      let t := t.moltClose m r.wmark (r.wmark + n)
      if (t.moltGates m).isEmpty then (t.updMolt m fun r => { r with win := 2 }).moltWork m 1 else t
  else s

/-- The molt waits 10 ms before its next try (R196, R199). -/
def State.moltRetry (s : State) (m : Nat) : State := s.updMolt m fun r => { r with retry := true }

/-- A failed attempt at a window is counted; the eighth in a row is a FAULT pause that only molt-resume clears (R199). -/
def State.moltFailed (s : State) (m : Nat) : State :=
  let s := s.updMolt m fun r => { r with fails := r.fails + 1 }
  if 8 ≤ (s.molt m).fails then s.updMolt m fun r => { r with pcause := 6, fails := 0 } else s

/-- A fingerprint: the journal entry is written and GO posted, unless a cause of R191 stops the window first (R199 steps 4 and 5). -/
def State.postFingerprint (s : State) (m : Nat) (fp : DWord) : State :=
  if (s.molt m).win ≠ 2 then s
  else if (s.molt m).pcause ≠ 0 || !(s.moltCauses m).isEmpty then s.moltCheck m
  else ((s.moltJournal m true fp).updMolt m fun r => { r with win := 3 }).moltWork m 2

/-- A window is done: the watermark moves past it, the gates open, and the next window is placed anew; at BEND the hand-over begins (R199 step 7, R192,
R202). -/
def State.postEnded (s : State) (m : Nat) : State :=
  let r := s.molt m
  if r.win ≠ 3 then s
  else
    let s := ((s.updMolt m fun r => { r with moved := r.moved + (r.wend - r.wmark), fails := 0, drains := 0 }).moltPublish m r.wend).moltPlace m
    if r.bend ≤ r.wend then s.moltSwitch m else s.moltCheck m

/-- A resolved window: the journal says where the watermark stands, PENDING falls, and the gates open. One found under the old key leaves the count of
failed attempts at it (R199, R201; MOVED as at step 7, log 38). -/
def State.moltResolved (s : State) (m : Nat) (new : Bool) : State :=
  let j := s.journalOf m
  let wm := if new then j.wmark + j.wlen else j.wmark
  let s := s.updMolt m fun r => { r with moved := if new then r.moved + j.wlen else r.moved, fails := if new then 0 else r.fails, wmark := j.wmark }
  (((s.moltPublish m wm).moltJournal m false j.fp).moltPlace m).moltCheck m

/-- The engine's part of a window failed: before step 5 the window is abandoned, afterwards it is resolved later with its gates closed (R199). -/
def State.postFailed (s : State) (m : Nat) : State :=
  let w := (s.molt m).win
  if w = 2 then (((s.moltFailed m).moltRetry m).moltAbandon m).moltCheck m
  else if w = 3 || w = 4 then (((s.moltFailed m).moltRetry m).updMolt m fun r => { r with win := 6 }).moltCheck m
  else s

/-! ## The molt post queue (R227, R249, R250, R257) -/

/-- The warden takes one post of an engine; one of an engine that the molt is not placed on has no effect. -/
def State.moltTake (s : State) (e : Nat) (p : MoltPost) : State :=
  if (s.molt p.molt).engine ≠ e then s
  else match p.kind with
    | 1 => s.postClaim p.molt
    | 2 => s.postFingerprint p.molt p.fp
    | 3 => s.postEnded p.molt
    | 4 => if (s.molt p.molt).win = 4 then s.moltResolved p.molt true else s
    | 5 => if (s.molt p.molt).win = 4 then s.moltResolved p.molt false else s
    | 6 => s.postFailed p.molt
    | _ => s

/-- Warden firmware pops an engine's molt post queue, oldest first. -/
def State.postDrain (s : State) (e : Nat) : State :=
  if s.fwUp then (s.eng e).moltPost.foldl (fun s p => s.moltTake e p) (s.updEng e fun g => { g with moltPost := [] }) else s

/-- A post enters the engine's queue, from which the warden takes it behind those before it, once its firmware runs; one without a credit is discarded with
OVF. -/
def State.moltPostOp (s : State) (e kind m : Nat) (fp : DWord) : Res :=
  .next (
    let s := s.postDrain e
    if s.noPostCredit e then s.updQueue (384 + e) fun q => { q with ovf := true }
    else (s.updEng e fun g => { g with moltPost := g.moltPost ++ [{ kind := kind, molt := m, fp := fp }] }).postDrain e)

/-- MOLTPOST_CLAIM (R199 step 1). -/
def execMoltpostClaim (e : EngId) (m : MoltId) (s : State) : Res := s.moltPostOp e 1 m 0
/-- MOLTPOST_FINGERPRINT (R199 step 4). -/
def execMoltpostFingerprint (e : EngId) (m : MoltId) (fp : DWord) (s : State) : Res := s.moltPostOp e 2 m fp
/-- MOLTPOST_DONE (R199 step 7). -/
def execMoltpostDone (e : EngId) (m : MoltId) (s : State) : Res := s.moltPostOp e 3 m 0
/-- MOLTPOST_RESOLVED_NEW: the engine found the pending window's first LBA under the new key (R201). -/
def execMoltpostResolvedNew (e : EngId) (m : MoltId) (s : State) : Res := s.moltPostOp e 4 m 0
/-- MOLTPOST_RESOLVED_OLD: the engine found it under the old key (R201). -/
def execMoltpostResolvedOld (e : EngId) (m : MoltId) (s : State) : Res := s.moltPostOp e 5 m 0
/-- MOLTPOST_FAILED: the engine's part of a window failed (R199). -/
def execMoltpostFailed (e : EngId) (m : MoltId) (s : State) : Res := s.moltPostOp e 6 m 0

/-- Every gate of the molt is DRAINED (R196). -/
def State.moltDrained (s : State) (m : Nat) : Bool := (s.moltGates m).all fun q => ((s.quad q).gate m).drained

/-- The hand-over of a drained molt: HANDLE becomes NEW, NEXT is not valid, the record becomes FREE, the gates open, the old keyslot is erased,
and the owner hears of it (R192, R248). -/
def State.moltHandOver (s : State) (m : Nat) : State :=
  let r := s.molt m
  let owner := s.moltOwner m
  let s := s.updNs r.nsx fun n => n.setBand r.band { n.band r.band with handle := mkBandWord r.new, next := 0 }
  let s := (s.updMolt m fun r => { r with win := 0 }).moltFree m
  let s := (s.tenantEvent owner 0x0B 0 0 (BitVec.ofNat 32 m)).emit (.operator 0x0B (BitVec.ofNat 32 m))
  let x := mkErase 3 0 none 0 (handleSlot r.old)
  if s.vault.regBusy = 3#2 then eraseFinish 1 (((s.markErased 0 x.key).erasePurge 0 x.key []).commit) x else s.eraseStart x []

/-- Warden firmware finds every gate of a molt drained: RUN is posted, or the hand-over carried out (R192, R199 step 2). -/
def State.moltDrain (s : State) (m : Nat) : State :=
  let w := (s.molt m).win
  if !s.fwUp || !s.moltDrained m then s
  else if w = 1 then (s.updMolt m fun r => { r with win := 2, drains := 0 }).moltWork m 1
  else if w = 5 then s.moltHandOver m
  else s

/-- GATE_DRAINED: the earlier phase's counter of a closed gate has reached 0; with every gate of the molt drained, RUN is posted, or the
hand-over carried out (R192, R196, R199 step 2). -/
def execGateDrained (q : QuadId) (m : MoltId) (s : State) : Res :=
  .next (
    let g := (s.quad q).gate m
    if !g.drained || g.drainedEvt then s
    else
      let s := (s.updQuad q fun x => x.setGate m { g with drainedEvt := true }).raise (80 + q)
      s.moltDrain m)

/-- A warden restart ends the windows that no GO has been posted for, resolves the others, takes what the engines posted meanwhile, and goes on with a
hand-over that has drained (R206, R340). -/
def State.moltRestart (s : State) : State :=
  let s := (s.molts.map Prod.fst).foldl (fun s m =>
    let r := s.molt m
    let s := if r.win = 1 || r.win = 2 then s.moltAbandon m else if r.win = 3 || r.win = 4 then s.updMolt m fun r => { r with win := 6 } else s
    (s.moltCheck m).moltDrain m) s
  s.each (s.engines.map Prod.fst) State.postDrain

/-- GATE_DRAIN_TIMEOUT: DRAINED has not come 2 ms after the close. A window is abandoned, and the eighth in a row pauses the molt with cause
DRAIN; a hand-over reopens its gates and tries again (R192, R196). -/
def execGateDrainTimeout (q : QuadId) (m : MoltId) (s : State) : Res :=
  .next (
    let g := (s.quad q).gate m
    if !s.fwUp || !g.closed || g.drained then s
    else if (s.molt m).win = 1 then
      let s := (s.updMolt m fun r => { r with drains := r.drains + 1 }).moltRetry m
      let s := if 8 ≤ (s.molt m).drains then s.updMolt m fun r => { r with pcause := 5, drains := 0 } else s
      (s.moltAbandon m).moltCheck m
    else if (s.molt m).win = 5 then ((s.updMolt m fun r => { r with win := 0 }).moltOpen m).moltRetry m
    else s)

/-- MOLT_RETRY_TIMER: the 10 ms of R196 and R199 have passed. -/
def execMoltRetryTimer (m : MoltId) (s : State) : Res :=
  .next (
    if !(s.molt m).retry then s
    else
      let s := s.updMolt m fun r => { r with retry := false }
      if (s.molt m).st = 5 && (s.molt m).win = 0 then s.moltSwitch m
      else if (s.molt m).st = 5 && (s.moltGates m).isEmpty then s.moltHandOver m
      else s.moltCheck m)

/-- MOLT_AGING_PROMOTE: a claim or window that has waited 100 ms is promoted, as one is that has lost 256 arbitrations (R203). -/
def execMoltAgingPromote (m : MoltId) (s : State) : Res :=
  .next (
    let r := s.molt m
    if r.st = 0 || !(s.moltReady m || (1 ≤ r.win && r.win ≤ 4)) || (r.lost < 256 && s.now - r.since < 10000000) then s else s.moltPromote m)

/-! ## The start of a molt (R185, R207) -/

/-- Rows 2 to 8 of R185 for a band: status, DETAIL, and the new molt's number. -/
def State.moltStartOk (s : State) (nsx band : Nat) : Nat × Nat × Nat :=
  let n := s.ns nsx
  let b := n.band band
  let k1 := handleSlot (bandHandle b.handle)
  let k2 := handleSlot (bandHandle b.next)
  let r1 := s.krec k1
  let r2 := s.krec k2
  if !bandValid b.handle || !bandValid b.next || recState r1 ≠ 1 || recState r2 ≠ 1 || recNsx r1 ≠ nsx || recNsx r2 ≠ nsx
      || recBand r1 ≠ band || recBand r2 ≠ band || recCtrl r1 ≠ recCtrl r2 then (0x109, 0, 0)
  else match s.moltOf nsx band with
    | some m => (0x10A, m, 0)
    | none =>
      match (List.range 64).find? fun m => (s.molt m).st = 0 with
      | none => (0x10B, 0, 0)
      | some m =>
        if recMode r2 = 2 && (n.extentsIn (n.bandLo band) (n.bandHi band)).any fun x => !gcmOk (s.extNs x) n.lbads then (0x102, 0, 0)
        else if s.erasePending k1 || s.erasePending k2 then (0x104, 0, 0)
        else if s.vault.epochst ≠ 1 then (0x105, 0, 0) else (0, 0, m)

/-- The molt is created in ARMED, with its gates programmed and its journal entry written (R185, R187, R193, R200). -/
def State.moltArm (s : State) (m nsx band : Nat) : State :=
  let n := s.ns nsx
  let b := n.band band
  let s := s.setMolt m { Molt.init with st := 1, band := band, nsx := nsx, old := bandHandle b.handle, new := bandHandle b.next, wmark := n.bandLo band
                                        wend := n.bandLo band, bend := n.bandHi band, since := s.now }
  let s := s.updMolt m fun r => { r with wlimit := s.moltLimit m }
  ((s.moltProgram m nsx).moltPlace m).moltJournal m false 0

/-- Vendor firmware starts a molt on a GCM-sector band whose write counter has passed 0xFF00_0000, where R185 admits one (R207). -/
def State.moltAuto (s : State) (nsx band counter : Nat) : State :=
  if counter ≤ 0xFF000000 || !s.fwUp then s
  else let c := s.moltStartOk nsx band; if c.1 = 0 then s.moltArm c.2.2 nsx band else s

end Sys2Proof.Machine
end

