-- ==== Sys2Proof/Machine/Slots.lean ====
section
/-!
DEFINITION. An engine's queues, slots and spill blocks, as its registers of R226 and R227 act: the command queue, deferral, the tenant completion,
claimed slots, slot classes, the completion inbox, the molt work queue and spill blocks (R161, R223 to R229, R235, R245).
-/

namespace Sys2Proof.Machine

/-- The register window of an engine answers: its tile is powered (R429). -/
def State.engOn (s : State) (e : Nat) : Bool := s.tileOn (tileOf e)

/-! ## Queue heads -/

/-- CMDPOP: the head of the command queue is removed; each ready claim of a molt placed on this engine loses one arbitration, and the 256th promotes it
(R203, R227). -/
def State.cmdPop (s : State) (e : Nat) : State :=
  match (s.eng e).cmdq with
  | [] => s
  | _ :: rest =>
    let ms := (s.molts.filter fun p => p.2.engine = e && s.moltReady p.1).map Prod.fst
    (s.updEng e fun g => { g with cmdq := rest }).each ms fun s m =>
      let s := s.updMolt m fun r => { r with lost := r.lost + 1 }
      if 256 ≤ (s.molt m).lost then s.moltPromote m else s

/-- Completions that the tile holds enter the inbox while it is enabled and has credits: 512 items (R250, R257). -/
def Engine.dcqFill (g : Engine) (en : Bool) : Engine :=
  if en then { g with dcq := g.dcq ++ g.dcqHold.take (512 - g.dcq.length), dcqHold := g.dcqHold.drop (512 - g.dcq.length) } else g

def State.dcqPop (s : State) (e : Nat) : State := s.updEng e fun g => Engine.dcqFill { g with dcq := g.dcq.tail } (s.queue (128 + e)).en
def State.moltPop (s : State) (e : Nat) : State := s.updEng e fun g => { g with moltq := g.moltq.tail }

def execCmdpop (e : EngId) (s : State) : Res := .next (s.cmdPop e)
def execDcqpop (e : EngId) (s : State) : Res := .next (s.dcqPop e)
def execMoltpop (e : EngId) (s : State) : Res := .next (s.moltPop e)

/-! ## Deferral (R227, R228, R235) -/

/-- The command of a slot as an entry again. -/
def Slot.entry (x : Slot) : Entry :=
  { func := x.func, sqid := x.sqid, sqe := x.sqe, nsx := x.nsx, cost := x.cost, fetched := x.fetched, heldBy := x.heldBy, conflict := x.conflict }

/-- ENGn_CMDDEFER with GO: an ELASTIC command goes back to the tail of its controller's spill queue, past QUOTA if need be, and its slot is free;
a write that R228 names, or one that finds no credit, is discarded. A command that a reset or deletion is ending ends here (R241). -/
def State.cmdDefer (s : State) (e : Nat) (v : Word) : State :=
  let k := fld v.toNat 8 0
  let s := s.updEng e fun g => { g with cmdDefer := BitVec.ofNat 32 k }
  let x := (s.eng e).slot k
  if !x.busy || !x.delivered || x.cls ≠ 1 || x.xfer.isSome then s.updEng e fun g => { g with errSlot := k, errDef := true }
  else if x.posted then s
  else if x.mute || (s.ctl x.func).ending || (s.ctl x.func).cfs || ((s.ctl x.func).sq x.sqid).deleting.isSome then s.endQuietly e k
  else if !(s.spillRoom x.func) then s.updQueue (512 + x.func) fun q => { q with ovf := true }
  else ((s.uncount x.func x.gates).spillPush x.entry).freeSlot e k

def execCmddefer (e : EngId) (value : Word) (s : State) : Res := .next (if s.engOn e then s.cmdDefer e value else s)

/-! ## The tenant completion (R30, R194, R227, R236, R245, R246) -/

/-- Ledger counters of a completion: refusals other than by admission, bytes of a successful read or write, and a missed latency target. -/
def Ledger.completed (l : Ledger) (x : Slot) (bytes sct sc : Nat) (late : Bool) : Ledger :=
  let op := fld (x.sqe.getD 0 0).toNat 7 0
  let l := if sct = 0 && sc = 0x21 && x.cls ≤ 1 then { l with refOther := l.refOther + 1 } else l
  let l := if sct = 0 && sc = 0 && op = 2 then { l with bytesRead := l.bytesRead + bytes }
           else if sct = 0 && sc = 0 && op = 1 then { l with bytesWritten := l.bytesWritten + bytes } else l
  if late then { l with latMiss := l.latMiss + 1 } else l

/-- A committed command missed the latency target of its contract (R245). -/
def State.latMissed (s : State) (x : Slot) : Bool :=
  let lat := (s.ctl x.func).lat
  x.cls = 0 && lat ≠ 0 && lat * 1000 < s.now - x.fetched

/-- An erase was in progress at some moment since TIME `t`: its DRAM work ranked above the quadrants (R181, R244). -/
def State.eraseWork (s : State) (t : Nat) : Bool := !s.erases.isEmpty || t < s.warden.eraseEnd

/-- The completion of the command in slot `k` is posted: its gates count it no longer, its CID is free, its controller's ledger counts it, and the
entry goes to the port engine. A slot with no delivered command, or one whose completion is posted, posts nothing; a command that a reset
or deletion is ending posts no entry (R241). -/
def State.complete (s : State) (e k : Nat) (dw0 : Word) (sct sc : Nat) (dnr : Bool) (crd : Nat) : State :=
  let x := (s.eng e).slot k
  if !x.busy || !x.delivered || x.posted || x.mute then s
  else
    let f := x.func
    let op := fld (x.sqe.getD 0 0).toNat 7 0
    let late := s.latMissed x
    let bytes := if x.cls = 4 then 0 else sqeNlb x.sqe * 2 ^ (s.ns x.nsx).lbads
    let s := s.uncount f x.gates
    let s := s.updEng e fun g => g.setSlot k { g.slot k with posted := true, gates := [] }
    let s := s.updCtl f fun c =>
      let q := c.sq x.sqid
      let c := if x.conflict then c else c.setSq x.sqid { q with cids := q.cids.erase x.cid }
      { c with ledger := c.ledger.completed x bytes sct sc late
               smartReads := c.smartReads + b2n (op = 2 && sct = 0 && sc = 0), smartWrites := c.smartWrites + b2n (op = 1 && sct = 0 && sc = 0) }
    let s := match late, x.heldBy with | true, some m => s.tenantEvent f 0x07 5 7 (BitVec.ofNat 32 m) | _, _ => s
    let s := if late && s.eraseWork x.fetched then s.tenantEvent f 0x03 5 2 (BitVec.ofNat 32 (s.funcQuad f)) else s
    let s := s.cplPost f { sqid := x.sqid, cid := x.cid, dw0 := dw0, sct := sct, sc := sc, dnr := dnr, crd := if (s.ctl f).acre then crd else 0
                           src := some (e, k) }
    s.endCheck f

/-- The tenant completion queue of an upstream port is enabled and has a credit: 4,096 items of the engines (R250, R257). -/
def State.cplRoom (s : State) (u : Nat) : Bool :=
  (s.queue (1536 + u)).en && ((s.funcsOfPort u).map fun f => (s.ctl f).waitEng).sum < 4096

/-- ENGn_CPLPOST with GO; one that finds no credit is discarded with OVF (R227, R250). -/
def State.cplPostReg (s : State) (e : Nat) (v : Word) : State :=
  let n := v.toNat
  let s := s.updEng e fun g => { g with cplPost := v &&& 0x7FFE01FF#32 }
  let u := portOf ((s.eng e).slot (fld n 8 0)).func
  if !s.cplRoom u then s.updQueue (1536 + u) fun q => { q with ovf := true }
  else s.complete e (fld n 8 0) (s.eng e).cplDw0 (fld n 27 25) (fld n 24 17) (bitOf n 30) (fld n 29 28)

def execCplpost (e : EngId) (value : Word) (s : State) : Res := .next (if s.engOn e then s.cplPostReg e value else s)

/-! ## Claimed slots and classes (R223, R227 to R229) -/

/-- A read of ENGn_SLOTGET claims a free slot, ELASTIC, with the next generation; it reads 0 where none is free. -/
def State.slotGet (s : State) (e : Nat) : Word × State :=
  match s.choose (s.eng e).freeSlots with
  | none => (0, s)
  | some (k, s) =>
    (BitVec.ofNat 32 (2 ^ 31 + k), s.updEng e fun g => g.setSlot k { Slot.init with busy := true, cls := 1, gen := ((g.slot k).gen + 1) % 16 })

def execSlotget (e : EngId) (s : State) : Res := .next (if s.engOn e then (s.slotGet e).2 else s)

/-- ENGn_SLOTCLS with GO: COMMITTED, ELASTIC or MOLT for an occupied slot, and any other write discarded. -/
def State.slotCls (s : State) (e : Nat) (v : Word) : State :=
  let k := fld v.toNat 8 0
  let c := fld v.toNat 30 28
  let s := s.updEng e fun g => { g with slotCls := v &&& 0x700001FF#32 }
  let x := (s.eng e).slot k
  if !x.busy || (c ≠ 0 && c ≠ 1 && c ≠ 5) then s.updEng e fun g => { g with errSlot := k, errCls := true }
  else s.updEng e fun g => g.setSlot k { x with cls := c }

def execSlotcls (e : EngId) (value : Word) (s : State) : Res := .next (if s.engOn e then s.slotCls e value else s)

/-! ## Spill blocks (R19, R158, R161) -/

/-- A number put in its place in a rising list. -/
def insSorted (k : Nat) : List Nat → List Nat
  | [] => [k]
  | x :: t => if k < x then k :: x :: t else if k = x then x :: t else x :: insSorted k t

/-- Blocks `b` to `b + r - 1` exist and are free. -/
def Tile.runFree (t : Tile) (r b : Nat) : Bool := b + r ≤ 512 && (List.range r).all fun i => !t.spUsed.contains (b + i)

/-- A request is granted, if a block or a long enough run is free: a single block at any index, a run at the lowest (R161). `queued` says that it
waited, so that ENGn_EVENT.SPILL shows it until it is collected (R88). -/
def State.spGrant (s : State) (e run : Nat) (queued : Bool) : Option State :=
  let n := tileOf e
  let t := s.tile n
  let pick := if run = 0 then s.choose ((List.range 512).filter (t.runFree 1))
              else ((List.range 512).find? (t.runFree run)).map fun b => (b, s)
  pick.map fun (b, s) =>
    let r := max 1 run
    let t := { t with spUsed := (List.range r).foldl (fun l i => insSorted (b + i) l) t.spUsed }
    (s.setTile n t).updEng e fun g => { g with grants := g.grants ++ [{ block := b, run := r, queued := queued }] }

/-- One request: granted at once when nothing queues before it, and else queued with WAIT; the first to wait takes the token. An engine has at most
four outstanding (R161). -/
def State.spRequest (s : State) (e run : Nat) : State :=
  if 4 ≤ (s.eng e).spOut then s
  else
    let s := s.updEng e fun g => { g with spOut := g.spOut + 1 }
    match (if (s.tile (tileOf e)).spq.isEmpty then s.spGrant e run false else none) with
    | some s => s
    | none => s.updTile (tileOf e) fun t =>
      { t with spq := t.spq ++ [{ eng := e, run := run }], spToken := if t.spq.isEmpty then some e else some (t.spToken.getD e) }

/-- ENGn_SPREQ with GO. -/
def State.spReqReg (s : State) (e : Nat) (v : Word) : State :=
  let run := min 128 (fld v.toNat 15 8)
  let s := s.updEng e fun g => { g with spReq := v &&& 0xFF07#32 }
  if run ≠ 0 then s.spRequest e run else (List.range (min 4 (fld v.toNat 2 0))).foldl (fun s _ => s.spRequest e 0) s

/-- Two engines of one tile ask in one resolution: one goes first, and where a request of the second then waits, the token leaves a first that held it and
won, and passes to the second (R19, R158, R161). -/
def State.spPair (s : State) (e : Nat) (v : Word) (e2 : Nat) (v2 : Word) : State :=
  let u := s.spReqReg e v
  let w := u.spReqReg e2 v2
  if (u.tile (tileOf e)).spq.length < (w.tile (tileOf e)).spq.length && (s.tile (tileOf e)).spq.length = (u.tile (tileOf e)).spq.length
      && (w.tile (tileOf e)).spToken = some e then w.updTile (tileOf e) fun t => { t with spToken := some e2 }
  else w

/-- SPREQ, alone or with the request of another engine of its tile in the same resolution (R19, R158, R161). -/
def execSpreq (e : EngId) (value : Word) (s : State) (rival : Option (EngId × Word) := none) : Res :=
  .next (
    if !s.engOn e then s
    else match rival with
      | none => s.spReqReg e value
      | some (e2, v2) =>
        if e = e2 || tileOf e ≠ tileOf e2 || !s.engOn e2 then s.spReqReg e value
        else
          let r := s.mutexFirst (s.tile (tileOf e)).spToken e e2
          if r.1 then r.2.spPair e value e2 v2 else r.2.spPair e2 v2 e value)

/-- SPILL_GRANT: the head of a tile's queue is granted once blocks for it are free; none overtakes it (R161). -/
def execSpillGrant (t : TileId) (s : State) : Res :=
  .next (
    match (s.tile t).spq with
    | [] => s
    | w :: rest => ((s.updTile t fun x => { x with spq := rest }).spGrant w.eng w.run true).getD s)

/-- A read of ENGn_SPGNT collects the oldest grant. -/
def State.spGntRead (s : State) (e : Nat) : Word × State :=
  match (s.eng e).grants with
  | [] => (0, s)
  | x :: rest => (BitVec.ofNat 32 (2 ^ 31 + x.run * 2 ^ 16 + x.block), s.updEng e fun g => { g with grants := rest, spOut := g.spOut - 1 })

def execSpgntRead (e : EngId) (s : State) : Res := .next (if s.engOn e then (s.spGntRead e).2 else s)

/-- ENGn_SPRET with GO: a block returns to the free pool. -/
def State.spRetReg (s : State) (e : Nat) (v : Word) : State :=
  let b := fld v.toNat 8 0
  (s.updEng e fun g => { g with spRet := BitVec.ofNat 32 b }).updTile (tileOf e) fun t => { t with spUsed := t.spUsed.filter (· ≠ b) }

def execSpret (e : EngId) (value : Word) (s : State) : Res := .next (if s.engOn e then s.spRetReg e value else s)

end Sys2Proof.Machine
end

