-- ==== Sys2Proof/Machine/MoverOps.lean ====
section
/-!
DEFINITION. The data mover's GO with its checks (R131 to R134), the release of a slot (R136), the drive-error ring (R311) and the issue of a
drive command (R29, R308, R309).
-/

namespace Sys2Proof.Machine

/-! ## The descriptor (R131, R132) -/

/-- A transfer descriptor as the staging registers hold it. -/
structure Desc where
  slot : Nat
  dir : Nat
  ctx : Nat
  ctx2 : Nat
  func : Nat
  dport : Nat
  len : Nat
  prp1 : DWord
  prp2 : DWord
  plen : Nat
  src : Nat
  dst : Nat
  mofs : Nat
  msize : Nat

/-- A 64-bit value of two words. -/
def pair64 (lo hi : Word) : DWord := BitVec.ofNat 64 (lo.toNat + 2 ^ 32 * hi.toNat)

/-- The descriptor in the staging registers. -/
def Engine.desc (g : Engine) : Desc :=
  let c := (g.stg 0x100).toNat
  let l := (g.stg 0x104).toNat
  let m := (g.stg 0x120).toNat
  { slot := fld c 8 0, dir := fld c 14 12, ctx := fld c 17 16, ctx2 := fld c 19 18, func := fld c 29 20, dport := fld l 31 27, len := fld l 24 0
    prp1 := pair64 (g.stg 0x108) (g.stg 0x10C), prp2 := pair64 (g.stg 0x110) (g.stg 0x114), plen := fld l 24 0, src := fld (g.stg 0x118).toNat 20 0
    dst := fld (g.stg 0x11C).toNat 20 0, mofs := fld m 20 0, msize := fld m 26 24 }

/-- The contexts that a direction uses (R129). -/
def Desc.used (d : Desc) : List Nat := if d.dir ≤ 1 then [d.ctx] else if d.dir = 4 then [d.ctx, d.ctx2] else []

/-! ## The checks of GO (R128, R132, R134) -/

/-- MODE and DUSIZE are values of R120. -/
def KeyCtx.defined (k : KeyCtx) : Bool := k.mode.toNat ≤ 2 && k.dusize.toNat ≤ 1
/-- The context is in GCM-sector mode with a data unit. -/
def KeyCtx.isGcm (k : KeyCtx) : Bool := k.defined && k.mode = 2
/-- Bytes of the context's data unit. -/
def KeyCtx.unit (k : KeyCtx) : Nat := duBytes k.dusize.toNat

/-- A range of tile scratch from a 16-byte aligned offset. -/
def scratchOk (off len : Nat) : Bool := off % 16 = 0 && off + len ≤ 2 ^ 21

/-- LBA accumulators that a transfer needs (R128). -/
def Desc.accs (d : Desc) (g : Engine) : Nat := ((d.used.filter fun c => (g.ctx c).isGcm).map fun c => d.len / (g.ctx c).unit).sum

/-- Accumulators that unreleased transfers hold. -/
def Engine.accsHeld (g : Engine) : Nat := (g.slots.map fun p => match p.2.xfer with | some x => x.accs | none => 0).sum

/-- The descriptor breaks R132 (BAD_DESC of R134). -/
def State.badDesc (s : State) (e : Nat) (d : Desc) : Bool :=
  let g := s.eng e
  let gcm := d.used.filter fun c => (g.ctx c).isGcm
  4 < d.dir || 2 < d.msize || d.len = 0 || 2 ^ 24 < d.len || d.len % 16 ≠ 0
  || (d.used.any fun c => (g.ctx c).defined && d.len % (g.ctx c).unit ≠ 0)
  || ((d.dir = 3 || d.dir = 4) && !scratchOk d.src d.len)
  || ((d.dir = 2 || d.dir = 4 || (d.dir = 1 && !gcm.isEmpty)) && !scratchOk d.dst d.len)
  || (gcm.any fun c => d.mofs % 32 ≠ 0 || 2 ^ 21 < d.mofs + d.len / (g.ctx c).unit * (32 * 2 ^ d.msize))
  || (d.dir ≤ 1 && s.funcQuad d.func ≠ quadOfEng e)
  || 1024 < d.accs g

/-- The result of a GO: the first condition of R134 that fails, or STARTED. -/
def State.goCheck (s : State) (e : Nat) (d : Desc) : Nat :=
  let g := s.eng e
  let ks := d.used.map g.ctx
  if (g.slot d.slot).xfer.isSome then 0x20
  else if s.badDesc e d then 0x21
  else if g.cuFault then 0x17
  else if ks.any fun k => !k.defined || k.mode = 0 then 0x23
  else if ks.any fun k => k.st ≠ 3 then 0x22
  else if ks.any fun k => k.mode.toNat ≠ k.tag.mode then 0x24
  else if ks.any fun k => !k.tag.admits d.func then 0x25
  else if (d.dir = 0 && (g.ctx d.ctx).isGcm && (g.ctx d.ctx).version = 0xFFFFFFFF#32) || (d.dir = 4 && (g.ctx d.ctx2).isGcm && (g.ctx d.ctx2).version = 0xFFFFFFFF#32) then 0x26
  else if 1024 < d.accs g + g.accsHeld then 0x27
  else 0

/-- What a transfer latches of a context (R65, R133). -/
def KeyCtx.latch (k : KeyCtx) (c : Nat) : Latched :=
  { ctx := c, key := k.key, handle := k.handle, mode := k.mode.toNat, du := k.dusize.toNat, tweak := k.tweak, version := k.version, tag := k.tag }

/-- The transfer that an accepted GO starts; it moves nothing while a power-on self-test runs (R139). -/
def Engine.newXfer (g : Engine) (d : Desc) : Xfer :=
  { phase := 0, dir := d.dir, func := d.func, dport := d.dport, len := d.len, prp1 := d.prp1, prp2 := d.prp2, plen := d.plen, src := d.src, dst := d.dst
    mofs := d.mofs, msize := d.msize, c1 := d.used.head?.map fun c => (g.ctx c).latch c, c2 := (d.used.drop 1).head?.map fun c => (g.ctx c).latch c
    done := [], asm := [], ct := [], lbas := [], mdone := [], changed := false, held := [], accs := d.accs g, parked := g.cuTesting && !g.cuPeriodic
    outcome := 0, lbaIdx := 0, used := 0, used2 := 0 }

/-- PRP1 or PRP2 breaks the rules of NVMe Base 2.0: PRP1 dword aligned; PRP2 page aligned where it names the second page, qword aligned where it
points to a list (R137; pages of 4 KiB; PRESUMED, log 47). -/
def prpBad (p1 p2 : DWord) (n : Nat) : Bool :=
  let first := 4096 - p1.toNat % 4096
  p1.toNat % 4 ≠ 0 || (first < n && p2.toNat % (if n ≤ first + 4096 then 4096 else 8) ≠ 0)

/-- A host transfer whose PRP entries break the rules ends HOST_ERROR, a violation of its tenant, before it moves anything (R137, R242). -/
def State.prpCheck (s : State) (e k : Nat) : State :=
  match s.xferOf e k with
  | some x => if x.phase = 0 && !x.parked && x.dir ≤ 1 && prpBad x.prp1 x.prp2 x.plen then (s.endXfer e k 0x34).countViolation x.func else s
  | none => s

/-- One GO: its result goes to ENGn_DMSTAT, and an accepted one binds the transfer to its slot (R133, R134). -/
def State.dmGo (s : State) (e : Nat) (d : Desc) : Nat × State :=
  let r := s.goCheck e d
  let s := s.updEng e fun g => { g with dmSlot := d.slot, dmResult := r }
  (r, if r = 0 then (s.putXfer e d.slot (some ((s.eng e).newXfer d))).prpCheck e d.slot else s)

/-! ## The drive-error ring (R311) -/

/-- The 16 bytes of a record. -/
def DeRecord.bytes (r : DeRecord) : List Byte :=
  leBytes 1 1 ++ leBytes 1 r.kind ++ leBytes 1 r.drive ++ [0] ++ leBytes 2 r.slot ++ leBytes 2 r.cid ++ leBytes 4 r.detail.toNat ++ leBytes 4 r.time.toNat

/-- Held records of an engine are written in order while their next position has been read. -/
def deFlush : Nat → State → Nat → State
  | 0, s, _ => s
  | n + 1, s, e =>
    let g := s.eng e
    let t := s.tile (tileOf e)
    match g.deHeld with
    | [] => s
    | r :: rest =>
      let a := t.deAddr e g.dePos
      if Memory.rd t.scratch a = 1 then s
      else deFlush n ((s.updTile (tileOf e) fun t => { t with scratch := Memory.put t.scratch a r.bytes }).updEng e fun g =>
        { g with deHeld := rest, dePos := (g.dePos + 1) % 16 }) e

/-- The tile writes a drive-error record for an engine, or holds it. -/
def State.deRecord (s : State) (e kind drive slot : Nat) (cid : BitVec 16) (detail : Word) : State :=
  let r : DeRecord := { kind := kind, drive := drive, slot := slot, cid := cid.toNat, detail := detail, time := s.time.truncate 32 }
  deFlush 16 (s.updEng e fun g => { g with deHeld := g.deHeld ++ [r] }) e

/-! ## Drive queues in tile scratch (R17, R27, R308, R309; layout: log 91) -/

/-- Blocks of 4 KiB that `n` bytes take. -/
def blocksOf (n : Nat) : Nat := (n + 4095) / 4096

/-- A tile's submission queue on a drive. -/
def Tile.drvSq (t : Tile) (d : Nat) : DrvSq := Tbl.get DrvSq.init t.drvSqs d
def Tile.setDrvSq (t : Tile) (d : Nat) (q : DrvSq) : Tile := { t with drvSqs := Tbl.set DrvSq.init t.drvSqs d q }

/-- Scratch offsets of the completion ring, the 64-byte header and the interrupt landing area. -/
def DrvSq.cqAt (q : DrvSq) : Nat := q.base + 4096 * blocksOf (64 * q.depth)
def DrvSq.hdr (q : DrvSq) : Nat := q.cqAt + 16 * q.cqDepth
def DrvSq.landAt (q : DrvSq) : Nat := q.hdr + 64
/-- Spill blocks of the run. -/
def DrvSq.blocks (q : DrvSq) : Nat := blocksOf (q.landAt + 64 - q.base)

/-- Next entry to claim and oldest entry not consumed, from the tail word and the head beside it (R309). -/
def Tile.sqTail (t : Tile) (d : Nat) : Nat := Memory.num t.scratch (t.drvSq d).hdr 4 % max 1 (t.drvSq d).depth
def Tile.sqHead (t : Tile) (d : Nat) : Nat := Memory.num t.scratch ((t.drvSq d).hdr + 4) 4 % max 1 (t.drvSq d).depth

/-- The queue exists and holds fewer than DEPTH - 1 unconsumed entries (R309). -/
def Tile.sqRoom (t : Tile) (d : Nat) : Bool :=
  let n := (t.drvSq d).depth
  n ≠ 0 && (t.sqTail d + n - t.sqHead d) % n < n - 1

/-- A head pointer lies in the queue and does not move backwards (R309, R314). -/
def Tile.sqHeadOk (t : Tile) (d h : Nat) : Bool :=
  let n := (t.drvSq d).depth
  n ≠ 0 && h < n && (h + n - t.sqHead d) % n ≤ (t.sqTail d + n - t.sqHead d) % n

/-- The tile's run for a drive is returned and its queues are gone. -/
def Tile.dropSq (t : Tile) (d : Nat) : Tile :=
  let q := t.drvSq d
  if q.depth = 0 then t
  else { t with spUsed := t.spUsed.filter fun y => y < q.base / 4096 || q.base / 4096 + q.blocks ≤ y }.setDrvSq d DrvSq.init

/-- `r` free blocks of a tile are taken at the lowest index and cleared (R161). -/
def Tile.takeBlocks (t : Tile) (r : Nat) : Option (Nat × Tile) :=
  ((List.range 512).find? (t.runFree r)).map fun b =>
    (b, { t with spUsed := (List.range r).foldl (fun l i => insSorted (b + i) l) t.spUsed, scratch := Memory.clear t.scratch (4096 * b) (4096 * r) })

/-! ## Drive commands (R29, R307 to R309) -/

/-- The fields of a drive's submission entry that depend on the command: opcode, namespace, LBAs, Force Unit Access, bytes of data, and the scratch
offsets of its metadata range and of its PRP list. -/
structure DrvOp where
  opc : Nat
  dnsid : Word
  dlba : Nat
  nlb : Nat
  fua : Bool
  len : Nat
  mofs : Option Nat
  list : Option Nat

/-- PRP1, PRP2 and MPTR: relay addresses at a 4 KiB stride; PRP2 names the list past two pages (R27, R307, R309). -/
def DrvOp.prp1 (o : DrvOp) (base e k : Nat) : DWord := if o.len = 0 then 0 else relayAddr base e k 0
def DrvOp.prp2 (o : DrvOp) (base e k : Nat) : DWord :=
  match o.list with
  | some a => relayQAddr base (tileOf e) a
  | none => if o.len ≤ 4096 then 0 else relayAddr base e k 4096
def DrvOp.mptr (o : DrvOp) (base e : Nat) : DWord := match o.mofs with | some a => relayQAddr base (tileOf e) a | none => 0

/-- The PRP list: every page after the first (R309). -/
def DrvOp.listBytes (o : DrvOp) (base e k : Nat) : List Byte :=
  (List.range (blocksOf o.len - 1)).flatMap fun i => leBytes 8 (relayAddr base e k (4096 * (i + 1))).toNat

/-- The 64 bytes of the submission entry (NVMe Base 2.0, PRESUMED, log 47). -/
def DrvOp.entry (o : DrvOp) (base e k : Nat) (cid : BitVec 16) : List Byte :=
  leBytes 4 (o.opc + cid.toNat * 2 ^ 16) ++ leBytes 4 o.dnsid.toNat ++ leBytes 8 0 ++ leBytes 8 (o.mptr base e).toNat ++ leBytes 8 (o.prp1 base e k).toNat
  ++ leBytes 8 (o.prp2 base e k).toNat
  ++ (if o.opc = 1 || o.opc = 2 then leBytes 8 o.dlba ++ leBytes 4 (o.nlb - 1 + b2n o.fua * 2 ^ 30) else if o.opc = 9 then leBytes 4 0 ++ leBytes 4 4 ++ leBytes 4 0
      else leBytes 12 0) ++ leBytes 12 0

/-- A drive command is bound to the slot; its identifier carries the slot's generation (R29). -/
def State.drvBind (s : State) (e k drive : Nat) (o : DrvOp) : State :=
  s.updEng e fun g =>
    let x := g.slot k
    g.setSlot k { x with drv := some { drive := drive, cid := driveCid x.gen e k, opc := o.opc, dnsid := o.dnsid, dlba := o.dlba, nlb := o.nlb, answered := false, seen := false
                                       status := (0, 0, false), timedOut := false, dead := false, dw3 := 0, aborting := false } }

/-- A drive command leaves: PRP list and submission entry are written to scratch, the tail word rises, the doorbell is rung and the slot is bound (R29,
R307, R309). -/
def State.drvIssue (s : State) (e k drive : Nat) (o : DrvOp) : State :=
  let base := s.relayBase (drive / 2)
  let cid := driveCid ((s.eng e).slot k).gen e k
  let s := s.updTile (tileOf e) fun t =>
    let q := t.drvSq drive
    let m := match o.list with | some a => Memory.put t.scratch a (o.listBytes base e k) | none => t.scratch
    let m := Memory.put m (q.base + 64 * t.sqTail drive) (o.entry base e k cid)
    { t with scratch := Memory.putNum m q.hdr 4 (Memory.num m q.hdr 4 + 1) }
  (s.drvBind e k drive o).emit (.driveCmd drive cid o.opc o.dnsid o.dlba o.nlb (o.mptr base e) (o.prp1 base e k) (o.prp2 base e k) o.fua)

/-! ## The completion inbox (R226, R249, R250, R257) -/

/-- A completion entry for a slot reaches the inbox, behind what the tile holds for want of a credit. -/
def State.dcqPush (s : State) (e d k : Nat) (words : List Word) : State :=
  let x : DcqEntry := { dport := d / 2, slot := k, words := words }
  s.updEng e fun g => Engine.dcqFill { g with dcqHold := g.dcqHold ++ [x] } (s.queue (128 + e)).en

/-- Lane firmware pops its inbox, oldest first, and knows of the answers in it. -/
def State.inboxTake (s : State) (e : Nat) : State :=
  s.updEng e fun g =>
    let en := (s.queue (128 + e)).en
    let all := g.dcq ++ (if en then g.dcqHold else [])
    let g := { g with dcq := [], dcqHold := if en then [] else g.dcqHold }
    all.foldl (fun (g : Engine) (x : DcqEntry) =>
      let know := fun (c : DrvCmd) => if c.cid.toNat = fld (x.words.getD 3 0).toNat 15 0 then { c with seen := c.seen || c.answered } else c
      g.setSlot x.slot { g.slot x.slot with drv := (g.slot x.slot).drv.map know }) g

/-! ## Release (R64, R116, R133, R136, R225) -/

/-- Contexts whose KREL waited for their last transfer release their key (R64). -/
def State.relApply (s : State) (e : Nat) : State :=
  [0, 1, 2, 3].foldl (fun s c =>
    let g := s.eng e
    let k := g.ctx c
    if k.relPending && !g.refs c then
      s.setEng e (g.setCtx c { k with st := 0, key := 0, tag := KeyTag.none, status := 2, relPending := false })
    else s) s

/-- The transfer of a slot is released, ending RELEASED if it had not MOVED, with its drive command (R136, R137). -/
def State.dropXfer (s : State) (e k : Nat) : State :=
  let s := s.endXfer e k 0x33
  (s.updEng e fun g => g.setSlot k { g.slot k with xfer := none, drv := none }).relApply e

/-- ENGn_DMREL with REL: the slot is released, and is free at once unless its completion still waits in the port engine (R225, R229). -/
def State.dmRel (s : State) (e k : Nat) : State :=
  let s := (s.updEng e fun g => { g with relSlot := k }).dropXfer e k
  let x := (s.eng e).slot k
  if !x.busy then s
  else if (s.ctl x.func).waitCpl.any fun w => w.src = some (e, k) then s.updEng e fun g => g.setSlot k { x with relWait := true }
  else s.freeSlot e k

end Sys2Proof.Machine
end

