-- ==== Sys2Proof/Machine/Firm.lean ====
section
/-!
DEFINITION. The I/O commands as vendor lane firmware serves them (R190, R217, R219, R236, R239, R240, R510): the checks of a submission entry,
the split into drive commands, key resolution, transfers, and the status that a tenant gets (R313). A row runs one turn of the firmware
on one delivered command; it is sent again for the next turn (log 16).
-/

namespace Sys2Proof.Machine

/-! ## Statuses (R239, R313) -/

/-- SCT, SC and DNR. -/
abbrev Sts := Nat × Nat × Bool

def stOk : Sts := (0, 0, false)
def stDenied : Sts := (2, 0x86, true)
def stNotReady : Sts := (0, 0x82, false)
def stTransport : Sts := (0, 0x22, false)
def stInternal : Sts := (0, 0x06, false)

/-- Place in the order of R313, highest first. -/
def stRank (x : Sts) : Nat :=
  match x.1, x.2.1 with
  | 2, 0x86 => 0 | 0, 0x82 => 1 | 0, 0x22 => 2 | 0, 0x06 => 3 | 0, 0x04 => 4 | 2, 0x80 => 5 | 2, 0x81 => 6 | 0, 0x21 => 7 | 0, 0 => 9 | _, _ => 8

/-- The status of a command of two parts: the one ranked higher; of equal ones DNR = 1 wins (R313). -/
def worseOf (a b : Sts) : Sts :=
  if stRank a < stRank b then a else if stRank b < stRank a then b else (a.1, a.2.1, a.2.2 || b.2.2)

/-- Status of a transfer outcome (R137, R239). -/
def outcomeSts (o : Nat) : Sts :=
  if o = 0 then stOk else if o = 0x30 || o = 0x31 || o = 0x38 then (2, 0x81, false) else if o = 0x34 || o = 0x37 then (0, 0x04, false)
  else if o = 0x32 then stDenied else stInternal

/-- Status of a key result or a GO result (R117, R134, R239). -/
def keySts (r : Nat) : Sts :=
  if r = 0x10 || r = 0x11 || r = 0x12 || r = 0x25 then stDenied else if r = 0x13 then stNotReady else stInternal

/-- Tenant status of a drive's answer (R313). -/
def driveSts (sct sc : Nat) (dnr : Bool) : Sts :=
  if sct = 0 && sc = 0 then stOk else if sct = 2 && (sc = 0x80 || sc = 0x81) then (sct, sc, dnr) else stInternal

/-- The status of a new command to a drive: none while it is ACTIVE, the durable store is loaded and no data would cross a failed die link
(R306, R313). -/
def State.driveRow (s : State) (e d : Nat) : Option Sts :=
  if !s.drvActive d || s.boot.store ≠ 1 then some stNotReady
  else if !s.dieLink && dieOfDrive d ≠ dieOfTile (tileOf e) then some stTransport else none

/-! ## Checks of a submission entry (R510) -/

def Slot.op (x : Slot) : Nat := fld (x.sqe.getD 0 0).toNat 7 0
def Slot.dw (x : Slot) (i : Nat) : Nat := (x.sqe.getD i 0).toNat

/-- An opcode of R217. -/
def ioOpcode (op : Nat) : Bool := op = 0 || op = 1 || op = 2 || op = 9

/-- Fused, PSDT, metadata pointer, PRINFO or another reserved field is nonzero (R217, R510; the layout is NVMe Base 2.0, PRESUMED). -/
def Slot.badFields (x : Slot) : Bool :=
  let rw := x.op = 1 || x.op = 2
  fld (x.dw 0) 15 8 ≠ 0 || x.dw 2 ≠ 0 || x.dw 3 ≠ 0 || x.dw 4 ≠ 0 || x.dw 5 ≠ 0 || (rw && fld (x.dw 12) 29 16 ≠ 0) || (rw && fld (x.dw 13) 31 8 ≠ 0)
  || (x.op = 9 && (fld (x.dw 10) 31 8 ≠ 0 || fld (x.dw 11) 31 3 ≠ 0 || [12, 13, 14, 15].any fun i => x.dw i ≠ 0))
  || (x.op = 0 && [6, 7, 8, 9, 10, 11, 12, 13, 14, 15].any fun i => x.dw i ≠ 0)

/-- The LBA ranges of a Dataset Management: 16 bytes each, attributes, count and first LBA (NVMe Base 2.0, PRESUMED). -/
def dsmRanges (n : Nat) (data : List Byte) : List (Nat × Nat) := (List.range n).map fun i => (leAt data (16 * i + 8) 8, leAt data (16 * i + 4) 4)

/-- The first check of R510 that the command fails: its status, with the Command Retry Delay of R236 and whether the ledger counts a
violation (R242). -/
def State.ioCheck (s : State) (x : Slot) (ranges : List (Nat × Nat)) : Option (Sts × Nat × Bool) :=
  let n := s.ns x.nsx
  let rw := x.op = 1 || x.op = 2
  if x.cls = 4 then some ((0, 0x0B, true), 0, false)
  else if x.cls = 2 then some ((0, 0x21, false), 1, false)
  else if x.cls = 3 then some ((0, 0x21, false), 2, false)
  else if x.conflict then some ((0, 0x03, true), 0, true)
  else if !ioOpcode x.op then some ((0, 0x01, true), 0, false)
  else if x.badFields then some ((0, 0x02, true), 0, true)
  else if n.busy = 1 then some ((0, 0x84, false), 0, false)
  else if n.busy = 2 then some ((0, 0x1D, false), 0, false)
  else if (rw && n.nsze < sqeSlba x.sqe + sqeNlb x.sqe) || ranges.any (fun r => n.nsze < r.1 + r.2) then some ((0, 0x80, true), 0, false)
  else if rw && 2 ^ 21 < sqeNlb x.sqe * 2 ^ n.lbads then some ((0, 0x02, true), 0, false)
  else if n.wp && (x.op = 1 || (x.op = 9 && bitOf (x.dw 11) 2)) then some ((0, 0x20, true), 0, false)
  else if x.op ≠ 0 && x.dw 6 % 4 ≠ 0 then some ((0, 0x13, true), 0, false)
  else none

/-! ## Keys of a range (R152, R190) -/

/-- The key of LBA `x` in band `b`; none without a VALID HANDLE. -/
def State.keyAt (s : State) (nsx b x : Nat) : Option (BitVec 24) :=
  let d := (s.ns nsx).band b
  if !bandValid d.handle then none
  else if !bandValid d.next then some (bandHandle d.handle)
  else match s.moltOf nsx b with
    | none => some (bandHandle d.handle)
    | some m =>
      let r := s.molt m
      some (if r.st = 1 then r.old else if r.st = 5 then r.new else if x < r.wmark then r.new else r.old)

/-- The first LBA after `x` at which the key may differ: the band's end, or the watermark of its molt. -/
def State.keyEnd (s : State) (nsx b x : Nat) : Nat :=
  let hi := (s.ns nsx).bandHi b
  match s.moltOf nsx b with
  | some m => if x < (s.molt m).wmark then min hi (s.molt m).wmark else hi
  | none => hi

/-- What lane firmware finds when it looks for a key among the contexts: 0 ready in a context, 1 on its way, 2 failed, 3 a context to load,
4 none free. -/
def Engine.findKey (g : Engine) (h : BitVec 24) : Nat × Nat :=
  let cs := [0, 1, 2, 3]
  match cs.find? fun c => (g.ctx c).handle = h && (g.ctx c).st = 3 with
  | some c => (0, c)
  | none =>
    match cs.find? fun c => (g.ctx c).handle = h && ((g.ctx c).st = 1 || (g.ctx c).st = 2) with
    | some c => (1, c)
    | none =>
      match cs.find? fun c => (g.ctx c).handle = h && (g.ctx c).st = 0 && (g.ctx c).status ≠ 2 && (g.ctx c).status ≠ 0x18 && (g.ctx c).status ≠ 0 with
      | some c => (2, c)
      | none =>
        match cs.find? fun c => ((g.ctx c).st = 0 || ((g.ctx c).st = 3 && !g.refs c)) && (g.ctx c).heldUse.isNone with
        | some c => (3, c)
        | none => (4, 0)

/-- Firmware requests a key into a context, as KLOAD does (R64, R116). -/
def State.loadKey (s : State) (e c : Nat) (h : BitVec 24) : State :=
  if !(s.eng e).cuFault && s.fillsFull e h then s
  else
  let s := s.updEng e fun g => g.setCtx c { g.ctx c with st := 1, key := 0, tag := KeyTag.none, handle := h, gd := none, result := none, keyEvt := false, relPending := false }
  if (s.eng e).cuFault then s.answerCtx e c 0x17 KeyTag.none 0 else s.keyRequest e c (handleSlot h) (handleGen h)

/-! ## Issue of one drive command (R219) -/

/-- The status of a part of the command in slot `p` is folded into the command's (R313). -/
def State.fold (s : State) (e p : Nat) (st : Sts) : State :=
  s.updEng e fun g => let x := g.slot p; g.setSlot p { x with worst := some (match x.worst with | some w => worseOf w st | none => st) }

/-- The first range loses its first `m` LBAs; a range of none, or one used up, is gone. -/
def Slot.advance (x : Slot) (m : Nat) : Slot :=
  match x.pieces with
  | [] => x
  | (lo, n) :: rest => { x with pieces := if n ≤ m then rest else (lo + m, n - m) :: rest }

/-- A part that reaches no drive: its status is folded and its range is done. -/
def State.skip (s : State) (e p m : Nat) (st : Sts) : State := (s.fold e p st).updEng e fun g => g.setSlot p ((g.slot p).advance m)

/-- Slots of the command in slot `p` that hold a drive command: its own and those claimed for it. -/
def Engine.parts (g : Engine) (p : Nat) : List Nat :=
  (g.slots.filter fun y => (y.1 = p || y.2.parent = some p) && y.2.busy && y.2.drv.isSome).map Prod.fst

/-- A slot for the next drive command: the command's own, with the next generation if a drive command has used it, or a claimed one; at most eight
are outstanding (R29, R219). -/
def State.takeSlot (s : State) (e p : Nat) : Option (Nat × State) :=
  let g := s.eng e
  if 8 ≤ (g.parts p).length then none
  else if (g.slot p).drv.isNone && (g.slot p).xfer.isNone then
    some (p, if (g.slot p).rung then s.updEng e fun g => g.setSlot p { g.slot p with gen := ((g.slot p).gen + 1) % 16 } else s)
  else
    let r := s.slotGet e
    if r.1 = 0 then none
    else
      let j := fld r.1.toNat 8 0
      some (j, r.2.updEng e fun g => g.setSlot j { g.slot j with parent := some p, cls := (g.slot p).cls, func := (g.slot p).func, nsx := (g.slot p).nsx })

/-- A run of `r` spill blocks for a part, the lowest free; none while requests queue or none is free (R161). -/
def State.takeRun (s : State) (e r : Nat) : Option (Nat × State) :=
  let t := s.tile (tileOf e)
  if !t.spq.isEmpty then none
  else ((List.range 512).find? (t.runFree r)).map fun b =>
    (b, s.setTile (tileOf e) { t with spUsed := (List.range r).foldl (fun l i => insSorted (b + i) l) t.spUsed })

/-- The stride code of a drive namespace's metadata (R123, R132). -/
def strideCode (m : Nat) : Nat := if m = 64 then 1 else if m = 128 then 2 else 0

/-- The drive command of a part, of `len` bytes, is bound to slot `j` and leaves; its range is no longer pending. -/
def State.launch (s : State) (e p j : Nat) (x : Extent) (opc lo m len : Nat) (blk : Option (Nat × Nat)) (mofs list : Option Nat) : State :=
  let d := s.extDrive x
  let s := s.updEng e fun g => g.setSlot p { (g.slot p).advance m with rung := true }
  let s := s.updEng e fun g => g.setSlot j { g.slot j with piece := some (lo, m), blk := blk }
  s.drvIssue e j d { opc := opc, dnsid := BitVec.ofNat 32 (s.extNsid x), dlba := x.dstart + (lo - x.nstart), nlb := m
                     fua := (opc = 1 || opc = 2) && bitOf (((s.eng e).slot p).dw 12) 30, len := len, mofs := mofs, list := list }

/-- A Read or Write part under a ready key: VERSION for a GCM-sector write, spill blocks, parameters, GO, and the drive command; the answer is none
where it must wait (R126, R134, R143, R161, R207, R307). -/
def State.issueData (s : State) (e p : Nat) (x : Extent) (c : Nat) (h : BitVec 24) (lo m : Nat) : Option State :=
  let g := s.eng e
  let op := (g.slot p).op
  let n := s.ns (g.slot p).nsx
  let mode := (g.ctx c).tag.mode
  let du := if n.lbads = 12 then 1 else 0
  let dns := s.extNs x
  let stride := 32 * 2 ^ strideCode dns.msize
  if mode = 2 && op = 1 && 0xFFFFFFFE ≤ Tbl.get 0 s.versions h.toNat then
    let s := s.tenantEvent (g.slot p).func 0x09 0 0 (BitVec.ofNat 32 (handleSlot h))
    some (s.skip e p m (0, 0x21, false))
  else
    match s.takeSlot e p with
    | none => none
    | some (j, s) =>
      let mblk := if mode = 2 || dns.msize ≠ 0 then (m * stride + 4095) / 4096 else 0
      let hold := if mode = 2 && op = 2 then (m * duBytes du + 4095) / 4096 else 0
      let list := if 2 < blocksOf (m * duBytes du) then 1 else 0
      let all := mblk + hold + list
      let blk := if all = 0 then some ((0, 0), s) else (s.takeRun e all).map fun r => ((r.1, all), r.2)
      match blk with
      | none => none
      | some (b, s) =>
        match (if mode = 2 && op = 1 then s.nextVersion h else some (0, s)) with
        | none => none
        | some (ver, s) =>
        let s := s.updEng e fun g => g.setCtx c { g.ctx c with mode := BitVec.ofNat 32 mode, dusize := BitVec.ofNat 32 du,
                                                                tweak := BitVec.ofNat 128 (x.dstart + (lo - x.nstart)), version := BitVec.ofNat 32 ver }
        let s := if mode = 2 && op = 1 then { s with versions := Tbl.set 0 s.versions h.toNat (ver + 1) }.moltAuto (g.slot p).nsx (n.bandOf lo) (ver + 1) else s
        let k := (s.eng e).slot p
        let r := s.dmGo e { slot := j, dir := if op = 1 then 0 else 1, ctx := c, ctx2 := 0, func := k.func, dport := x.dport, len := m * duBytes du
                            prp1 := pair64 (k.sqe.getD 6 0) (k.sqe.getD 7 0), prp2 := pair64 (k.sqe.getD 8 0) (k.sqe.getD 9 0), plen := sqeNlb k.sqe * duBytes du, src := 0
                            dst := (b.1 + mblk) * 4096 % 2 ^ 21, mofs := b.1 * 4096, msize := strideCode dns.msize }
        if r.1 = 0 then
          let s := if mblk ≠ 0 && mode ≠ 2 then r.2.updTile (tileOf e) fun t => { t with scratch := Memory.clear t.scratch (b.1 * 4096) (m * stride) } else r.2
          some (s.launch e p j x op lo m (m * duBytes du) (if b.2 = 0 then none else some b) (if mblk = 0 then none else some (b.1 * 4096))
                 (if list = 0 then none else some ((b.1 + mblk + hold) * 4096)))
        else if r.1 = 0x27 || r.1 = 0x20 || r.1 = 0x22 then none
        else some ((if j = p then s else s.freeSlot e j).skip e p m (keySts r.1))

/-- A Deallocate part: its range list stands in a spill block, from which the drive reads it through the relay window (R217). -/
def State.issueDsm (s : State) (e p : Nat) (x : Extent) (lo m : Nat) : Option State :=
  match s.takeSlot e p with
  | none => none
  | some (j, s) =>
    match s.takeRun e 1 with
    | none => none
    | some (b, s) =>
      let s := s.updTile (tileOf e) fun t =>
        { t with scratch := Memory.put t.scratch (b * 4096) (leBytes 4 0 ++ leBytes 4 m ++ leBytes 8 (x.dstart + (lo - x.nstart))) }
      let r := s.dmGo e { slot := j, dir := 3, ctx := 0, ctx2 := 0, func := 0, dport := x.dport, len := 16, prp1 := 0, prp2 := 0, plen := 16, src := b * 4096, dst := 0
                          mofs := 0, msize := 0 }
      if r.1 = 0 then some (r.2.launch e p j x 9 lo m 16 (some (b, 1)) none none) else some (s.skip e p m (keySts r.1))

/-- Firmware takes up the next part of the command in slot `p`; none where it must wait or nothing is left. -/
def State.issueOne (s : State) (e p : Nat) : Option State :=
  let g := s.eng e
  let k := g.slot p
  let n := s.ns k.nsx
  match k.pieces with
  | [] => none
  | (lo, cnt) :: _ =>
    match n.extentOf lo with
    | none => some (s.skip e p cnt stNotReady)
    | some x =>
      let d := s.extDrive x
      let m := min cnt (x.nstart + x.len - lo)
      match s.driveRow e d with
      | some st => some (s.skip e p m st)
      | none =>
        if !(s.tile (tileOf e)).sqRoom d then none
        else if k.op = 0 then (s.takeSlot e p).map fun r => r.2.launch e p r.1 { x with dstart := 0, nstart := lo } 0 lo 0 0 none none none
        else if k.op = 9 then s.issueDsm e p x lo (min m (2 ^ 32 - 1))
        else
          let b := n.bandOf lo
          let m := min m (s.keyEnd k.nsx b lo - lo)
          match s.keyAt k.nsx b lo with
          | none => some (s.skip e p m stDenied)
          | some h =>
            match g.findKey h with
            | (0, c) =>
              let mdts := (s.drive d).ident.mdts
              let m := if mdts = 0 then m else min m (2 ^ (12 + mdts) / 2 ^ n.lbads)
              s.issueData e p x c h lo (if (g.ctx c).tag.mode = 2 then min m (96 * 4096 / 2 ^ n.lbads) else m)
            | (2, c) =>
              some ((s.updEng e fun g => g.setCtx c { g.ctx c with handle := 0, status := 2 }).skip e p m (keySts (g.ctx c).status))
            | (3, c) => some (s.loadKey e c h)
            | _ => none

/-- Parts are taken up until one must wait. -/
def issueAll : Nat → State → Nat → Nat → State
  | 0, s, _, _ => s
  | n + 1, s, e, p => match s.issueOne e p with | some s => issueAll n s e p | none => s

/-! ## Answers (R136, R240, R313) -/

/-- An erase that has been accepted covers the key of a handle: it is pending, or done, which the slot still shows or a later key in it does (R150,
R182, R240). -/
def State.keyErased (s : State) (h : BitVec 24) : Bool :=
  let r := s.krec (handleSlot h)
  s.erasePending (handleSlot h) || (recFmt r = 1 && (recState r ≠ 1 || recGen r ≠ handleGen h))

/-- The part in a slot has its answer: its drive command is answered and, after a success, its transfer is past ACTIVE. -/
def Slot.partReady (x : Slot) : Bool :=
  match x.drv with
  | none => false
  | some d => d.answered && d.seen && (d.status ≠ stOk || (match x.xfer with | some f => f.phase ≠ 0 | none => true))

/-- The status of a part: the outcome of a transfer that ended early, else the drive's, else the transfer's (R137, R239, R313). -/
def Slot.partSts (x : Slot) : Sts :=
  let drv := match x.drv with | some d => d.status | none => stOk
  match x.xfer with
  | some f => if f.phase = 2 && f.outcome ≠ 0 && f.outcome ≠ 0x33 then outcomeSts f.outcome else if drv ≠ stOk then drv else outcomeSts f.outcome
  | none => drv

/-- The part's key was purged though no erase covers it: its range runs again (R240). -/
def State.partAgain (s : State) (x : Slot) : Bool :=
  match x.xfer with
  | some f => f.outcome = 0x32 && (match f.c1 with | some l => !s.keyErased l.handle | none => false)
  | none => false

/-- The status of the part in the slot has been given already, and its drive command only waits for the drive (R310, R312). -/
def Slot.partDead (x : Slot) : Bool := match x.drv with | some d => d.dead | none => false

/-- Firmware takes the answer of the part in slot `j` of the command in slot `p`: status or range kept, queue entries read, transfer released, spill
blocks returned, the slot free for the next part (R136, R161, R219). -/
def State.consume (s : State) (e p j : Nat) : State :=
  let x := (s.eng e).slot j
  let s := if !x.partDead && s.partAgain x then s.updEng e fun g => g.setSlot p { g.slot p with pieces := x.piece.toList ++ (g.slot p).pieces }
           else if x.partDead then s else s.fold e p x.partSts
  let s := match x.blk with
    | some (b, r) => s.updTile (tileOf e) fun t => { t with spUsed := t.spUsed.filter fun y => y < b || b + r ≤ y }
    | none => s
  let s := (s.dropXfer e j).updEng e fun g =>
    { g with dmDone := g.dmDone.filter fun w => fld w.toNat 20 12 ≠ j
             xferAck := if g.dmDone.all fun w => fld w.toNat 20 12 = j then g.xferCnt else g.xferAck }
  if j = p then s.updEng e fun g => g.setSlot p { g.slot p with piece := none, blk := none } else s.freeSlot e j

/-- Lane firmware may run on the engine now. -/
def State.fwRuns (s : State) (e : Nat) : Bool := (s.eng e).run = 0 && s.engOn e

/-- A command none of whose parts can still change its status completes (R30, R313). -/
def State.postParts (s : State) (e p : Nat) : State :=
  let x := (s.eng e).slot p
  if s.cplRoom (portOf x.func) && x.pieces.isEmpty && ((s.eng e).parts p).all fun j => ((s.eng e).slot j).partDead then
    let w := x.worst.getD stOk
    s.complete e p 0 w.1 w.2.1 w.2.2 (if w.2.1 = 0x21 then 3 else 0)
  else s

/-- The inbox is popped and answered parts are taken; a command with no part left completes with its folded status, once the completion queue has a
credit, and its slot is released (R30, R225, R249, R250, R313). -/
def State.settle (s : State) (e p : Nat) : State :=
  let s := s.inboxTake e
  let js := ((s.eng e).parts p).filter fun j => ((s.eng e).slot j).partReady
  let s := js.foldl (fun s j => s.consume e p j) s
  let x := (s.eng e).slot p
  if !x.started then s
  else
    let s := s.postParts e p
    if !x.pieces.isEmpty || !((s.eng e).parts p).isEmpty then s
    else if x.mute then s.endQuietly e p else if ((s.eng e).slot p).posted then s.dmRel e p else s

/-- A drive command has failed with a status (R310, R312, R313): its transfer ends, nothing further of its tenant command is issued, and that
command completes unless other parts of it are still open. Nothing happens while the engine runs no firmware. -/
def State.failPart (s : State) (e k : Nat) (st : Sts) : State :=
  if !s.fwRuns e then s
  else
    let p := ((s.eng e).slot k).parent.getD k
    let dead := ((s.eng e).slot k).partDead
    let s := (s.endXfer e k 0x33).updEng e fun g =>
      g.setSlot k { g.slot k with drv := (g.slot k).drv.map fun d => { d with dead := true } }
    let s := (if dead then s else s.fold e p st).updEng e fun g => g.setSlot p { g.slot p with pieces := [] }
    s.postParts e p

/-! ## A turn (R217, R219, R510) -/

/-- The ranges that a command starts with (R217). -/
def State.firstPieces (s : State) (x : Slot) (ranges : List (Nat × Nat)) : List (Nat × Nat) :=
  if x.op = 0 then
    ((s.ns x.nsx).extents.foldl (fun (a : List (Nat × Nat) × List (Nat × Nat)) y =>
      let k := (s.extDrive y, s.extNsid y)
      if a.1.contains k then a else (k :: a.1, a.2 ++ [(y.nstart, 0)])) ([], [])).2
  else if x.op = 9 then (if bitOf (x.dw 11) 2 then ranges.filter fun r => r.2 ≠ 0 else [])
  else [(sqeSlba x.sqe, sqeNlb x.sqe)]

/-- The first turn: the command is taken from the head of the command queue and checked; one that passes is split and its parts begin. -/
def State.fwStart (s : State) (e k : Nat) (data : List Byte) : State :=
  let s := (s.cmdPop e).updEng e fun g => g.setSlot k { g.slot k with started := true }
  let x := (s.eng e).slot k
  let ranges := if x.op = 9 then dsmRanges (fld (x.dw 10) 7 0 + 1) data else []
  match s.ioCheck x ranges with
  | some (st, crd, viol) =>
    let s := if viol then s.countViolation x.func else s
    (s.complete e k 0 st.1 st.2.1 st.2.2 crd).dmRel e k
  | none => (issueAll 4096 (s.updEng e fun g => g.setSlot k { g.slot k with pieces := s.firstPieces x ranges }) e k).settle e k

/-- One turn of vendor lane firmware on the delivered command of a slot, the first once it stands at the head of the command queue and its completion
would find a credit (R249, R250); a slot that it claimed for a Flush of its own is released once the drive has
answered (R448). -/
def State.fwTurn (s : State) (e k op : Nat) (data : List Byte) : State :=
  let g := s.eng e
  let x := g.slot k
  if !s.fwRuns e || !x.busy || x.cls = 5 then s
  else if !x.delivered then
    let s := s.inboxTake e
    if op = 0 && x.started && x.parent.isNone && ((s.eng e).slot k).partReady then (s.consume e k k).freeSlot e k else s
  else if x.started then (if x.op = op then (issueAll 4096 (s.settle e k) e k).settle e k else s)
  else if x.op ≠ op && ioOpcode x.op then s
  else if g.cmdq.head? ≠ some k || !s.cplRoom (portOf x.func) then s
  else s.fwStart e k data

/-- FLUSH (R217). -/
def execFlush (e : EngId) (slot : SlotId) (s : State) : Res := .next (s.fwTurn e slot 0 [])
/-- WRITE (R217). -/
def execWrite (e : EngId) (slot : SlotId) (s : State) : Res := .next (s.fwTurn e slot 1 [])
/-- READ (R217). -/
def execRead (e : EngId) (slot : SlotId) (s : State) : Res := .next (s.fwTurn e slot 2 [])
/-- DATASET_MANAGEMENT, with the range list that the host supplies (R217). -/
def execDatasetManagement (e : EngId) (slot : SlotId) (ranges : Bytes) (s : State) : Res := .next (s.fwTurn e slot 9 ranges)

end Sys2Proof.Machine
end

