-- ==== Sys2Proof/Machine/Drives.lean ====
section
/-!
DEFINITION. Drives (R27, R29, R302 to R318): the states of a drive index, bring-up, completions, timeouts, controller resets, violations,
quarantine and release, and what becomes of the commands of a drive that leaves ACTIVE.
-/

namespace Sys2Proof.Machine

/-! ## Port groups: links and violation counters (R295, R299, R300) -/

/-- Group and slot of a downstream port number (R274). -/
def groupOfPort (p : Nat) : Nat × Nat := (p / 2, p % 2)
/-- The link of a drive: group, slot, link B (R274, R302). -/
def linkOfDrive (d : Nat) : Nat × Nat × Bool := (d / 4, d / 2 % 2, d % 2 = 1)

/-- A link state changes, which raises the group's LINK source; a retraining that ran has ended (R298, R299, R336). -/
def State.setLinkSt (s : State) (g k : Nat) (b : Bool) (st : Nat) : State :=
  let l := (s.group g).link k b
  if l.st = st then s else (s.updGroup g fun x => x.setLink k b { l with st := st, retrain := false }).raise (96 + g)

/-- A violation of a class of R295 is counted and recorded for a link, and the group's event source is raised (R295, R300, R336). -/
def State.pgCount (s : State) (g k : Nat) (b : Bool) (cls : Nat) : State :=
  (s.updGroup g fun x =>
    { x with vcnt := Tbl.set 0 x.vcnt cls (Tbl.get 0 x.vcnt cls + 1)
             vlast := BitVec.ofNat 32 ((2 * g + k) * 2 ^ 27 + b2n b * 2 ^ 26 + cls * 2 ^ 16) }).raise (112 + g)

/-! ## The state of a drive (R303, R490) -/

/-- An override of DRVn_STAT.STATE is in force: hardware wrote QUARANTINED or ABSENT (R490). -/
def Drive.overridden (d : Drive) : Bool := d.st = 0 || d.st = 4

/-- Hardware writes ABSENT or QUARANTINED (R303, R490). -/
def Drive.hwState (d : Drive) (st : Nat) : Drive :=
  if d.overridden then { d with st := st } else { d with st := st, stReq := d.st, parked := false }

/-- The override ends and the controller is brought up: INIT, or the state that software parked (R304, R490). -/
def Drive.endOverride (d : Drive) : Drive :=
  { d with st := if d.parked then d.stReq else 1, stReq := 0, parked := false, window := true, busMaster := true, reason := 0
           step := if d.parked && d.stReq ≠ 1 then 0 else 3 }

/-! ## The drive's controller (R303, R304, R310, R312) -/

/-- The tile whose queue memory holds a drive's admin queues: T0 or T8 (R304). -/
def admTile (d : Nat) : Nat := 8 * dieOfDrive d
/-- Entries of the admin rings, and offsets of the completion ring and landing area in their block (log 91). -/
def admDepth : Nat := 32
def admCqOff : Nat := 2048
def admLandOff : Nat := 2560

/-- CC is written (R304, R312). -/
def State.driveCc (s : State) (d : Nat) (v : Word) : State :=
  (s.updDrive d fun x => { x with cc := v }).emit (.driveReg d 0x14 (v.zeroExtend 64))

/-- The warden issues an admin command: its entry goes to the next place of the admin submission ring (R304; NVMe Base 2.0, PRESUMED, log 47). -/
def State.driveAdminCmd (s : State) (d opc : Nat) (nsid : Word) (prp1 : DWord) (dw10 dw11 : Word) : State :=
  match (s.drive d).admAt with
  | none => s
  | some a =>
    let n := (s.drive d).admTail
    let w := leBytes 4 (opc + n * 2 ^ 16) ++ leBytes 4 nsid.toNat ++ leBytes 16 0 ++ leBytes 8 prp1.toNat ++ leBytes 8 0 ++ leBytes 4 dw10.toNat
      ++ leBytes 4 dw11.toNat ++ leBytes 16 0
    ((s.updTile (admTile d) fun t => { t with scratch := Memory.put t.scratch (a + 64 * n) w }).updDrive d fun x => { x with admTail := (n + 1) % admDepth }).emit
      (.driveAdmin d opc dw10 dw11)

/-- An Abort of the drive command with identifier `cid` of an engine (R310). -/
def State.driveAbort (s : State) (e d : Nat) (cid : BitVec 16) : State :=
  s.driveAdminCmd d 8 0 0 (BitVec.ofNat 32 (tileOf e + 1 + cid.toNat * 2 ^ 16)) 0

/-- The blocks of a drive's queues are returned in every tile, with their rings (R308, R309; when the warden returns them is log 91). -/
def State.drvFree (s : State) (d : Nat) : State := s.each (List.range 16) fun s t => s.updTile t fun x => x.dropSq d

/-- The block of a drive's admin queues is returned. -/
def State.admFree (s : State) (d : Nat) : State :=
  match (s.drive d).admAt with
  | none => s
  | some a => (s.updTile (admTile d) fun t => { t with spUsed := t.spUsed.filter (· ≠ a / 4096) }).updDrive d fun x => { x with admAt := none, admTail := 0, aers := 0 }

/-! ## The commands of a drive (R311 to R313) -/

/-- Engine and slot of every drive command on a drive that it has not answered. -/
def State.openOn (s : State) (d : Nat) : List (Nat × Nat) :=
  s.engines.flatMap fun p => (p.2.slots.filter fun x => match x.2.drv with | some c => c.drive = d && !c.answered | none => false).map fun x => (p.1, x.1)

/-- A slot's drive command is answered, or its drive has been reset, quarantined or has gone: the slot is releasable (R136). -/
def State.answered (s : State) (e k : Nat) (st : Sts) : State :=
  let s := s.updEng e fun g => g.setSlot k { g.slot k with drv := (g.slot k).drv.map fun c => { c with answered := true, seen := true, aborting := false, status := st } }
  s.muteCheck e k

/-- The tile writes a drive-error record for a slot's drive command: DETAIL is the drive's status dword 3 for SHORT_TRANSFER, and open where there is
neither such a status nor a relay offset (R311). -/
def State.slotRecord (s : State) (e k kind drive : Nat) : State :=
  match ((s.eng e).slot k).drv with
  | some c => if kind = 7 then s.deRecord e kind drive k c.cid c.dw3 else let r := s.fresh 32; r.2.deRecord e kind drive k c.cid r.1
  | none => let r := s.fresh 32; r.2.deRecord e kind drive k 0 r.1

/-- Every open command of a drive gets a record and its tenant command a status; `ends` says whether their slots are releasable at once. -/
def State.failDrive (s : State) (d kind : Nat) (st : Sts) (ends : Bool) : State :=
  (s.openOn d).foldl (fun s p =>
    let s := (s.slotRecord p.1 p.2 kind d).failPart p.1 p.2 st
    if ends then
      let s := s.answered p.1 p.2 st
      let q := ((s.eng p.1).slot p.2).parent.getD p.2
      if s.fwRuns p.1 then s.settle p.1 q else s
    else s) s

/-! ## Quarantine and reset (R312, R315, R490) -/

/-- Quarantine: state, closed window, records and completions, molts paused; the warden clears the drive's enables (R206, R315). -/
def State.quarantine (s : State) (d : Nat) : State :=
  if (s.drive d).st = 4 then s
  else
    let s := s.updDrive d fun x => { x.hwState 4 with window := false, busMaster := false, step := 0 }
    (((s.failDrive d 4 stNotReady true).drvFree d).admFree d).moltsCheck

/-- A controller reset: CC.EN 1 to 0, RESETTING, records and Internal Error for open commands; a third within 600 s of the first of the three
quarantines. One that runs is not begun again (R312). -/
def State.driveReset (s : State) (d : Nat) : State :=
  if (s.drive d).overridden || ((s.drive d).st = 3 && (s.drive d).step = 20) then s
  else
    let times := (s.now :: (s.drive d).rtimes).filter fun t => s.now - t ≤ 60000000000
    let s := s.updDrive d fun x => { x with st := 3, step := 20, resets := x.resets + 1, rtimes := times }
    let s := (s.driveCc d 0x00460000).failDrive d 3 stInternal false
    if 3 ≤ times.length then s.quarantine d else s.moltsCheck

/-- A violation of R314: counted, recorded, and the eighth within 1 s quarantines; code 9 quarantines at once, code 10 sets AEN (R314, R315). -/
def State.driveViolation (s : State) (d code : Nat) : State :=
  if (s.drive d).st = 4 then s
  else if code = 9 then s.quarantine d
  else if code = 10 then (s.updDrive d fun x => { x with aen := true }).emit (.operator 0x80 (BitVec.ofNat 32 d))
  else
    let times := (s.now :: (s.drive d).vtimes).filter fun t => s.now - t ≤ 100000000
    let s := s.updDrive d fun x => { x with vcnt := x.vcnt + 1, code := code, vtimes := times }
    if 8 ≤ times.length then s.quarantine d else s

/-! ## Bring-up (R304 to R306, R308) -/

/-- Namespaces of a drive that hold extents (R306). -/
def State.usedNsids (s : State) (d : Nat) : List Nat :=
  ((s.nss.flatMap fun p => if p.2.valid then (p.2.extents.filter fun x => s.extDrive x = d).map s.extNsid else [])).eraseDups

/-- The identity of a drive with the namespaces given (R306). -/
def recordOf (i : DrvId) (nsids : List Nat) : DrvRecord :=
  { serial := i.serial, model := i.model, nss := nsids.map fun n => let x := Tbl.get DrvNs.init i.nss n; (n, x.nguid, x.nsze, x.lbads) }

/-- The drive matches the record of its index: serial and model numbers, and each recorded namespace by its identifier, or by number, size and
format where it reported none (R306). -/
def DrvRecord.matches (r : DrvRecord) (i : DrvId) : Bool :=
  r.serial = i.serial && r.model = i.model && r.nss.all fun y =>
    if y.2.1 ≠ 0 then i.nss.any fun x => x.2.nguid = y.2.1
    else let x := Tbl.get DrvNs.init i.nss y.1; x.live && x.nguid = 0 && x.nsze = y.2.2.1 && x.lbads = y.2.2.2

/-- The drive may serve its extents: it matches its record, or no extent lies on its index (R306). -/
def State.identOk (s : State) (d : Nat) : Bool :=
  (s.usedNsids d).isEmpty || (match (s.drive d).record with | some r => r.matches (s.drive d).ident | none => false)

/-- The slot's QMODE is DUAL (R305). -/
def State.dualSlot (s : State) (d : Nat) : Bool := (s.group (d / 4)).qmode (d / 2 % 2) = 3

/-- Item 5 of R305: the namespaces with extents have a data size of 512 B or 4 KiB and no protection information. -/
def nsidsFit (i : DrvId) (nsids : List Nat) : Bool :=
  nsids.all fun n => let x := Tbl.get DrvNs.init i.nss n; !(x.live && ((x.lbads ≠ 9 && x.lbads ≠ 12) || x.pi))
def State.nsFit (s : State) (d : Nat) : Bool := nsidsFit (s.drive d).ident (s.usedNsids d)

/-- The first requirement of R305 that the drive fails, or 0. -/
def State.drvReason (s : State) (d : Nat) (i : DrvId) : Nat :=
  if !i.cssNvm || !i.mpsOk then 1
  else if i.sqs < 16 || i.cqs = 0 then 2
  else if i.mqes + 1 < (s.drive d).depth then 3
  else if i.mdts ≠ 0 && i.mdts < 3 then 4
  else if !nsidsFit i (s.usedNsids d) then 5
  else if s.dualSlot d && 0x7FFFFFFF < i.nn then 6
  else 0

/-- log2 of the completion queues used: the largest of 1, 2, 4, 8, 16 that the drive grants (R308). -/
def ncqOf (cqs : Nat) : Nat := if 16 ≤ cqs then 4 else if 8 ≤ cqs then 3 else if 4 ≤ cqs then 2 else if 2 ≤ cqs then 1 else 0

/-- The lowest tile of completion queue `j` of a drive (R308). -/
def Drive.cqTile (x : Drive) (j : Nat) : Nat := j * (16 / 2 ^ x.ncq)

/-- The spill blocks of a tile's queues on a drive are reserved and cleared: the lowest free run; none where no run is long enough (R17, R161, R309). -/
def State.drvReserve (s : State) (d t : Nat) : Option State :=
  let x := s.drive d
  let q : DrvSq := { depth := x.depth, base := 0, cqDepth := if t % (16 / 2 ^ x.ncq) = 0 then x.depth * 16 / 2 ^ x.ncq else 0, cqHead := 0 }
  (((s.tile t).dropSq d).takeBlocks q.blocks).map fun r => s.setTile t (r.2.setDrvSq d { q with base := 4096 * r.1 })

/-- Create I/O Completion Queue, where the tile holds one, and Create I/O Submission Queue of a tile (R304 step 7, R308; NVMe Base 2.0, PRESUMED,
log 47). -/
def State.drvCreate (s : State) (d t : Nat) : State :=
  let q := (s.tile t).drvSq d
  let base := s.relayBase (d / 2)
  let j := t * 2 ^ (s.drive d).ncq / 16
  let s := if q.cqDepth = 0 then s
           else s.driveAdminCmd d 5 0 (relayQAddr base t q.cqAt) (BitVec.ofNat 32 ((q.cqDepth - 1) * 2 ^ 16 + j + 1)) (BitVec.ofNat 32 (j * 2 ^ 16 + 3))
  if q.depth = 0 then s
  else s.driveAdminCmd d 1 0 (relayQAddr base t q.base) (BitVec.ofNat 32 ((q.depth - 1) * 2 ^ 16 + t + 1)) (BitVec.ofNat 32 ((j + 1) * 2 ^ 16 + 1))

/-- Queues are created for the tiles that are on, four Asynchronous Event Requests posted, and the drive is ACTIVE; a tile without blocks for its queues
fails the step (R304, R308, R309, R312). -/
def State.drvActivate (s : State) (d : Nat) : State :=
  let s := (s.drvFree d).updDrive d fun x => { x with ncq := ncqOf x.ident.cqs }
  let ts := s.tilesOn
  match ts.foldl (fun (r : Option State) t => r.bind fun s => s.drvReserve d t) (some s) with
  | none => s.driveReset d
  | some s =>
    let s := ts.foldl (fun s t => s.drvCreate d t) s
    let s := s.each (List.range 4) fun s _ => s.driveAdminCmd d 12 0 0 0 0
    (s.updDrive d fun x => { x with st := 2, step := 8, aers := 4 }).moltsCheck

/-- The Completion Timeout Value that the warden programs: a range whose lower end is at least 260 ms, else the largest that the drive offers (R281;
ranges A to D in bits 0 to 3 and the values of PCI Express, PRESUMED, log 47). -/
def ctoValue (ranges : Nat) : Nat :=
  if bitOf ranges 2 then 9 else if bitOf ranges 3 then 13 else if bitOf ranges 1 then 6 else if bitOf ranges 0 then 2 else 0

/-- BAR0 of a drive as the warden places it (log 91). -/
def bar0Of (d : Nat) : DWord := BitVec.ofNat 64 (2 ^ 31 + d * 2 ^ 16)

/-- Steps 1 to 3 of R304: BAR0, Memory Space and Bus Master Enable, the Completion Timeout Value, admin queues and CC. A drive whose step failed is reset
(R312). -/
def State.drvBegin (s : State) (d : Nat) : State :=
  if (s.drive d).step ≠ 3 then s
  else
    let s := s.admFree d
    match (if s.tileOn (admTile d) then (s.tile (admTile d)).takeBlocks 1 else none) with
    | none => s.driveReset d
    | some (b, t) =>
      let v := ctoValue (s.drive d).ctoRanges
      let s := (s.setTile (admTile d) t).updDrive d fun x => { x with admAt := some (4096 * b), bar0 := bar0Of d, ctoVal := v, unsafeGcm := v < 9 }
      let s := if v < 9 then s.emit (.operator 0x83 (BitVec.ofNat 32 d)) else s
      let q := fun o => relayQAddr (s.relayBase (d / 2)) (admTile d) (4096 * b + o)
      let s := ((s.emit (.driveConfig d 0x10 4 (some ((bar0Of d).truncate 32)))).emit (.driveConfig d 0x14 4 (some ((bar0Of d >>> 32).truncate 32)))).emit
        (.driveConfig d 0x04 2 (some 6))
      let s := ((s.emit (.driveCto d v)).emit (.driveReg d 0x24 (BitVec.ofNat 64 ((admDepth - 1) * 65537)))).emit (.driveReg d 0x28 (q 0))
      ((s.emit (.driveReg d 0x30 (q admCqOff))).driveCc d 0x00460000).driveCc d 0x00460001

/-- Highest rate of a group (R297). -/
def Group.maxRate (g : Group) : Nat := let r := fld g.mode.toNat 19 17; if r = 0 || 6 < r then 6 else r

/-- Width of the link of slot `k` under the group's mode (R273). -/
def Group.maxWidth (g : Group) (k : Nat) : Nat :=
  if g.gmode = 3 then 16 else if g.gmode = 2 then 8 else if g.gmode = 1 then (if g.qmode k = 1 then 4 else 2) else 0

/-- A width that a link of slot `k` can negotiate (R273, R299). -/
def linkWidth (g : Group) (k w : Nat) : Bool := [1, 2, 4, 8, 16].contains w && w ≤ g.maxWidth k

/-- A link takes the rate, width and clocking that its training settled (R297, R299). -/
def Group.trained (g : Group) (k : Nat) (b : Bool) (rate width : Nat) : Group :=
  g.setLink k b { g.link k b with rate := min (max 1 rate) g.maxRate, width := width, sepclk := bitOf g.mode.toNat (14 + k) }

/-- DRIVE_LINK_UP: a downstream link reaches L0 at a rate and width that its mode allows, the warden programs the port's relay window, and the controller
of an ABSENT drive is brought up; a quarantined drive stays so. `cto` is the set of Completion Timeout ranges that the drive's configuration space
offers (R27, R281, R304, R317, R490; log 20). -/
def execDriveLinkUp (drive : DriveId) (s : State) (rate : Fin 7 := 5) (width : Fin 17 := 4) (cto : Fin 16 := 0) : Res :=
  .next (
    let d : Nat := drive
    let l := linkOfDrive d
    let g := s.group l.1
    if !s.carriesPort l.1 l.2.1 || g.dirUp l.2.1 || !g.en.getLsbD l.2.1 || g.perst.getLsbD l.2.1 || (l.2.2 && g.qmode l.2.1 ≠ 3) || !linkWidth g l.2.1 width then s
    else
      let s := (s.updGroup l.1 fun x => { x.trained l.2.1 l.2.2 rate width with relay := Tbl.set 0 x.relay l.2.1 (d / 2 + 1) }).setLinkSt l.1 l.2.1 l.2.2 3
      let x : Drive := { s.drive d with link := true, ctoRanges := cto }
      if x.st = 0 then ((s.setDrive d x.endOverride).drvBegin d).moltsCheck else s.setDrive d x)

/-- Vendor warden firmware uses a DEPTH of 64 with more than 32 drives (R309). -/
def State.vendorDepth (s : State) (d : Nat) : State :=
  if 32 < ((List.range 64).filter fun i => (s.drive i).st ≠ 0).length then s.updDrive d fun x => { x with depth := min x.depth 64 } else s

/-- Identify Controller, Identify Namespace for each namespace, and Set Features Number of Queues for 16 and 16 (R304 steps 5 and 6). -/
def State.drvIdentify (s : State) (d : Nat) (i : DrvId) : State :=
  let s := s.driveAdminCmd d 6 0 0 1 0
  let s := i.nss.foldl (fun s x => s.driveAdminCmd d 6 (BitVec.ofNat 32 x.1) 0 0 0) s
  s.driveAdminCmd d 9 0 0 7 0x000F000F

/-- DRIVE_READY: CSTS.RDY has arrived and the warden goes through steps 5 to 8 of R304 with what the drive reports; a step that fails, or a RDY that
does not come within CAP.TO, resets the controller (R304 to R306). -/
def execDriveReady (drive : DriveId) (ident : DrvId) (fail : Bool) (s : State) : Res :=
  .next (
    let d : Nat := drive
    let x := s.drive d
    if !s.fwUp || !x.link || x.step ≠ 3 then s
    else if fail then s.driveReset d
    else
      let s := (s.vendorDepth d).drvIdentify d ident
      let r := s.drvReason d ident
      let s := s.updDrive d fun x => { x with ident := ident, reason := r, step := 0 }
      if r ≠ 0 then (s.updDrive d fun x => { x with st := 5 }).moltsCheck
      else if s.boot.store = 1 && !s.identOk d then (s.updDrive d fun x => { x with st := 6 }).moltsCheck
      else s.drvActivate d)

/-- DRIVE_ADMIN_POLL: the warden finds an admin completion: 0 none, 1 an Asynchronous Event, whose request it posts again, or a SMART warning, 2 a namespace shrank, changed its
format or disappeared, 3 the answer to the Abort of a slot's command (R304, R310, R314). -/
def execDriveAdminPoll (drive : DriveId) (kind : Fin 4) (e : EngId) (slot : SlotId) (s : State) : Res :=
  .next (
    if !s.fwUp || (s.drive drive).st ≠ 2 then s
    else match kind.toNat with
    | 1 => (s.driveViolation drive 10).driveAdminCmd drive 12 0 0 0 0
    | 2 => s.driveViolation drive 9
    | 3 => s.updEng e fun g => g.setSlot slot { g.slot slot with drv := (g.slot slot).drv.map fun c => if c.drive = drive.toNat then { c with aborting := false } else c }
    | _ => s)

/-! ## Completions and interrupts of drives (R27, R29, R308 to R310, R314) -/

/-- A completion entry of `words` lands at the next place of the completion queue in a tile: its head advances, and the tile has dealt with every landing of
that drive so far (R263, R308, R309). -/
def Tile.cqTake (t : Tile) (d : Nat) (words : List Word) : Tile :=
  let q := t.drvSq d
  let i := q.cqHead % max 1 q.cqDepth
  ({ t with scratch := Memory.put t.scratch (q.cqAt + 16 * i) (words.flatMap fun (w : Word) => leBytes 4 w.toNat)
            landed := Tbl.set 0 t.landed d (Tbl.get 0 t.landings d) }).setDrvSq d { q with cqHead := (q.cqHead + 1) % max 1 (2 * q.cqDepth) }

/-- The four dwords of a completion entry; the Phase Tag is 1 on the first pass round the ring (NVMe Base 2.0, PRESUMED, log 47). -/
def cqeWords (q : DrvSq) (sqid sqhd cid : BitVec 16) (dw0 : Word) (sct sc : Nat) (dnr : Bool) : List Word :=
  [dw0, 0, BitVec.ofNat 32 (sqid.toNat * 2 ^ 16 + sqhd.toNat),
   BitVec.ofNat 32 (b2n dnr * 2 ^ 31 + sct * 2 ^ 25 + sc * 2 ^ 17 + b2n (q.cqHead < q.cqDepth) * 2 ^ 16 + cid.toNat)]

/-- DRIVE_COMPLETION: a drive writes a completion entry into completion queue `cq`. One beyond the queue is malformed and discarded. One that is in the
queue is taken from its head; it is malformed where it names a queue the tile did not create, has a bad head pointer, or names no outstanding command;
else its SQ head is kept beside the tail word and it reaches the engine named by SQID and CID, unless the command had timed out (R29, R308 to R310,
R314; the head advances for code 2 too, log 92). -/
def execDriveCompletion (drive : DriveId) (sqid sqhd cid : BitVec 16) (dw0 : Word) (sct : Fin 8) (sc : U8) (dnr beyond : Bool) (s : State) (cq : Fin 16 := 0) : Res :=
  .next (
    let d : Nat := drive
    let x := s.drive d
    let h := x.cqTile cq
    let q := (s.tile h).drvSq d
    if !x.window then s
    else if beyond || 2 ^ x.ncq ≤ cq.val || q.cqDepth = 0 then s.driveViolation d 3
    else
      let t := sqid.toNat - 1
      let words := cqeWords q sqid sqhd cid dw0 sct.val sc.toNat dnr
      let s := s.updTile h fun y => y.cqTake d words
      if sqid = 0 || 16 < sqid.toNat || !(s.tile t).sqHeadOk d sqhd.toNat then s.driveViolation d 2
      else
        let e := 8 * t + cidEng cid
        let k := cidSlot cid
        match ((s.eng e).slot k).drv with
        | none => s.driveViolation d 1
        | some c =>
          if c.drive ≠ d || c.answered || c.cid ≠ cid then s.driveViolation d 1
          else
            let s := s.updTile t fun y => { y with scratch := Memory.putNum y.scratch ((y.drvSq d).hdr + 4) 4 sqhd.toNat }
            if c.timedOut then
              let s := s.answered e k stInternal
              if s.fwRuns e then s.settle e (((s.eng e).slot k).parent.getD k) else s
            else
              let s := s.updEng e fun g => g.setSlot k { g.slot k with drv := (g.slot k).drv.map fun c =>
                { c with answered := true, aborting := false, status := driveSts sct sc.toNat dnr, dw3 := words.getD 3 0 } }
              (s.dcqPush e d k words).muteCheck e k)

/-- DRIVE_INTERRUPT_LANDING: a drive's MSI-X write lands in a tile's queue memory. Vector j counts for completion queue j; vector 16 is that of the admin
queue, which the warden polls; data that names no vector of the drive is discarded (R27, R263, R304, R308, R314; numbering: log 91). -/
def execDriveInterruptLanding (drive : DriveId) (t : TileId) (data : Word) (s : State) : Res :=
  .next (
    let x := s.drive drive
    if !x.window then s
    else
      match (if data = 16 then (if t.toNat = admTile drive then x.admAt.map (· + admLandOff) else none)
             else
               let q := (s.tile t).drvSq drive
               if data.toNat < 2 ^ x.ncq && t.toNat = x.cqTile data.toNat && q.depth ≠ 0 then some q.landAt else none) with
      | none => s.driveViolation drive 3
      | some a => s.updTile t fun y =>
          { y with scratch := Memory.putNum y.scratch a 4 data.toNat
                   landings := if data = 16 then y.landings else Tbl.set 0 y.landings drive ((Tbl.get 0 y.landings drive + 1) % 2 ^ 16) })

/-- A landing of a drive's interrupt that the tile has not dealt with: arrived and consumed counts differ (R263). -/
def Tile.landingDue (t : Tile) (d : Nat) : Bool := Tbl.get 0 t.landings d ≠ Tbl.get 0 t.landed d

/-- SHORT_TRANSFER_CHECK: 10 µs after a success a transfer of the command has not reached MOVED (R313, R314). -/
def execShortTransferCheck (e : EngId) (slot : SlotId) (s : State) : Res :=
  .next (
    let x := (s.eng e).slot slot
    match x.drv, x.xfer with
    | some c, some f =>
      if !c.answered || c.status ≠ stOk || f.phase ≠ 0 then s
      else
        let s := ((s.slotRecord e slot 7 c.drive).driveViolation c.drive 7)
        let s := s.updEng e fun g => g.setSlot slot { g.slot slot with drv := (g.slot slot).drv.map fun c => { c with status := stInternal } }
        if s.fwRuns e then s.settle e (x.parent.getD slot) else s
    | _, _ => s)

/-- DRIVE_CMD_TIMEOUT: a drive command has been out for DRVn_CTO: record, violation, Internal Error to the tenant, and an Abort by the warden
(R310, R314). -/
def execDriveCmdTimeout (e : EngId) (slot : SlotId) (s : State) : Res :=
  .next (
    match ((s.eng e).slot slot).drv with
    | none => s
    | some c =>
      if c.answered || c.timedOut || (s.drive c.drive).st ≠ 2 then s
      else
        let s := s.updEng e fun g => g.setSlot slot { g.slot slot with drv := (g.slot slot).drv.map fun c => { c with timedOut := true, aborting := true, status := stInternal } }
        let s := (s.slotRecord e slot 2 c.drive).driveAbort e c.drive c.cid
        (s.failPart e slot stInternal).driveViolation c.drive 8)

/-- DRIVE_ABORT_TIMEOUT: 1 s after the timeout neither the Abort nor the command has completed, and the controller is reset (R310, R312). -/
def execDriveAbortTimeout (e : EngId) (slot : SlotId) (s : State) : Res :=
  .next (
    match ((s.eng e).slot slot).drv with
    | none => s
    | some c => if s.fwUp && c.aborting && !c.answered then s.driveReset c.drive else s)

/-- CSTS_POLL: the warden reads CSTS of an ACTIVE drive, and resets one that has CFS set (R312). -/
def execCstsPoll (drive : DriveId) (cfs : Bool) (s : State) : Res :=
  .next (if s.fwUp && (s.drive drive).st = 2 && cfs then s.driveReset drive else s)

/-- DRIVE_RESET_COMPLETE: CSTS.RDY has fallen, the slots are releasable and bring-up runs again from step 3; or it did not fall within CAP.TO, and
the drive is quarantined (R312). -/
def execDriveResetComplete (drive : DriveId) (ok : Bool) (s : State) : Res :=
  .next (
    let d : Nat := drive
    if (s.drive d).st ≠ 3 || (s.drive d).step ≠ 20 || !s.fwUp then s
    else if !ok then s.quarantine d
    else
      let s := (s.openOn d).foldl (fun s p =>
        let s := s.answered p.1 p.2 stInternal
        if s.fwRuns p.1 then s.settle p.1 (((s.eng p.1).slot p.2).parent.getD p.2) else s) s
      ((s.updDrive d fun x => { x with step := 3 }).drvBegin d).moltsCheck)

/-- DRVN_QUAR: DRVn_CTRL.QUAR (R318). -/
def execDrvnQuar (drive : DriveId) (s : State) : Res := .next (s.quarantine drive)

/-- A drive leaves quarantine: bring-up, if its link is up, else ABSENT (R316, R490). -/
def State.drvRelease (s : State) (d : Nat) : State :=
  let x := s.drive d
  if x.st ≠ 4 then s
  else if x.link then ((s.setDrive d x.endOverride).drvBegin d).moltsCheck
  else (s.setDrive d { x with st := 0 }).moltsCheck

/-- DRVN_RELEASE: DRVn_CTRL.RELEASE (R316). -/
def execDrvnRelease (drive : DriveId) (s : State) : Res := .next (s.drvRelease drive)

/-- A downstream link is down, with a state of R299: its drive is ABSENT, unless quarantined, and its commands end (R303, R313, R317). -/
def State.drvLinkDown (s : State) (d st : Nat) : State :=
  let l := linkOfDrive d
  let s := s.setLinkSt l.1 l.2.1 l.2.2 st
  let x := s.drive d
  let s := s.setDrive d { x with link := false, step := 0 }
  if x.overridden then s
  else ((((s.updDrive d fun x => { x.hwState 0 with window := false, busMaster := false }).failDrive d 5 stNotReady true).drvFree d).admFree d).moltsCheck

/-- DRIVE_LINK_DOWN: a surprise link down, a violation of class 6 (R295, R317). -/
def execDriveLinkDown (drive : DriveId) (s : State) : Res :=
  .next (
    let l := linkOfDrive drive
    if !(s.drive drive).link then s else (s.pgCount l.1 l.2.1 l.2.2 6).drvLinkDown drive 1)

/-! ## The die-to-die link (R33, R313, R319) -/

/-- DIELINK_DOWN: the data lanes fail: a fault is raised, and commands whose data would cross end with Transient Transport Error (R33, R311, R313,
R319). -/
def execDielinkDown (s : State) : Res :=
  .next (
    if !s.dieLink then s
    else
      let s := { s with dieLink := false }.faultEvent 0 0x30 0 0
      let ds := (List.range 64)
      ds.foldl (fun s d => (s.openOn d).foldl (fun s p =>
        if dieOfDrive d = dieOfTile (tileOf p.1) then s
        else (s.slotRecord p.1 p.2 6 d).failPart p.1 p.2 stTransport) s) s)

/-- DIELINK_RETRAIN: the retraining of every 100 ms, which brings the lanes back or does not (R319). -/
def execDielinkRetrain (ok : Bool) (s : State) : Res := .next { s with dieLink := s.dieLink || ok }

end Sys2Proof.Machine
end

