-- ==== Sys2Proof/Machine/Nor.lean ====
section
/-!
DEFINITION. The SPI NOR (R457, R458): erased bytes read 0xFF, so it is kept as the table of its complemented bytes (log 9); the fields of
bundle headers and of the configuration block (R458, R468); and the lane image that engines are loaded with (R455, R459, R465).
-/

namespace Sys2Proof.Machine

/-- A byte, and a string, of the SPI NOR. -/
def State.norByte (s : State) (a : Nat) : Byte := ~~~ Memory.rd s.boot.nor a
def State.norBytes (s : State) (a n : Nat) : List Byte := (List.range n).map fun i => s.norByte (a + i)

/-- Bytes programmed into erased NOR. -/
def State.norPut (s : State) (a : Nat) (bs : List Byte) : State :=
  { s with boot := { s.boot with nor := Memory.put s.boot.nor a (bs.map fun b => ~~~ b) } }

/-- A range erased. -/
def State.norErase (s : State) (a n : Nat) : State :=
  { s with boot := { s.boot with nor := s.boot.nor.filter fun p => p.1 < a || a + n ≤ p.1 } }

/-! ## Bundle slots (R457, R458) -/

/-- First byte of a bundle slot. -/
def slotBase (b : Bool) : Nat := if b then 0x500000 else 0x100000
/-- A 4-byte header field of a slot (R458). -/
def State.hdr (s : State) (b : Bool) (o : Nat) : Nat := ofLe (s.norBytes (slotBase b + o) 4)
/-- VERSION of a slot. -/
def State.bundleVersion (s : State) (b : Bool) : Nat := s.hdr b 8

/-- A memory holding the given bytes from 0, in canonical form. -/
def memOf (bs : List Byte) : Memory := bs.zipIdx.filterMap fun p => if p.1 = 0 then none else some (p.2, p.1)

/-- The part of a memory in [lo, hi), moved down to 0. -/
def Memory.slice (m : Memory) (lo hi : Nat) : Memory := (m.filter fun p => lo ≤ p.1 && p.1 < hi).map fun p => (p.1 - lo, p.2)

/-- An engine's instruction RAM is loaded with the lane image; at start-up its data RAM as well (R321, R455, R458). -/
def State.loadLane (s : State) (e : Nat) (data : Bool) : State :=
  s.updEng e fun g => { g with iram := Memory.slice s.boot.lane 0 0x8000, dram := if data then Memory.slice s.boot.lane 0x8000 0x28000 else g.dram }

/-! ## The configuration block (R468, R469) -/

/-- The block is valid: MAGIC, FORMAT and CRC (R469). -/
def cfgValid (b : List Byte) : Bool :=
  leAt b 0 4 = 0x47434454 && leAt b 4 2 = 1 && leAt b 4092 4 = (crc32c (b.take 4092)).toNat

/-- The configuration block in the NOR. -/
def State.cfgBlock (s : State) : List Byte := s.norBytes 0 4096

/-- Whether the part booted factory defaults (R469, R470). -/
def State.cfgDefaulted (s : State) : Bool := bitOf s.glb.boot.toNat 0

end Sys2Proof.Machine
end

