-- ==== Sys2Proof/Machine/Port.lean ====
section
/-!
DEFINITION. The PCIe port groups (R273 to R301): resets of upstream ports and functions, link states, D3hot, MSI-X, received TLPs and timeouts with
the violation classes of R295, slot enables, and the reference clocks.
-/

namespace Sys2Proof.Machine

/-! ## Resets of functions and ports (R241, R280, R347) -/

/-- A mailbox page is reset: both areas, the sequence memory, WORD, OVERRUN and the acceptance time are cleared; an ACCEPTED request runs to
completion with its response discarded (R347, R492). -/
def Page.reset (p : Page) : Page :=
  { p with area := [], mem := none, word := 0, overrun := false, aTime := 0, checked := false, st := if p.st = 2 then 2 else 0, discard := p.st = 2 }

def State.pageReset (s : State) (p : Nat) : State := s.updPage p Page.reset

/-- A function changed CC.EN, CC.SHN, PowerState or VF Enable, or took a function level reset (R336). -/
def State.fnState (s : State) (f : Nat) : State := s.raise (18 + portOf f)

/-- A function is reset: its controller as by controller reset, its power state, MSI-X table and tenant mailbox page (R241, R347). -/
def State.funcReset (s : State) (f : Nat) : State :=
  ((s.ctlReset f).updCtl f fun c =>
    { c with d3 := false, pmeEn := false, pmeStatus := false, pmeSent := false, pmeOwed := false
             devctl := 0x2810, aqa := 0, asq := 0, acq := 0, vecs := [] }).pageReset f

/-- Virtual functions of a port that are enabled, or hold state. -/
def State.vfsOf (s : State) (u : Nat) : List Nat := s.funcs.filter fun f => portOf f = u && f % 256 ≠ 0

/-- A virtual function is disabled: it is reset, and its page with it (R347). -/
def State.vfOff (s : State) (f : Nat) : State := (s.funcReset f).updCtl f fun c => { c with funcOn := false }

/-- IDE streams of a port are cleared and disabled; a stream that leaves a state raises the group's event source (R282, R336). -/
def State.ideOff (s : State) (u : Nat) : State :=
  let s := s.updPort u fun p => { p with ideStreams := [] }
  if (s.port u).ide.isEmpty then s
  else
    let s := s.updPort u fun p => { p with ide := [] }
    match s.upSlot u with | some (g, _) => s.raise (112 + g) | none => s

/-- A reset reaches an upstream port: every controller of it ends as by function level reset, its operator page and IDE keys go, and its functions
wait to be enabled again (R280, R282, R347). -/
def State.portReset (s : State) (u : Nat) : State :=
  let s := (s.funcsOfPort u).foldl (fun s f => (s.funcReset f).updCtl f fun c => { c with funcOn := false }) s
  let pages := (s.pages.map Prod.fst).filter fun p => p < 1024 && portOf p = u
  let s := (pages.foldl State.pageReset s).pageReset (1024 + u)
  (s.ideOff u).updPort u fun p =>
    { p with aspmL1 := false, l11 := false, l12 := false, l12thr := 0, devctl2 := 0, aerctl := 0, doe := [], sessions := 0 }

/-- The link of an upstream port takes a state. -/
def State.upLinkSt (s : State) (u st : Nat) : State := match s.upSlot u with | some (g, k) => s.setLinkSt g k false st | none => s

/-- A write to a function's registers is taken: the function is enabled and in D0, and the stream it requires, if any, is Secure, on which the write
then comes (R283, R288). -/
def State.barOpen (s : State) (f : Nat) : Bool := (s.ctl f).funcOn && !(s.ctl f).d3 && s.ideOk f

/-- CONTROLLER_RESET: the host writes CC.EN = 0 (R241). -/
def execControllerReset (f : FuncId) (s : State) : Res :=
  .next (if s.barOpen f && (s.ctl f).ccEn then (s.ctlReset f).fnState f else s)

/-- FUNCTION_LEVEL_RESET; that of a physical function disables its virtual functions, and resets the operator page as well (R241, R347; SR-IOV,
PRESUMED). -/
def execFunctionLevelReset (f : FuncId) (s : State) : Res :=
  .next (
    if !(s.ctl f).funcOn then s
    else
      let s := if f.toNat % 256 = 0 then ((s.vfsOf (portOf f)).foldl State.vfOff s).pageReset (1024 + portOf f) else s
      (s.funcReset f).fnState f)

/-- VF_ENABLE_CHANGE: the host sets VF Enable for `num` virtual functions, or clears it (R241, R347). -/
def execVfEnableChange (u : PortId) (enable : Bool) (num : U8) (s : State) : Res :=
  .next (
    let s := if enable then ((List.range num.toNat).map fun i => 256 * u.toNat + 1 + i).foldl (fun s f => s.updCtl f fun c => { c with funcOn := true }) s
             else (s.vfsOf u).foldl State.vfOff s
    s.fnState (256 * u))

/-- An edge on a pin counts in its asynchronous latch (R335). -/
def State.asyncEdge (s : State) (i : Nat) : State :=
  s.updWarden fun w => { w with arrived := Tbl.set 0 w.arrived i ((Tbl.get 0 w.arrived i + 1) % 256) }

/-- PERST_UPSTREAM: PERST# of UPu changes level (R280, R335). -/
def execPerstUpstream (u : PortId) (assert : Bool) (s : State) : Res :=
  .next (
    if (s.port u).perst = assert then s
    else
      let s := (s.updPort u fun p => { p with perst := assert }).asyncEdge u
      if assert then (s.portReset u).upLinkSt u 1 else s.upLinkSt u 2)

/-- HOT_RESET (R280). -/
def execHotReset (u : PortId) (s : State) : Res := .next ((s.portReset u).upLinkSt u 9)

/-- DL_DOWN: the link of an upstream port goes down, a violation of class 6 (R280, R295). -/
def execDlDown (u : PortId) (s : State) : Res :=
  .next (match s.upSlot u with
    | some (g, k) => ((s.pgCount g k false 6).portReset u).upLinkSt u 1
    | none => s)

/-! ## Upstream links (R285, R287, R289) -/

/-- UPSTREAM_LINK_UP: the link finishes training to L0 at a rate and a width that its mode allows; the physical function answers again, and what waited
is sent. From L2/L3 Ready only PERST# leads on (R273, R280, R285). -/
def execUpstreamLinkUp (u : PortId) (rate : Fin 7) (width : Fin 17) (s : State) : Res :=
  .next (
    match s.upSlot u with
    | none => s
    | some (g, k) =>
      let l := (s.group g).link k false
      if !(s.group g).en.getLsbD k || (s.port u).perst || l.st = 10 || l.st = 8 || !linkWidth (s.group g) k width then s
      else
        let s := s.updGroup g fun x => x.trained k false rate width
        ((s.setLinkSt g k false 3).updCtl (256 * u) fun c => { c with funcOn := true }).portSend u)

/-- Every enabled function of the port is in D3hot. -/
def State.allD3 (s : State) (u : Nat) : Bool := (s.funcsOfPort u).all fun f => !(s.ctl f).funcOn || (s.ctl f).d3

/-- An idle link of an upstream port enters L1, or goes on to L1.1 or, with the LTR threshold met, to L1.2 (R285). -/
def State.upL1 (s : State) (u sub latency : Nat) : State :=
  let p := s.port u
  let st := s.upLink u
  if st ≠ 3 && st ≠ 5 then s
  else if !p.aspmL1 && !s.allD3 u then s
  else if sub = 1 then (if p.l11 && p.clkreqHigh then s.upLinkSt u 6 else s)
  else if sub = 2 then (if p.l12 && p.clkreqHigh && p.l12thr ≤ latency then s.upLinkSt u 7 else s)
  else s.upLinkSt u 5

/-- The upstream port that a port number is, if it is one. -/
def State.upPort (s : State) (port : Nat) : Option Nat :=
  if (s.group (port / 2)).dirUp (port % 2) && s.carriesPort (port / 2) (port % 2) then some ((s.group (port / 2)).upidx (port % 2)) else none

/-- L1_ENTRY: an idle link enters L1 or a substate; `latency` is the tolerance in nanoseconds that the port's LTR last reported. A downstream link
enters L1 or L1.1, which the warden has enabled at its drive (R277, R285; log 85). -/
def execL1Entry (link : LinkId) (sub : Fin 3) (s : State) (latency : Word := 0) : Res :=
  .next (
    let p : Nat := link.1
    let linkB := link.2
    match s.upPort p with
    | some u => s.upL1 u sub latency.toNat
    | none =>
      let st := ((s.group (p / 2)).link (p % 2) linkB).st
      if (st ≠ 3 && st ≠ 5) || sub = 2 then s else s.setLinkSt (p / 2) (p % 2) linkB (5 + sub.val))

/-- L1_EXIT: outbound traffic or the partner takes the link back to L0, and what waited is sent (R285, R287). -/
def execL1Exit (link : LinkId) (s : State) : Res :=
  .next (
    let p : Nat := link.1
    let linkB := link.2
    match s.upPort p with
    | some u => if 5 ≤ s.upLink u && s.upLink u ≤ 7 then (s.upLinkSt u 3).portSend u else s
    | none =>
      let st := ((s.group (p / 2)).link (p % 2) linkB).st
      if 5 ≤ st && st ≤ 7 then s.setLinkSt (p / 2) (p % 2) linkB 3 else s)

/-- CLKREQ_EDGE: CLKREQ# changes level and is counted; asserted, it takes the link out of L1.1 and L1.2 (R285, R335). -/
def execClkreqEdge (u : PortId) (high : Bool) (s : State) : Res :=
  .next (
    if (s.port u).clkreqHigh = high then s
    else
      let s := (s.updPort u fun p => { p with clkreqHigh := high }).asyncEdge (4 + u)
      if !high && (s.upLink u = 6 || s.upLink u = 7) then s.upLinkSt u 5 else s)

/-- PME_TURN_OFF (R285). -/
def execPmeTurnOff (u : PortId) (s : State) : Res :=
  .next (if (s.upLink u = 3 || (5 ≤ s.upLink u && s.upLink u ≤ 7)) && s.allD3 u then s.upLinkSt u 8 else s)

/-! ## D3hot (R288 to R290) -/

/-- A command whose host data transfer has not finished: of a Read or Write a part is not issued, or its transfer is still ACTIVE; the range list of a
Dataset Management is not fetched (R288). -/
def State.hostOpen (s : State) (e k : Nat) : Bool :=
  let x := (s.eng e).slot k
  (x.op = 9 && !x.started) || (x.op = 1 || x.op = 2) && (!x.started && x.drv.isNone || !x.pieces.isEmpty
    || (((s.eng e).parts k).any fun j => match ((s.eng e).slot j).xfer with | some f => f.phase = 0 | none => false))

/-- A command with a host data transfer that waits for dispatch. -/
def Spilled.isData (x : Spilled) : Bool := x.entry.opcode = 1 || x.entry.opcode = 2 || x.entry.opcode = 9

/-- An admin entry with a host data transfer: Identify, Get Log Page, and the features with a data structure (R216, R288). -/
def adminHasData (w : List Word) : Bool :=
  let op := fld (w.getD 0 0).toNat 7 0
  op = 0x06 || op = 0x02 || ((op = 0x09 || op = 0x0A) && fld (w.getD 10 0).toNat 7 0 = 0x16)

/-- Admin commands whose host data transfer has not finished end without completion, each a violation (R288). -/
def State.d3Admin (s : State) (f : Nat) : State :=
  let q := s.funcQuad f
  let gone := (s.quad q).admin.filter fun a => a.1 = f && adminHasData a.2
  let late := (s.ctl f).hostq.filterMap fun w => match w with | .admin cid _ _ _ => some cid | .data .. => none
  let cids := (gone.map fun a => fld (a.2.getD 0 0).toNat 31 16) ++ late
  (s.updQuad q fun y => { y with admin := y.admin.filter fun a => !(a.1 = f && adminHasData a.2) }).updCtl f fun c =>
    { c.setSq 0 { c.sq 0 with cids := (c.sq 0).cids.filter fun i => !cids.contains i } with
        hostq := c.hostq.filter fun w => match w with | .admin .. => false | .data .. => true
        waitCpl := c.waitCpl.filter fun x => !(x.sqid = 0 && late.contains x.cid)
        ledger := { c.ledger with violations := c.ledger.violations + cids.length } }

/-- D3HOT_ENTRY: the host writes PowerState = D3hot: commands with unfinished host transfers end without completion, each a violation; entries and
messages that arise from now on are held, and an admin entry held already causes a PME (R241, R288, R289). -/
def execD3hotEntry (f : FuncId) (s : State) : Res :=
  .next (
    let f : Nat := f
    if !(s.ctl f).funcOn || (s.ctl f).d3 then s
    else
      let s := (s.updCtl f fun c => { c with d3 := true, pmeSent := false }).fnState f
      let s := s.d3Admin f
      let cs := (s.cmdsOf f none).filter fun p => s.hostOpen p.1 p.2
      let q := s.funcQuad f
      let gone := (s.ctl f).spill.filter Spilled.isData ++ (s.quad q).gates.flatMap fun p => p.2.held.filter fun x => x.entry.func = f && x.isData
      let s := s.updCtl f fun c =>
        { c with spill := c.spill.filter fun x => !x.isData
                 sqs := gone.foldl (fun t x => Tbl.upd Sq.init t x.entry.sqid fun y => { y with cids := y.cids.erase (fld (x.entry.sqe.getD 0 0).toNat 31 16) }) c.sqs
                 ledger := { c.ledger with violations := c.ledger.violations + cs.length + gone.length } }
      let s := s.updQueue (512 + f) fun y => y.fit (5 * (s.ctl f).spill.length)
      let s := s.updQuad q fun y => { y with gates := Tbl.mapv Gate.init y.gates fun g => { g with held := g.held.filter fun x => !(x.entry.func = f && x.isData) } }
      let s := s.updCtl f fun c => { c with hostq := c.hostq.filter fun w => !cs.any fun p => ((s.eng p.1).parts p.2).any fun j => w.of p.1 j }
      let s := cs.foldl (fun s p =>
        if (s.eng p.1).driveOpen p.2 then
          (((s.eng p.1).parts p.2).foldl (fun s j => s.endXfer p.1 j 0x33) s).updEng p.1 fun g => g.setSlot p.2 { g.slot p.2 with mute := true, pieces := [] }
        else s.endQuietly p.1 p.2) s
      if (s.ctl f).waitCpl.any fun c => c.sqid = 0 then s.pmeCheck f 0 else s)

/-- Held entries are written in order, as far as their queues have room. -/
def State.d0Entries (s : State) (f : Nat) : State :=
  let w := (s.ctl f).waitCpl
  w.foldl (fun s c =>
    if s.cplHeld f c then s.updCtl f fun x => { x with waitCpl := x.waitCpl ++ [c] }
    else
      let q := (s.ctl f).cq ((s.ctl f).sq c.sqid).cq
      let s := (s.cplEntry f c).cplSent c
      if q.irq then s.updCtl f fun x => x.setVec q.vector { x.vec q.vector with held := (x.vec q.vector).held + 1 } else s)
    (s.updCtl f fun x => { x with waitCpl := [] })

/-- D0_RETURN: PowerState = D0: held entries are written in order, and one message goes out on each vector that holds a completion. From L2/L3 Ready a
function reaches D0 only through PERST# (R285, R290). -/
def execD0Return (f : FuncId) (s : State) : Res :=
  .next (
    let f : Nat := f
    if !(s.ctl f).d3 || s.upLink (portOf f) = 8 then s
    else
      let s := (s.updCtl f fun c => { c with d3 := false, pmeSent := false, pmeOwed := false }).fnState f
      let s := s.hostFlush f
      let s := if s.canSend f then s.d0Entries f else s
      ((s.ctl f).vecs.filter fun p => p.2.held ≠ 0 || p.2.owed).foldl (fun s p => s.msixDue f p.1) s)

/-! ## MSI-X (R286) -/

/-- COALESCE_TIMER_EXPIRY: the aggregation timer of a vector that holds entries reaches TIME (R286). -/
def execCoalesceTimerExpiry (f : FuncId) (v : Fin 65) (s : State) : Res :=
  .next (
    let x := (s.ctl f).vec v
    if x.timer.isSome && x.held ≠ 0 && !(s.ctl f).d3 then s.msixDue f v else s)

/-- A vector is unmasked; a pending message is sent (R286). -/
def State.msixUnmask (s : State) (f v : Nat) : State :=
  let x := (s.ctl f).vec v
  let s := s.updCtl f fun c => c.setVec v { x with masked := false, pending := false }
  if x.pending then s.msixDue f v else s

/-- Vectors of a function (R209). -/
def vectorsOf (f : Nat) : Nat := if f % 256 = 0 then 65 else 17

def execMsixUnmask (f : FuncId) (v : Fin 65) (s : State) : Res :=
  .next (if s.barOpen f && v.toNat < vectorsOf f then s.msixUnmask f v else s)

/-! ## Violations and timeouts (R281, R284, R295) -/

/-- The group and slot of a port number carry it, and its direction. -/
def State.portDir (s : State) (p : Nat) : Bool := (s.group (p / 2)).dirUp (p % 2)

/-- The upstream port reports a violation of the class to its host: class 2 if the physical function's Fatal Error Reporting Enable is set; classes 4 to
6 have answers of their own (R284, R295). -/
def State.aerReports (s : State) (u cls : Nat) : Bool :=
  cls ≤ 1 || cls = 3 || cls = 7 || (cls = 2 && (s.ctl (256 * u)).devctl.getLsbD 2)

/-- A violation on a port is counted; a host's port reports it, and a drive answers for classes 2 to 5 (R295, R314). -/
def State.portViolation (s : State) (p : Nat) (b : Bool) (cls : Nat) : State :=
  let s := s.pgCount (p / 2) (p % 2) b cls
  let u := (s.group (p / 2)).upidx (p % 2)
  if s.portDir p then (if s.aerReports u cls then s.emit (.aer u cls) else s)
  else if 2 ≤ cls && cls ≤ 5 then s.driveViolation (driveIndex p b) 6 else s

/-- A link that is up entered Recovery because of errors; the eighth time in 1 s lowers its rate by one step (R295). -/
def State.classOne (s : State) (p : Nat) (b : Bool) : State :=
  let s := s.portViolation p b 1
  let g := p / 2
  let l := (s.group g).link (p % 2) b
  if l.st < 3 || 7 < l.st then s
  else
    let times := (s.now :: l.c1times).filter fun t => s.now - t ≤ 100000000
    (s.setLinkSt g (p % 2) b 4).updGroup g fun x =>
      let y := x.link (p % 2) b
      x.setLink (p % 2) b (if 8 ≤ times.length then { y with rate := max 1 (y.rate - 1), c1times := [] } else { y with c1times := times })

/-- A non-posted request of the part fails: a transfer ends HOST_ERROR, which for its PRP list counts a tenant violation; a fetch fails its controller,
and a bring-up read of a drive its bring-up (R137, R242, R281, R295, R304). -/
def State.reqFailed (s : State) (r : PortReq) : State :=
  match r with
  | .transfer e k => if (match s.xferOf e k with | some x => x.phase = 0 && x.dir ≤ 1 | none => false) then s.endXfer e k 0x34 else s
  | .prpList e k =>
    match s.xferOf e k with
    | some x => if x.phase = 0 && x.dir ≤ 1 then (s.endXfer e k 0x34).countViolation x.func else s
    | none => s
  | .fetch f => s.ctlFail f true
  | .drive d => if (s.drive d).step = 3 then s.driveReset d else s

/-- The port of a request, and whether it goes to link B. -/
def State.reqPort (s : State) (r : PortReq) : Option (Nat × Bool) :=
  match r with
  | .transfer e k | .prpList e k => (s.xferOf e k).bind fun x => (s.upSlot (portOf x.func)).map fun p => (2 * p.1 + p.2, false)
  | .fetch f => (s.upSlot (portOf f)).map fun p => (2 * p.1 + p.2, false)
  | .drive d => some (d / 2, d % 2 = 1)

/-- A request of the part is outstanding on a port, and link of a downstream port. -/
def State.reqOn (s : State) (r : PortReq) (p : Nat) (b : Bool) : Bool :=
  match s.reqPort r with | some x => x.1 = p && (s.portDir p || x.2 = b) | none => false

/-- COMPLETION_TIMEOUT: a class 5 violation; a drive's timeout does not count toward quarantine (R281, R295). -/
def execCompletionTimeout (req : PortReq) (s : State) : Res :=
  .next (
    match s.reqPort req with
    | none => s
    | some (p, b) =>
      let s := if s.portDir p then s.portViolation p b 5 else s.pgCount (p / 2) (p % 2) b 5
      s.reqFailed req)

/-- REPLAY_TIMER_EXPIRY: class 0 (R295). -/
def execReplayTimerExpiry (port : Fin 32) (linkB : Bool) (s : State) : Res := .next (s.portViolation port linkB 0)

/-! ## Received TLPs (R278, R279, R283, R284, R289, R295, R456) -/

/-- The stream that a function, or the operator window of a physical function, is restricted to (R283, R345). -/
def State.streamFor (s : State) (f off : Nat) : Option Nat :=
  if f % 256 = 0 && 0x2020 ≤ off && off < 0x2040 then (s.port (portOf f)).ideReq else (s.ctl f).ideReq

/-- A BAR access: 0 taken, 1 Unsupported Request, 2 discarded without an answer (R279, R283, R284, R288). -/
def State.barCheck (s : State) (f off : Nat) (stream : Option (Fin 8)) : Nat :=
  let p := s.port (portOf f)
  if (match stream with | some k => decide (Tbl.get 0 p.ide k.val = 2) | none => false) then 2
  else if !(s.ctl f).funcOn || (s.ctl f).d3 then 1
  else match s.streamFor f off with
    | some r => if stream.map Fin.val = some r && Tbl.get 0 p.ide r = 1 then 0 else 1
    | none => 0

/-- A write to the MSI-X table: address, data, or the mask bit (R279, R286). -/
def State.msixWrite (s : State) (f off : Nat) (w : Word) : State :=
  let v := (off - 0x4000) / 16
  let x := (s.ctl f).vec v
  match off % 16 with
  | 0 => s.updCtl f fun c => c.setVec v { x with addr := pair64 w (x.addr >>> 32).toNat }
  | 4 => s.updCtl f fun c => c.setVec v { x with addr := pair64 (x.addr.truncate 32) w }
  | 8 => s.updCtl f fun c => c.setVec v { x with data := w }
  | 12 => if bitOf w.toNat 0 then s.updCtl f fun c => c.setVec v { x with masked := true } else s.msixUnmask f v
  | _ => s

/-- The mailbox page behind a window offset of a function: the tenant window, or the operator window of a physical function (R345). -/
def windowPage (f off : Nat) : Option Nat :=
  if 0x2000 ≤ off && off < 0x2020 then some f
  else if 0x2020 ≤ off && off < 0x2040 && f % 256 = 0 then some (1024 + portOf f) else none

/-- A read of a window register other than MBX_HDATA, with the value it answers (R9, R491, R492). -/
def State.windowRead (s : State) (p r : Nat) : Word × State :=
  let g := s.page p
  match r with
  | 0x00 => (BitVec.ofNat 32 (4 * g.word), s)
  | 0x0C => (BitVec.ofNat 32 (b2n g.overrun * 2 ^ 31 + g.st), s)
  | 0x10 => (g.aTime.truncate 32, s.updPage p fun g => { g with latch := Tbl.set none g.latch 0x14 (some ((g.aTime >>> 32).truncate 32)) })
  | 0x14 => ((Tbl.get none g.latch 0x14).getD ((g.aTime >>> 32).truncate 32), s.updPage p fun g => { g with latch := Tbl.set none g.latch 0x14 none })
  | _ => (0, s)

/-- The NVMe registers of a controller by offset: CAP (MQES, CQR, AMS, TO; NVM command set and 4 KiB pages), VS, CC, CSTS, AQA, ASQ, ACQ; the others read
0 (R209, R279, R456; the places are those of NVMe Base 2.0, PRESUMED, log 86). -/
def Ctl.nvmeReg (c : Ctl) (off : Nat) : Word :=
  match off with
  | 0x00 => 0x78010FFF
  | 0x04 => 0x00000020
  | 0x08 => 0x00020000
  | 0x14 => c.cc ||| BitVec.ofNat 32 (b2n c.ccEn + 2 ^ 14 * c.shn)
  | 0x1C => BitVec.ofNat 32 (b2n c.rdy + 2 * b2n c.cfs + 4 * c.shst)
  | 0x24 => c.aqa
  | 0x28 => c.asq.truncate 32
  | 0x2C => (c.asq >>> 32).truncate 32
  | 0x30 => c.acq.truncate 32
  | 0x34 => (c.acq >>> 32).truncate 32
  | _ => 0

/-- A word of the MSI-X table: address, data and mask of a vector (R279). -/
def Ctl.msixReg (c : Ctl) (o : Nat) : Word :=
  let x := c.vec (o / 16)
  match o % 16 with
  | 0 => x.addr.truncate 32
  | 4 => (x.addr >>> 32).truncate 32
  | 8 => x.data
  | _ => BitVec.ofNat 32 (b2n x.masked)

/-- A word of the pending bit array (R279). -/
def Ctl.pbaReg (c : Ctl) (n o : Nat) : Word :=
  BitVec.ofNat 32 (((List.range 32).map fun i => b2n (8 * o + i < n && (c.vec (8 * o + i)).pending) * 2 ^ i).sum)

/-- A taken read of a BAR: registers, MSI-X table, pending bits and mailbox windows answer, MBX_HDATA as the command of its own, every other offset with
0 (R279, R345). -/
def State.barRead (s : State) (f off : Nat) : State :=
  match windowPage f off with
  | some p => if off % 0x20 = 4 then s else let r := s.windowRead p (off % 0x20); r.2.emit (.hostValue f r.1)
  | none =>
    let c := s.ctl f
    s.emit (.hostValue f (
      if off < 0x1000 then c.nvmeReg off
      else if 0x4000 ≤ off && off < 0x4000 + 16 * vectorsOf f then c.msixReg (off - 0x4000)
      else if 0x6000 ≤ off && off < 0x6010 then c.pbaReg (vectorsOf f) (off - 0x6000)
      else 0))

/-- A taken write to CC's fields that no command names, or to AQA, ASQ or ACQ while the controller is disabled (R279; log 86). -/
def Ctl.nvmeWrite (c : Ctl) (off : Nat) (w : Word) : Ctl :=
  if off = 0x14 then { c with cc := w &&& 0x00FF3FF0 }
  else if c.ccEn then c
  else match off with
  | 0x24 => { c with aqa := w &&& 0x0FFF0FFF }
  | 0x28 => { c with asq := pair64 (w &&& 0xFFFFF000) (c.asq >>> 32).toNat }
  | 0x2C => { c with asq := pair64 (c.asq.truncate 32) w }
  | 0x30 => { c with acq := pair64 (w &&& 0xFFFFF000) (c.acq >>> 32).toNat }
  | 0x34 => { c with acq := pair64 (c.acq.truncate 32) w }
  | _ => c

/-- A taken write to the MSI-X table, to a controller register, or to MBX_HOFF, which sets WORD; others are ignored (R279, R491). -/
def State.barWrite (s : State) (f off : Nat) (w : Word) : State :=
  if off < 0x1000 then s.updCtl f fun c => c.nvmeWrite off w
  else if 0x4000 ≤ off && off < 0x4000 + 16 * vectorsOf f then s.msixWrite f off w
  else match windowPage f off with
    | some p => if off % 0x20 = 0 then s.updPage p fun g => { g with word := fld w.toNat 11 2 } else s
    | none => s

/-! ## IDE streams (R282) -/

def UpPort.stream (p : UpPort) (k : Nat) : IdeStream := Tbl.get IdeStream.init p.ideStreams k
def UpPort.updStream (p : UpPort) (k : Nat) (f : IdeStream → IdeStream) : UpPort :=
  { p with ideStreams := Tbl.set IdeStream.init p.ideStreams k (f (p.stream k)) }
def UpPort.setIde (p : UpPort) (k st : Nat) : UpPort := { p with ide := Tbl.set 0 p.ide k st }

/-- Each sub-stream has a key set in use in each direction (R282). -/
def IdeStream.ready (x : IdeStream) : Bool := (List.range 6).all fun i => x.go.getLsbD i || x.go.getLsbD (6 + i)

/-- A stream that is enabled and whose keys are in use becomes Secure; one that loses either leaves Secure: DISABLED if the host disabled it, else
Insecure. A change raises the group's event source, and what a controller may now send goes out (R282, R283, R336). -/
def State.ideSettle (s : State) (u k : Nat) : State :=
  let x := (s.port u).stream k
  let st := Tbl.get 0 (s.port u).ide k
  let new := if !x.en then 0 else if x.ready then 1 else if st = 0 then 0 else 2
  if new = st then s
  else
    let s := s.updPort u fun p => p.setIde k new
    let s := match s.upSlot u with | some (g, _) => s.raise (112 + g) | none => s
    if new = 1 then (s.funcs.filter fun f => portOf f = u).foldl State.funcSend s else s

/-- The host enables a stream, or disables it, which clears its keys (R282). -/
def State.ideEnable (s : State) (u k : Nat) (en : Bool) : State :=
  (s.updPort u fun p => p.updStream k fun x => if en then { x with en := true } else { x with en := false, keys := [], go := 0 }).ideSettle u k

/-- INBOUND_TLP: what a port receives is checked and taken, answered, or discarded and counted. A register write that is taken has the effect of
the command of its register (R278, R279, R284, R289, R295, R456). -/
def execInboundTlp (port : Fin 32) (linkB : Bool) (tlp : Tlp) (s : State) : Res :=
  .next (
    let p : Nat := port
    let u := (s.group (p / 2)).upidx (p % 2)
    let up := s.portDir p
    match tlp with
    | .bad c => if c = 1 then s.classOne p linkB else s.portViolation p linkB c
    | .poisoned r => let t := s.portViolation p linkB 4; if s.reqOn r p linkB then t.reqFailed r else t
    | .refused r => let t := s.portViolation p linkB 5; if s.reqOn r p linkB then t.reqFailed r else t
    | .ideFail k =>
      if !up then s
      else ((s.portViolation p linkB 7).updPort u fun x => (x.setIde k 2).updStream k fun y => { y with go := 0 }).raise (112 + p / 2)
    | .memRead f off k =>
      if !up || portOf f ≠ u then s
      else match s.barCheck f off.toNat k with | 0 => (s.barRead f off.toNat).emit (.hostAnswer f 0) | 1 => s.emit (.hostAnswer f 1) | _ => s
    | .memWrite f off w k =>
      if !up || portOf f ≠ u || s.barCheck f off.toNat k ≠ 0 then s
      else s.barWrite f off.toNat w
    | .config f => if !up || portOf f ≠ u then s else s.emit (.hostAnswer f (if (s.port u).ready then 0 else 2))
    | .unsupported f => if up then s.emit (.hostAnswer f 1) else s
    | .linkControl l1 l11 l12 thr => if up then s.updPort u fun x => { x with aspmL1 := l1, l11 := l11, l12 := l12, l12thr := thr.toNat } else s
    | .devControl f v => if up && portOf f = u then s.updCtl f fun c => { c with devctl := v } else s
    | .devControl2 v => if up then s.updPort u fun x => { x with devctl2 := v } else s
    | .aerControl v => if up then s.updPort u fun x => { x with aerctl := v } else s
    | .ideControl k en => if up then s.ideEnable u k en else s
    | .ideRid k lo hi => if up then s.updPort u fun x => x.updStream k fun y => { y with rid := (lo.toNat, hi.toNat) } else s
    | .ideAddr k r lo hi =>
      if up then s.updPort u fun x => x.updStream k fun y =>
        if r then { y with addr1 := (lo.toNat, hi.toNat) } else { y with addr0 := (lo.toNat, hi.toNat) }
      else s
    | .pmControl f en clear =>
      if !up || portOf f ≠ u then s
      else
        let s := s.updCtl f fun c => { c with pmeEn := en, pmeStatus := c.pmeStatus && !clear }
        if (s.ctl f).waitCpl.any fun c => c.sqid = 0 then s.pmeCheck f 0 else s)

/-! ## Slots of a port group (R273, R275, R297, R298) -/

/-- The groups of an X16 pair, or the group alone. -/
def pairOf (g : Nat) : Nat := if g % 2 = 0 then g + 1 else g - 1

/-- Upstream ports that are enabled: group and slot. -/
def State.enabledUps (s : State) : List (Nat × Nat) :=
  ((List.range 16).flatMap fun g => [(g, 0), (g, 1)]).filter fun p =>
    s.carriesPort p.1 p.2 && (s.group p.1).dirUp p.2 && (s.group p.1).en.getLsbD p.2

/-- X16 is set on only one group of a pair (R273, R298). -/
def State.halfPair (s : State) (g : Nat) : Bool := ((s.group g).gmode = 3) ≠ ((s.group (pairOf g)).gmode = 3)

/-- Why the present mode of a group cannot be enabled, whatever its partner's is (R298). -/
def State.ownErr (s : State) (g : Nat) : Nat :=
  let r := s.group g
  let ups := [0, 1].filter fun k => s.carriesPort g k && r.dirUp k
  let others := s.enabledUps.filter fun p => p.1 ≠ g
  if r.gmode ≠ 1 && (r.qmode 0 ≠ 0 || r.qmode 1 ≠ 0) then 1
  else if 4 < ups.length + others.length || (ups.any fun k => others.any fun p => (s.group p.1).upidx p.2 = r.upidx k)
     || (ups.length = 2 && r.upidx 0 = r.upidx 1) then 2
  else if r.gmode = 1 && [0, 1].any fun k => r.qmode k = 3 && r.dirUp k then 3
  else 0

/-- PGn_STAT.CFGERR: why the present mode cannot be enabled (R298). -/
def State.cfgErr (s : State) (g : Nat) : Nat := if s.halfPair g then 1 else s.ownErr g

/-- Drives on the links of a slot. -/
def slotDrives (g k : Nat) : List Nat := [4 * g + 2 * k, 4 * g + 2 * k + 1]

/-- The links of a slot go down with a state of R299: an upstream port is reset, drives become ABSENT (R280, R317). -/
def State.slotDown (s : State) (g k st : Nat) : State :=
  if (s.group g).dirUp k then (s.portReset ((s.group g).upidx k)).setLinkSt g k false st
  else (slotDrives g k).foldl (fun s d => if (s.drive d).link || d % 2 = 0 then s.drvLinkDown d st else s) s

/-- PGn_CTRL.EN of a slot is written (R298). -/
def State.slotEnable (s : State) (g k : Nat) (en : Bool) : State :=
  let r := s.group g
  if en = r.en.getLsbD k then s
  else if en then
    (if s.cfgErr g ≠ 0 then s
     else
       let st := if s.carriesPort g k then 1 else 0
       let old := s
       let s := (s.updGroup g fun x => { x with en := x.en ||| (1#2 <<< k) }).setLinkSt g k false st
       State.admFollow old (if r.gmode = 1 && r.qmode k = 3 then s.setLinkSt g k true st else s))
  else State.admFollow s ((s.slotDown g k 0).updGroup g fun x => { x with en := x.en &&& ~~~(1#2 <<< k) })

def execSlotEnable (g : GroupId) (k : Fin 2) (en : Bool) (s : State) : Res := .next (s.slotEnable g k en)

/-- PGn_CTRL.RETRAIN: the links of a slot that are up go through Recovery (R298). -/
def State.retrain (s : State) (g k : Nat) : State :=
  [false, true].foldl (fun s b => let st := ((s.group g).link k b).st; if st = 3 || (5 ≤ st && st ≤ 7) then
    (s.setLinkSt g k b 4).updGroup g fun x => x.setLink k b { x.link k b with retrain := true } else s) s

def execRetrain (g : GroupId) (k : Fin 2) (s : State) : Res := .next (s.retrain g k)

/-- PGn_CTRL.PERST of a downstream slot: its drives are held in reset, or released (R298). -/
def State.perstDown (s : State) (g k : Nat) (on : Bool) : State :=
  let s := s.updGroup g fun x => { x with perst := if on then x.perst ||| (1#2 <<< k) else x.perst &&& ~~~(1#2 <<< k) }
  if on && !(s.group g).dirUp k then s.slotDown g k (if (s.group g).en.getLsbD k then 1 else 0) else s

def execPerstDownstream (g : GroupId) (k : Fin 2) (on : Bool) (s : State) : Res := .next (s.perstDown g k on)

/-! ## Reference clocks (R291 to R294, R301) -/

/-- State of an input (false A, true B). -/
def Clk.inp (c : Clk) (i : Bool) : Nat := if i then c.b else c.a
def Clk.setInp (c : Clk) (i : Bool) (st : Nat) : Clk := if i then { c with b := st } else { c with a := st }

/-- Every link that is not down takes a state while the port clocks stop, or after they relock (R294). -/
def State.clockLinks (s : State) (stop : Bool) : State :=
  (List.range 16).foldl (fun s g => [(0, false), (0, true), (1, false), (1, true)].foldl (fun s x =>
    let st := ((s.group g).link x.1 x.2).st
    if stop then (if 2 ≤ st && st ≠ 10 then s.setLinkSt g x.1 x.2 10 else s) else if st = 10 then s.setLinkSt g x.1 x.2 4 else s) s) s

/-- A switch to input `t` begins: the port clocks stop (R292, R301). -/
def State.clkSwitch (s : State) (t : Bool) : State :=
  ({ s with clk := { s.clk with switching := true, force := false, target := t } }.clockLinks true).raise 25

/-- Both inputs have failed, or the selected one where the part may not switch: holdover and a fault. A switch in progress ends without one, and a parked
PRIMARY is applied (R292, R301). -/
def State.holdover (s : State) : State :=
  let c := s.clk
  let t := { s with clk := { c with holdover := true, switching := false, force := false, primary := if c.switching then c.primaryReq else c.primary } }.clockLinks true
  if !c.holdover then (t.faultEvent 0 0x31 0 0).raise 25 else if c.switching then t.raise 25 else t

/-- A switchback begins if the primary is GOOD, no switch runs and 1 s has passed since the last (R293). -/
def State.switchback (s : State) : State :=
  let c := s.clk
  if c.auto && !c.switching && !c.holdover && c.sel ≠ c.primary && c.inp c.primary = 3 && !c.limit then
    { s with clk := { c with limit := true } }.clkSwitch c.primary
  else s

/-- REFCLK_LOSS: the selected input becomes ABSENT, or OUT_OF_TOLERANCE: failover to the other input unless it too has failed, else holdover; a
switch to the other input that already runs goes on (R291, R292, R301). -/
def execRefclkLoss (oot : Bool) (s : State) : Res :=
  .next (
    let c := s.clk
    let s := { s with clk := c.setInp c.sel (b2n oot) }
    if c.switching && c.target ≠ c.sel then s
    else if c.auto && 2 ≤ c.inp (!c.sel) then s.clkSwitch (!c.sel)
    else s.holdover)

/-- REFCLK_STANDBY_LOSS: the input not in use fails; a switch to it goes back or ends in holdover (R291, R292). -/
def execRefclkStandbyLoss (oot : Bool) (s : State) : Res :=
  .next (
    let c := s.clk
    let s := { s with clk := c.setInp (!c.sel) (b2n oot) }
    if c.switching && c.target ≠ c.sel then (if 2 ≤ c.inp c.sel then s.clkSwitch c.sel else s.holdover) else s)

/-- REFCLK_QUALIFYING: edges return within tolerance on an input; in holdover the first such input is selected (R291, R292). -/
def execRefclkQualifying (b : Bool) (s : State) : Res :=
  .next (
    let c := s.clk
    if 2 ≤ c.inp b then s
    else
      let s := { s with clk := c.setInp b 2 }
      if c.holdover && !c.switching && (c.auto || b = c.sel) then s.clkSwitch b else s)

/-- REFCLK_QUALIFIED: an input has been in tolerance for 10 ms; the count of the primary restarts at the end of a switch (R291, R293). -/
def execRefclkQualified (b : Bool) (s : State) : Res :=
  .next (
    let c := s.clk
    if c.inp b ≠ 2 || (c.switching && b = c.primary) then s
    else { s with clk := c.setInp b 3 }.switchback)

/-- RELOCK_COMPLETE: the loops lock on the new input: the switch ends, links go to Recovery, and a parked PRIMARY is applied (R292, R294, R301). -/
def execRelockComplete (s : State) : Res :=
  .next (
    let c := s.clk
    if !c.switching then s
    else
      let s := { s with clk := { c with sel := c.target, switching := false, force := false, holdover := false, primary := c.primaryReq
                                        swcnt := if c.target ≠ c.sel then c.swcnt + 1 else c.swcnt } }
      ((s.clockLinks false).raise 25).switchback)

/-- CLK_CTRL.AUTO is set: an input that has not failed ends a holdover, or a switchback is due (R292, R293, R301). -/
def State.clkAuto (s : State) : State :=
  let c := s.clk
  if c.auto && c.holdover && !c.switching && 2 ≤ c.inp (!c.sel) then s.clkSwitch (!c.sel) else s.switchback

/-- CLK_CTRL.FORCE, which reads 1 while its switch runs (R11, R301). -/
def State.clkForce (s : State) : State :=
  let c := s.clk
  if c.switching || c.inp (!c.sel) ≠ 3 then s
  else let t := s.clkSwitch (!c.sel); { t with clk := { t.clk with force := true } }

def execClkForce (s : State) : Res := .next s.clkForce

/-- SWITCHBACK_LIMIT_EXPIRY: 1 s has passed since the last switchback began (R293). -/
def execSwitchbackLimitExpiry (s : State) : Res := .next { s with clk := { s.clk with limit := false } }.switchback

end Sys2Proof.Machine
end

