-- ==== Sys2Proof/Machine/Power.lean ====
section
/-!
DEFINITION. The power die: tile rails and the budget (R432 to R436), power domains (R429 to R431), tail drop and the thermal clip (R440,
R448 to R452), and the resets of the VIN domains (R453 to R455).
-/

namespace Sys2Proof.Machine

/-! ## Flushes (R254, R257, R271) -/

/-- Committed items of a queue, at most its capacity (R257). -/
def State.queueItems (s : State) (q : Nat) : Nat :=
  if q < 128 then (s.eng q).cmdq.length
  else if q < 256 then (s.eng (q - 128)).dcq.length
  else if q < 384 then (s.eng (q - 256)).moltq.length
  else if q < 512 then (s.eng (q - 384)).moltPost.length
  else if q < 1536 then (s.ctl (q - 512)).spill.length
  else if !(s.queue q).en then 0
  else if q < 1540 then min 4096 ((s.funcsOfPort (q - 1536)).map fun f => (s.ctl f).waitEng).sum
  else if q = 1540 then min 64 s.flt.events0.length else if q = 1541 then min 64 s.flt.events1.length
  else if q = 1542 then min 16 s.vault.events.length else 0

/-- The items of a queue are discarded in the block that owns them; what a fault source or the vault has not yet been able to commit stays with it
(R250, R254, R257; which of several controllers' completions stay with their engines is log 48). -/
def State.queueEmpty (s : State) (n : Nat) : State :=
  if n < 128 then s.updEng n fun g => { g with cmdq := [] }
  else if n < 256 then s.updEng (n - 128) fun g => Engine.dcqFill { g with dcq := [] } (s.queue n).en
  else if n < 384 then s.updEng (n - 256) fun g => { g with moltq := [] }
  else if n < 512 then s.updEng (n - 384) fun g => { g with moltPost := [] }
  else if n < 1536 then s.updCtl (n - 512) fun c => { c with spill := [] }
  else if !(s.queue n).en then s
  else if n < 1540 then
    ((s.funcsOfPort (n - 1536)).foldl (fun (r : State × Nat) f =>
      let w := ((r.1.ctl f).waitCpl.filter fun c => c.src.isSome).take r.2
      (w.foldl State.cplSent (r.1.updCtl f fun c => { c with waitCpl := w.foldl List.erase c.waitCpl }), r.2 - w.length)) (s, 4096)).1
  else if n = 1540 then { s with flt := { s.flt with events0 := s.flt.events0.drop 64 } }
  else if n = 1541 then { s with flt := { s.flt with events1 := s.flt.events1.drop 64 } }
  else s.updVault fun v => { v with events := v.events.drop 16 }

/-- QCn_CTRL.FLUSH: the queue is empty and every credit is back; FLUSHED is set if anything was discarded (R254). -/
def State.queueFlush (s : State) (n : Nat) : State :=
  let any := s.queueItems n ≠ 0
  (s.queueEmpty n).updQueue n fun q => { q with flushed := q.flushed || any, tailW := 0, midB := 0, headW := 0, midW := 0 }

/-- The spill, completion and fault queues with an end in a block that is about to lose power: a die fabric or a DRAM interface (R257, R271). -/
def State.queuesOf (s : State) (i : Nat) : List Nat :=
  if i = 32 || i = 33 then
    (s.funcs.filter fun f => s.funcQuad f / 2 = i - 32).map (512 + ·) ++ (([0, 1, 2, 3].filter fun u => s.portQuad u / 2 = i - 32).map (1536 + ·)) ++ [1508 + i]
  else if i = 34 || i = 35 then
    (s.funcs.filter fun f => let q := s.queue (512 + f); q.rsize ≠ 0 && (q.ring.getLsbD 0 = decide (i = 35))).map (512 + ·)
  else []

/-! ## Rails and charges (R432 to R436) -/

/-- A target as the regulator takes it: 550 to 900 mV in steps of 5 (R432). -/
def railNorm (v : Nat) : Nat := min 900 (max 550 v) / 5 * 5

/-- The charge of a voltage in units of 10 mW, interpolated between the listed points and rounded up (R435). -/
def chargeOf (mv : Nat) : Nat :=
  let seg := fun (a ca b cb : Nat) => ca + ((mv - a) * (cb - ca) + (b - a) - 1) / (b - a)
  if mv ≤ 550 then 70 else if mv ≤ 650 then seg 550 70 650 140 else if mv ≤ 750 then seg 650 140 750 240
  else if mv ≤ 850 then seg 750 240 850 370 else if mv ≤ 900 then seg 850 370 900 440 else 440

/-- The voltages that the guarantee and the charge are taken over: the target once settled, else the last settled voltage and every target
since (R434, R435). -/
def Rail.volts (r : Rail) : List Nat := if r.settled then [r.cur] else r.settledAt :: r.targets

/-- The rail is driven: its tile is on, or its switch-on has been granted. -/
def Rail.driven (r : Rail) : Bool := r.cur ≠ 0

/-- The charge of a rail (R435). -/
def Rail.charge (r : Rail) : Nat := if r.driven then (r.volts.map chargeOf).foldl max 0 else 0

/-- The lowest voltage that is promised (R434). -/
def Rail.low (r : Rail) : Nat := r.volts.foldl min 900

/-- PWR_TSTATt.GUAR for a tile that is on: the listed point of R111 that applies (R434, R438). -/
def guarOf (mv : Nat) : Nat := if 900 ≤ mv then 4 else if 850 ≤ mv then 3 else if 750 ≤ mv then 2 else if 650 ≤ mv then 1 else 0

/-- PWR_USED.USED (R435). -/
def Pwr.used (p : Pwr) : Nat := ((List.range 16).map fun t => (p.rail t).charge).sum

/-- The rail retargeted to `mv`: it leaves its settled voltage at once (R433). -/
def Rail.toward (r : Rail) (mv : Nat) : Rail :=
  if mv = r.cur then r
  else { r with cur := mv, settled := false, settledAt := if r.settled then r.cur else r.settledAt
                targets := (if r.settled then [] else r.targets) ++ [mv] }

/-- Where a rail stands now; a rail that slews is between the voltages of its path, at the value measured. -/
def Rail.present (r : Rail) (mv : Nat) : Nat := if r.settled then r.cur else min (r.volts.foldl max 0) (max r.low mv)

/-- A target would raise the charge of the rail (R436). -/
def Rail.raises (r : Rail) (mv : Nat) : Bool := r.charge < (r.toward mv).charge

/-- The rail that a granted switch-on starts: at the 0.55 V charge (R436). -/
def Rail.starting (r : Rail) : Rail := { r with cur := 550, settled := false, settledAt := 550, targets := [], held := none }

/-- The charge of tile `t` may become that of rail `r` (R436). -/
def Pwr.fits (p : Pwr) (t : Nat) (r : Rail) : Bool := p.used - (p.rail t).charge + r.charge ≤ p.budget

/-- The regulator of a tile goes to another target (R433). -/
def State.railGo (s : State) (t mv : Nat) : State :=
  let r := s.pwr.rail t
  if mv = r.cur then s.updPwr fun p => p.setRail t { r with held := none }
  else (s.updPwr fun p => p.setRail t { r.toward mv with held := none }).rate t

/-- Held raises that fit are granted in arrival order, each raising source RAIL (R436). -/
def grantHeld : Nat → State → State
  | 0, s => s
  | n + 1, s =>
    match s.pwr.heldq with
    | [] => s
    | t :: rest =>
      let r := s.pwr.rail t
      let next := if r.driven then r.toward (r.held.getD r.cur) else r.starting
      if s.pwr.fits t next then
        let s := { s with pwr := { s.pwr with heldq := rest } }
        let s := if r.driven then s.railGo t (r.held.getD r.cur) else s.updPwr fun p => p.setRail t r.starting
        grantHeld n (s.raise 150)
      else s

/-- A raise is held: the rail stays at its present voltage (R436). -/
def State.railHold (s : State) (t mv present : Nat) : State :=
  let s := s.railGo t ((s.pwr.rail t).present present)
  s.updPwr fun p => { p.setRail t { p.rail t with held := some mv } with heldq := p.heldq ++ [t] }

/-- A new target reaches the regulator of tile `t`: through the budget when it raises the charge (R433, R436). -/
def State.railWant (s : State) (t mv present : Nat) : State :=
  let r := s.pwr.rail t
  if !r.driven || !s.tileOn t then s
  else if r.held.isSome then
    if r.raises mv then grantHeld 16 (s.updPwr fun p => p.setRail t { r with held := some mv })
    else grantHeld 16 ((s.updPwr fun p => { p with heldq := p.heldq.erase t }).railGo t mv)
  else if r.raises mv && !s.pwr.fits t (r.toward mv) then s.railHold t mv present
  else grantHeld 16 (s.railGo t mv)

/-- A tile's switch-on asks for the 0.55 V charge (R436). -/
def State.railOn (s : State) (t : Nat) : State :=
  let r := s.pwr.rail t
  if r.driven || r.held.isSome then s
  else if s.pwr.fits t r.starting then s.updPwr fun p => p.setRail t r.starting
  else s.updPwr fun p => { p.setRail t { r with held := some 550 } with heldq := p.heldq ++ [t] }

/-- A tile's rail is switched off, with its held request (R435, R436). -/
def State.railOff (s : State) (t : Nat) : State :=
  grantHeld 16 (s.updPwr fun p =>
    { p.setRail t { p.rail t with cur := 0, vout := 0, settled := false, settledAt := 0, targets := [], held := none } with heldq := p.heldq.erase t })

/-- PWR_TTGTt written: during an override only the shadow takes the value (R433, R436, R490). -/
def State.ttgt (s : State) (t v present : Nat) : State :=
  let r := s.pwr.rail t
  if s.pwr.overridden then s.updPwr fun p => p.setRail t { r with req := v }
  else (s.updPwr fun p => p.setRail t { r with target := v, req := v }).railWant t (railNorm v) present

def execRailTargetWrite (t : TileId) (target mv : Fin 1024) (s : State) : Res := .next (s.ttgt t target mv)

/-- RAIL_SETTLED: a slewing rail settles, between its target and 15 mV above; its charge and guarantee become those of the target, and held raises
may fit (R432, R434 to R436). -/
def execRailSettled (t : TileId) (mv : Fin 1024) (s : State) : Res :=
  .next (
    let r := s.pwr.rail t
    if !s.tileOn t || r.settled then s
    else
      grantHeld 16 ((s.updPwr fun p => p.setRail t { r with settled := true, settledAt := r.cur, targets := [], vout := min (r.cur + 15) (max r.cur mv) }).raise 150))

/-- BUDGET_WRITE: no rail is lowered; held raises are granted if they fit now (R436). -/
def execBudgetWrite (value : Fin 8192) (s : State) : Res := .next (grantHeld 16 (s.updPwr fun p => { p with budget := value }))

/-! ## Domains (R429 to R431) -/

/-- Every engine of the tile is HALTED (R93). -/
def State.tileHalted (s : State) (t : Nat) : Bool := (enginesOf t).all fun e => (s.eng e).run = 2

/-- A request for domain `i` obeys the rules of R430. -/
def State.domAllowed (s : State) (i : Nat) (on : Bool) : Bool :=
  if i < 16 then (if on then s.domOn (32 + dieOfTile i) else s.tileHalted i)
  else if i < 32 then (if on then s.domOn (32 + (i - 16) / 8) else (s.group (i - 16)).en = 0)
  else if i < 34 then on || (List.range 8).all fun k => !s.domOn (8 * (i - 32) + k) && !s.domOn (16 + 8 * (i - 32) + k)
  else if i < 36 then on || !s.domOn (i - 2)
  else i = 37

/-- A request for one domain: discarded with ORDERERR, or taken. A tile drains its write-back before it goes off, and asks the budget to come on
(R165, R430, R436). -/
def State.domRequest (s : State) (i : Nat) (on : Bool) : State :=
  if s.pwr.domreq.getLsbD i = on then s
  else if !s.domAllowed i on then s.updPwr fun p => { p with orderErr := true }
  else
    let s := s.updPwr fun p => { p with domreq := if on then p.domreq ||| (1#40 <<< i) else p.domreq &&& ~~~(1#40 <<< i) }
    if 16 ≤ i then s
    else if on then (if s.tileOn i then s else s.railOn i)
    else if s.tileOn i then s.moveDeltas i false
    else s.railOff i

/-- PWR_DOMREQ0 and PWR_DOMREQ1 written; bits 4, 6 and 7 of the second are read-only. Tiles switched on together ask for
budget in ascending order from the rotating start (R18, R430, R436, R438). -/
def State.domWrite (s : State) (hi : Bool) (v : Word) : State :=
  if hi then s.each [32, 33, 34, 35, 37] fun s i => s.domRequest i (v.getLsbD (i - 32))
  else
    let start := s.pwr.start
    let on := (List.range 16).any fun i => v.getLsbD i && !s.pwr.domreq.getLsbD i
    let s := s.each ((List.range 16).map fun i => (start + i) % 16) fun s i => s.domRequest i (v.getLsbD i)
    let s := if on then s.updPwr fun p => { p with start := (start + 1) % 16 } else s
    s.each ((List.range 16).map (· + 16)) fun s i => s.domRequest i (v.getLsbD i)

def execDomreqWrite (hi : Bool) (value : Word) (s : State) : Res := .next (s.domWrite hi value)

/-- The erases in progress no longer wait for a tile that is off: it holds no key (R179). -/
def State.eraseDrop (s : State) (t : Nat) : State :=
  let l := s.erases.map fun x => { x with waiting := x.waiting.filter (· ≠ t) }
  let done := l.filter fun x => x.waiting.isEmpty && !x.lined
  let s := { s with erases := l.filter fun x => !(x.waiting.isEmpty && !x.lined) }
  done.foldl (fun s x => eraseFinish (x.rest.length + 1) s x) s

/-- DOMSTAT bit of a domain. -/
def State.setDom (s : State) (i : Nat) (on : Bool) : State :=
  s.updPwr fun p => { p with domon := if on then p.domon ||| (1#40 <<< i) else p.domon &&& ~~~(1#40 <<< i) }

/-- A tile goes off: molt windows leave its engines, its state is lost, and its rail carries no charge (R36, R206, R271, R431, R435). -/
def State.tileDown (s : State) (t : Nat) : State :=
  let s := s.each (enginesOf t) State.moltEngineLost
  let s := s.each (enginesOf t) fun s e => s.each [0, 128, 256, 384] fun s b => s.queueFlush (b + e)
  let s := s.each (enginesOf t) fun s e => s.setEng e Engine.init
  ((((s.setTile t Tile.init).setDom t false).eraseDrop t).railOff t).scaleFollow

/-- A tile comes on at 0.55 V, its engines held halted and about to test themselves, and asks for its TARGET (R139, R431, R436). -/
def State.tileUp (s : State) (t : Nat) : State :=
  let s := s.each (enginesOf t) fun s e => s.setEng e Engine.init
  let s := (s.setTile t Tile.init).setDom t true
  let s := s.updPwr fun p => p.setRail t { p.rail t with vout := 550, settled := true, settledAt := 550, targets := [] }
  (s.railWant t (railNorm (s.pwr.rail t).target) 550).scaleFollow

/-- Vendor warden firmware sets up a tile that has come on: the place of the keyslot table, and its queues on the ACTIVE drives, whose submission
rings were in its scratch (R142, R167, R308; log 44). -/
def State.tileSetUp (s : State) (t : Nat) : State :=
  if !s.fwUp then s
  else
    let s := match s.boot.tableBase with
      | some b => s.updTile t fun x => { x with ksbase := BitVec.ofNat 32 (256 + b / 2 ^ 27) }
      | none => s
    (List.range 64).foldl (fun s d => if s.drvActive d then ((s.drvReserve d t).map fun s => s.drvCreate d t).getD s else s) s

/-- A port group goes off: its links are DISABLED, downstream PERST# asserted, and its registers lost but for MODE and DCTO, which the warden
writes again (R271, R429, log 40). -/
def State.groupDown (s : State) (g : Nat) : State :=
  let x := s.group g
  let s := (slotDrives g 0 ++ slotDrives g 1).foldl (fun s d => if (s.drive d).link then s.drvLinkDown d 0 else s) s
  let s := ([0, 1, 2, 3].filter fun u => match s.upSlot u with | some p => p.1 = g | none => false).foldl (fun s u => s.queueFlush (1536 + u)) s
  let s := s.setGroup g { Group.init with mode := x.mode, dcto := x.dcto }
  s.setDom (16 + g) false

/-- PGEN: the slots enabled at boot, bit 2g + k; factory defaults enable slot 0 of PG0 (R468, R469). -/
def State.pgen (s : State) : Nat := if s.cfgDefaulted then 1 else leAt s.boot.cfg 76 4

/-- Vendor warden firmware sets up a group that has come on: the slots of PGEN are enabled, and the configuration space of an upstream port with the
subsystem IDs of GLB_PCISUB (R456, R468, R486). -/
def State.groupSetUp (s : State) (g : Nat) : State :=
  if !s.fwUp then s
  else [0, 1].foldl (fun s k =>
    if !bitOf s.pgen (2 * g + k) || !s.carriesPort g k then s
    else
      let s := s.slotEnable g k true
      if (s.group g).dirUp k then s.updPort ((s.group g).upidx k) fun u => { u with ready := true, subsys := s.glb.pcisub } else s) s

/-- A domain other than a tile or group goes off (R271, R429): DRAM content is lost; the pins of the PIO domain float, and its front end keeps PINCFG and
every IND_ setting (R409). -/
def State.blockDown (s : State) (i : Nat) : State :=
  let s := (s.queuesOf i).foldl State.queueFlush s
  let s := s.setDom i false
  if i = 34 then { s with stackA := [], boot := { s.boot with tableBase := none, touched := [] } }
  else if i = 35 then { s with stackB := [], boot := { s.boot with touched := s.boot.touched.filter fun x => x.1 < 2 ^ 32 } }
  else if i = 37 then { s with pio := { Pio.init with sinks := s.pio.sinks, chg := s.pio.chg, pins := Tbl.mapv Pin.init s.pio.pins fun p => { p with out := false, oe := false } } }
  else s

/-- A domain that has been requested off or on finishes switching; a tile only once its write-back is drained, or its budget granted (R431). -/
def State.domDone (s : State) (i : Nat) : State :=
  let want := s.pwr.domreq.getLsbD i
  if want = s.domOn i then s
  else if i < 16 then
    if want then (if (s.pwr.rail i).driven then (s.tileUp i).tileSetUp i else s)
    else if s.noCounts i then s.tileDown i else s
  else if i < 32 then (if want then (s.setDom i true).groupSetUp (i - 16) else s.groupDown (i - 16))
  else if want then s.setDom i true else s.blockDown i

def execDomainSwitchComplete (i : Fin 40) (s : State) : Res := .next (s.domDone i)

/-! ## Resets of the VIN domains (R453 to R455) -/

/-- Every VIN domain is at its reset values. The vault, the SPI NOR, what the board drives and what is measured stay; each write counter restarts
at its stored ceiling (R143, R453). -/
def State.vinReset (s : State) : State :=
  { State.reset with
    vtime := s.vtime, vacc := s.vacc, free := s.free, vault := { s.vault with events := [], line := [] }, versions := s.boot.durable.counters, out := s.out, pending := s.pending
    pwr := { Pwr.init with vin := s.pwr.vin, vhold := s.pwr.vhold, iin := s.pwr.iin, vinOn := s.pwr.vinOn, brumated := s.pwr.brumated
                           thermalOff := s.pwr.thermalOff }
    boot := { Boot.init with nor := s.boot.nor, durable := s.boot.durable, slotB := s.boot.slotB, fwState := s.boot.fwState
                             capValid := s.boot.capValid, capRead := s.boot.capRead }
    glb := { Glb.init with tj := s.glb.tj }
    pio := { Pio.init with pins := Tbl.mapv Pin.init s.pio.pins fun p => { Pin.init with ext := p.ext } }
    ports := Tbl.mapv UpPort.init s.ports fun p => { UpPort.init with perst := p.perst, clkreqHigh := p.clkreqHigh } }

/-- The first rows of the power-up sequence: the domains that PWR_DOMREQ1 requests from reset are on, and the warden is released at its boot ROM;
GLB_RSTCAUSE names the cause by its bit (R455, R485). A held warden is released too: the sequence is that of a part reset (R342). -/
def State.bringUp (s : State) (cause : Nat) : State :=
  let s := s.updPwr fun p => { p with vinOn := true, brumated := false, thermalOff := false, domon := 0xFF00000000 }
  let s := s.updVault fun v => { v with full := true, wfailed := false, testOpen := false, restarts := 0, rwin := [], firstCroak := true, lastSeq := 0, nohold := s.pwr.vhold < 4500 }
  { s with glb := { s.glb with rstcause := BitVec.ofNat 32 (2 ^ cause) }, warden := { s.warden with up := true } }

/-- A part reset: every VIN domain off, the custody regulator left in FULL, and the power-up sequence from its first step (R453, R454). -/
def State.partReset (s : State) (cause : Nat) : State := s.vinReset.bringUp cause

/-- PART_RST_PIN: PART_RST_N has been held low and is released; it has no effect while VIN is unqualified (R453). -/
def execPartRstPin (s : State) : Res := .next (if s.pwr.vinOn then s.partReset 1 else s)

/-- PARTRST: GLB_CTRL.PARTRST with the key (R485). -/
def State.partrst (s : State) (key : Nat) : State := if s.pwr.vinOn && key = 0x5A17 then s.partReset 2 else s
def execPartrst (key : BitVec 16) (s : State) : Res := .next (s.partrst key.toNat)

/-- VIN, as last measured, has been below 6.0 V, or below 5.0 V in BRUMATION, so that its rise is a fresh power-up (R446, R453). -/
def State.vinFell (s : State) : Bool := s.pwr.vin < (if s.pwr.brumated then 5000 else 6000)

/-- POWER_UP: VIN has risen and stayed at or above 6.0 V for 10 ms. The return of VIN is a wake record, and the cause is the shutdown, BRUMATION, or none
(R382, R427, R446, R455, R485). -/
def execPowerUp (mv : Fin 40001) (iin : BitVec 16) (s : State) : Res :=
  .next (
    let fell := s.vinFell
    let s := s.updPwr fun p => { p with vin := mv, iin := iin.toNat }
    if s.pwr.vinOn || mv.val < 6000 || !fell then s
    else
      let cause := if s.pwr.thermalOff then 4 else if s.pwr.brumated then 3 else 0
      ((s.vinReset.bringUp cause).wakeRecord 8 0))

/-- The stage 5 sequence: every VIN domain goes off, the custody regulator moves to LOW, and the vault records the deepest stage and VTIME (R378,
R446, R450). -/
def State.stage5 (s : State) (thermal : Bool) : State :=
  if !s.pwr.vinOn then s
  else
    let deepest := s.pwr.deepest
    let s := s.updPwr fun p => { p with vinOn := false, brumated := true, thermalOff := thermal }
    s.vinReset.updVault fun v =>
      { v.vinLoss with full := false, deepest := deepest, offTime := s.vtime }

/-- BRUMATE: the power die's part of BRUMATION entry (R445). -/
def execBrumate (s : State) : Res := .next (s.stage5 false)

/-! ## Tail drop and the clip (R440, R448 to R452) -/

/-- The override begins: every TARGET is the lower of itself and 750, every SCALEk that of stage 2, in BASKING those of tiles that are on alone; warden
firmware tells the tenants of a tile whose scale falls below 0xFF (R238, R448, R452, R490, R509). -/
def State.overrideBegin (s : State) : State :=
  let s := s.each [0, 1, 2, 3] fun s q => s.updQuad q fun x => { x with scaleReq := x.scale }
  let s := s.each (List.range 16) fun s t =>
    let r := s.pwr.rail t
    let low := if s.overrides t then min r.target 750 else r.target
    (s.updPwr fun p => p.setRail t { r with req := r.target, target := low }).railWant t (railNorm low) 0
  s.each ((List.range 16).filter s.overrides) fun s t => s.scaleTile t true

/-- The override ends: every shadow is applied, raises through the budget in tile order from a rotating start (R436, R449, R490). -/
def State.overrideEnd (s : State) (volts : List Nat) : State :=
  let start := s.pwr.start
  let s := s.each ((List.range 16).map fun i => (start + i) % 16) fun s t =>
    let r := s.pwr.rail t
    (s.updPwr fun p => p.setRail t { r with target := r.req }).railWant t (railNorm r.req) (volts.getD t 0)
  let s := s.updPwr fun p => { p with start := (start + 1) % 16 }
  s.each (List.range 16) fun s t => s.setScale t (fld (s.quad (quadOfTile t)).scaleReq.toNat (8 * (t % 4) + 7) (8 * (t % 4)))

/-- A change of stage or clip, with the override's beginning or end. -/
def State.pwrChange (s : State) (f : Pwr → Pwr) (volts : List Nat) : State :=
  let was := s.pwr.overridden
  let s := s.updPwr f
  if s.pwr.overridden && !was then s.overrideBegin else if !s.pwr.overridden && was then s.overrideEnd volts else s

/-- VIN below which stage `k` is entered, and at or above which it is left, in mV (R448). -/
def stageEnter (k : Nat) : Nat := 6000 - 200 * k
def stageLeave (k : Nat) : Nat := 6150 - 200 * k

/-- The drives of a die that hold an extent of a live namespace, with the drive namespace (R448). -/
def State.extentDrives (s : State) (die : Nat) : List (Nat × Nat) :=
  ((s.nss.filter fun p => p.2.valid).flatMap fun p => p.2.extents.map fun x => (s.extDrive x, s.extNsid x)).eraseDups.filter fun p =>
    dieOfDrive p.1 = die && s.drvActive p.1

/-- An engine issues a Flush of its own to a drive namespace, in a slot that it claims; it issues none while it runs no firmware or has no slot or
queue entry free (R448). -/
def State.ownFlush (s : State) (e d nsid : Nat) : State :=
  if !s.fwRuns e || !(s.tile (tileOf e)).sqRoom d then s
  else
    let r := s.slotGet e
    if r.1 = 0 then s
    else
      let k := fld r.1.toNat 8 0
      let s := r.2.updEng e fun g => g.setSlot k { g.slot k with started := true }
      s.drvIssue e k d { opc := 0, dnsid := BitVec.ofNat 32 nsid, dlba := 0, nlb := 0, fua := false, len := 0, mofs := none, list := none }

/-- Warden firmware at stage 3 rings E0 and E64, which issue Flush to every namespace with an extent on each ACTIVE drive of their die (R448). -/
def State.stage3Flush (s : State) : State :=
  if !s.fwUp then s
  else
    let s := s.each [0, 64] fun s e => if s.engOn e then s.updEng e fun g => { g with wdbCnt := g.wdbCnt + 1 } else s
    s.each [0, 1] fun s die => (s.extentDrives die).foldl (fun s p => s.ownFlush (64 * die) p.1 p.2) s

/-- The four words of a fault ledger entry as bytes (R324). -/
def FltEntry.bytes (x : FltEntry) : List Byte := [x.w0, x.w1, x.w2, x.w3].flatMap fun w => leBytes 4 w.toNat

/-- Warden firmware at stage 4 writes the retained-ledger warden area: the fault ledger first, then flush results and stage timeline, whose form the
spec does not give (R448, log 42). -/
def State.wardenArea (s : State) : State :=
  if !s.fwUp then s
  else
    let f := s.freshBytes 64
    let b := (List.range 16).flatMap (fun i => (Tbl.get FltEntry.init s.flt.entries i).bytes) ++ f.1
    f.2.updVault fun v => { v with warea := Memory.put v.warea 0 b }

/-- Stage `k` (1 to 4) is entered (R206, R448). -/
def State.stageIn (s : State) (k : Nat) : State :=
  let s := s.pwrChange (fun p => { p with stage := k, deepest := max p.deepest k
                                          entries := if k = 1 then satAdd p.entries 1 else p.entries }) []
  let s := s.raise 149
  let s := s.moltsCheck
  let s := if k = 3 then (s.each s.tilesOn fun s t => s.moveDeltas t false).stage3Flush else s
  if k = 4 then s.wardenArea else s

/-- TAIL_DROP_ENTRY: VIN has stayed below the threshold of the next stage for 20 µs (R448 to R450). -/
def execTailDropEntry (mv : Fin 40001) (iin : BitVec 16) (s : State) : Res :=
  .next (
    let s := s.updPwr fun p => { p with vin := mv, iin := iin.toNat }
    let k := s.pwr.stage + 1
    if !s.pwr.vinOn || stageEnter k ≤ mv.val then s
    else if k = 5 then (s.updPwr fun p => { p with stage := 5, deepest := 5 }).stage5 false
    else s.stageIn k)

/-- TAIL_DROP_EXIT: VIN has stayed at or above the leave value of the stage in force for 1 ms (R449). `volts` are the rails' present voltages. -/
def execTailDropExit (mv : Fin 40001) (iin : BitVec 16) (volts : List Nat) (s : State) : Res :=
  .next (
    let s := s.updPwr fun p => { p with vin := mv, iin := iin.toNat }
    let k := s.pwr.stage
    if !s.pwr.vinOn || k = 0 || mv.val < stageLeave k then s
    else
      let s := (s.pwrChange (fun p => { p with stage := k - 1 }) volts).raise 149
      let s := if k = 3 then { s with ctls := Tbl.mapv Ctl.init s.ctls fun c => { c with tdRefused := false } } else s
      if k = 1 then s.moltsCheck else s)

/-- VIN_COLLAPSE: VIN has been below 4.6 V for 2 µs: stage 5 begins at once (R451). -/
def execVinCollapse (mv : Fin 40001) (iin : BitVec 16) (s : State) : Res :=
  .next (
    let s := s.updPwr fun p => { p with vin := mv, iin := iin.toNat }
    if s.pwr.vinOn && mv.val < 4600 then (s.updPwr fun p => { p with stage := 5, deepest := 5 }).stage5 false else s)

/-- A Tj reading as a signed number of degrees. -/
def degrees (tj : BitVec 8) : Int := tj.toInt

/-- A temperature threshold that a controller's host has set for the composite temperature: over (0) or under (1), in kelvins. A host that has set none has
none (log 102). -/
def Ctl.tempTh (c : Ctl) (under : Nat) : Option Nat :=
  let w := Tbl.get 0 c.feats (4 + 256 * (16 * under + 1))
  if w.getLsbD 31 then some (fld w.toNat 15 0) else none

/-- The composite temperature stands at or beyond a threshold: bit 1 of the SMART critical warning (R216). -/
def Ctl.tempWarn (c : Ctl) (tj : BitVec 8) : Bool :=
  let k := (degrees tj + 273).toNat
  (match c.tempTh 0 with | some x => decide (x ≤ k) | none => false) || (match c.tempTh 1 with | some x => decide (k ≤ x) | none => false)

/-- Warden firmware posts a SMART / Health event to a controller whose temperature warning has come up, where its host asked for it (R216; NVMe Base 2.0,
log 102). -/
def State.tempEvent (s : State) (f : Nat) (was : Bool) : State :=
  if !was && (s.ctl f).tempWarn s.glb.tj && bitOf (Tbl.get 0 (s.ctl f).feats 0x0B).toNat 1 && s.fwUp then s.asyncEvent f 0x00020101 else s

/-- GLB_THERM takes a reading: HOT is set at TRIP and cleared below TRIP - HYST, and a change raises THERM; the hosts' thresholds see the reading too
(R216, R485, R487). -/
def State.therm (s : State) (tj : BitVec 8) : State :=
  let g := s.glb
  let hot := if (g.trip.toNat : Int) ≤ degrees tj then true else if degrees tj < (g.trip.toNat : Int) - g.hyst.toNat then false else g.hot
  let s' := { s with glb := { g with tj := tj, hot := hot } }
  let s' := s.funcs.foldl (fun s' f => s'.tempEvent f ((s.ctl f).tempWarn g.tj)) s'
  if hot = g.hot then s' else s'.raise 148

def execThermThreshold (tj : BitVec 8) (s : State) : Res := .next (if s.domOn 38 then s.therm tj else s)

/-- THERMAL_CLIP: a monitor has read 110 °C or more for 100 µs (R440). -/
def execThermalClip (tj : BitVec 8) (s : State) : Res :=
  .next (if !s.domOn 38 || s.pwr.thermClip || degrees tj < 110 then s
         else ((s.therm tj).pwrChange (fun p => { p with thermClip := true }) []).raise 148)

/-- THERMAL_CLIP_END: every monitor has read below 100 °C for 10 ms (R440). -/
def execThermalClipEnd (tj : BitVec 8) (volts : List Nat) (s : State) : Res :=
  .next (if !s.domOn 38 || !s.pwr.thermClip || 100 ≤ degrees tj then s
         else ((s.therm tj).pwrChange (fun p => { p with thermClip := false }) volts).raise 148)

/-- THERMAL_SHUTDOWN: 120 °C for 100 µs acts as stage 5 (R440). -/
def execThermalShutdown (tj : BitVec 8) (s : State) : Res :=
  .next (if degrees tj < 120 then s else { s with glb := { s.glb with tj := tj } }.stage5 true)

/-- TDSTAT_CLR (R438). -/
def State.tdClr (s : State) : State := s.updPwr fun p => { p with deepest := p.stage }
def execTdstatClr (s : State) : Res := .next s.tdClr

/-- DRAM_SELF_REFRESH: a channel that is idle enters power-down (1) or, with SREN or in BASKING, self-refresh (2); a request wakes it (0) (R439). -/
def execDramSelfRefresh (ch : Fin 16) (mode : Fin 3) (s : State) : Res :=
  .next (
    let m := 1#16 <<< ch.val
    if !s.domOn (34 + ch.val / 8) then s
    else if mode = 0 then s.updPwr fun p => { p with selfRef := p.selfRef &&& ~~~m, pdown := p.pdown &&& ~~~m }
    else if mode = 1 then s.updPwr fun p => { p with pdown := p.pdown ||| m }
    else if s.pwr.sren || s.pwr.mode = 1 then s.updPwr fun p => { p with selfRef := p.selfRef ||| m, pdown := p.pdown &&& ~~~m }
    else s)

end Sys2Proof.Machine
end

