-- ==== Sys2Proof/Machine/Peek.lean ====
section
/-!
DEFINITION. What every register of the part reads as, block by block in the warden's address map (R478), before any effect of the read
itself: latched halves (R9) and reads that take something stand in Regs.lean.
-/

namespace Sys2Proof.Machine

/-- A word made of fields, each with its lowest bit. -/
def fields (l : List (Nat × Nat)) : Word := BitVec.ofNat 32 ((l.map fun p => p.2 * 2 ^ p.1).sum)

/-! ## Engines (R87 to R93, R110, R130 to R138, R226, R227) -/

/-- The tag of the command queue head. -/
def Engine.cmdTag (g : Engine) : Word :=
  match g.cmdq.head? with
  | some k => let x := g.slot k; fields [(31, 1), (28, x.cls), (16, k), (0, if x.cls = 4 then 0 else x.nsx)]
  | none => 0

/-- ENGn_ registers by offset. -/
def State.engPeek (s : State) (e o : Nat) : Word :=
  let g := s.eng e
  let head := g.cmdq.head?.map g.slot
  match o with
  | 0x000 => s.eventWord e
  | 0x004 => g.even.zeroExtend 32
  | 0x008 => g.xferCnt.zeroExtend 32
  | 0x00C => g.xferAck.zeroExtend 32
  | 0x010 => g.wdbCnt.zeroExtend 32
  | 0x014 => g.wdbAck.zeroExtend 32
  | 0x018 => g.dlLo
  | 0x01C => fields [(31, b2n g.dlArm), (0, fld g.deadline.toNat 62 32)]
  | 0x020 => fields [(0, b2n g.halt)]
  | 0x024 => fields [(8, g.hcause), (0, if g.run = 0 && g.proc.waiting then 1 else g.run)]
  | 0x028 => g.haltpc
  | 0x02C => fields [(16, g.ipar.toNat), (0, g.dsbe.toNat)]
  | 0x128 => fields [(8, g.dmSlot), (0, g.dmResult)]
  | 0x12C => g.dmDone.headD 0
  | 0x130 => fields [(0, g.relSlot)]
  | 0x134 => fields [(31, b2n g.cuFault), (30, b2n g.cuTesting), (16, g.cuLast), (8, b2n (g.refs 0)), (9, b2n (g.refs 1)), (10, b2n (g.refs 2))
                     , (11, b2n (g.refs 3)), (0, (g.ctx 0).st), (2, (g.ctx 1).st), (4, (g.ctx 2).st), (6, (g.ctx 3).st)]
  | 0x138 => fields [(0, b2n (g.cuTesting && g.cuPeriodic))]
  | 0x140 => g.cmdTag
  | 0x144 => match head with | some x => fields [(16, x.sqid), (0, x.func)] | none => 0
  | 0x14C => g.cmdDefer
  | 0x190 => g.cplDw0
  | 0x194 => g.cplPost
  | 0x19C => g.slotCls
  | 0x1A0 => match g.dcq.head? with | some d => fields [(31, 1), (16, d.dport), (0, d.slot)] | none => 0
  | 0x1A8 => fields [(16, g.errSlot), (1, b2n g.errCls), (0, b2n g.errDef)]
  | 0x1C0 => match g.moltq.head? with | some m => fields [(31, 1), (28, m.1), (0, m.2)] | none => 0
  | 0x1C8 => g.moltFpLo
  | 0x1CC => g.moltFpHi
  | 0x1D0 => g.moltPostR
  | 0x1D8 => g.spReq
  | 0x1E0 => g.spRet
  | _ =>
    if 0x040 ≤ o && o < 0x050 then Tbl.get 0 g.dwin ((o - 0x40) / 4)
    else if 0x100 ≤ o && o ≤ 0x120 then g.stg o
    else if 0x150 ≤ o && o < 0x190 then (match head with | some x => x.sqe.getD ((o - 0x150) / 4) 0 | none => 0)
    else if 0x1B0 ≤ o && o < 0x1C0 then (match g.dcq.head? with | some d => d.words.getD ((o - 0x1B0) / 4) 0 | none => 0)
    else 0

/-! ## Tiles (R166 to R172, R311) -/

def State.tilePeek (s : State) (t o : Nat) : Word :=
  let x := s.tile t
  match o with
  | 0x000 => x.ksbase
  | 0x004 => fields [(4, x.lowwater), (0, b2n x.wbFlush)]
  | 0x008 => fields [(26, x.wb.length), (16, x.pinned), (10, x.waitq.length), (0, x.freeCount)]
  | 0x00C => fields [(31, b2n x.purgeGo), (30, b2n x.purgeOvf), (28, x.purgeScope), (0, x.purgeKey)]
  | 0x010 => fields [(31, b2n x.pinGo), (30, b2n x.pinOp), (24, x.pinResult), (20, x.pinGen), (0, x.pinSlot)]
  | 0x014 => fields [(8, x.errSlot), (2, b2n x.errUlimit), (1, b2n x.errDram), (0, b2n x.errUnwrap)]
  | 0x018 => fields [(10, x.spq.length), (0, 512 - x.spUsed.length)]
  | 0x020 => x.kcHit
  | 0x024 => x.kcMiss
  | 0x028 => x.kcWait
  | 0x02C => x.wbAged
  | 0x040 => x.dering
  | _ => 0

/-! ## Dispatchers (R230, R231) -/

/-- QDn_ registers by offset. -/
def State.quadPeek (s : State) (n o : Nat) : Word :=
  let q := s.quad n
  if 0x1000 ≤ o && o < 0x1800 then
    let g := q.gate ((o - 0x1000) / 0x20)
    match o % 0x20 with
    | 0x00 => fields [(31, b2n g.en), (0, g.nsx)]
    | 0x04 => fields [(29, b2n g.phase), (28, b2n g.closed), (27, b2n g.drained), (26, b2n g.err), (0, g.held.length)]
    | 0x08 => g.loR.truncate 32
    | 0x0C => (g.loR >>> 32).truncate 32
    | 0x10 => g.hiR.truncate 32
    | 0x14 => (g.hiR >>> 32).truncate 32
    | 0x18 => fields [(16, g.cnt1), (0, g.cnt0)]
    | _ => 0
  else
    match o with
    | 0x00 => fields [(31, b2n q.en), (0, q.elimit)]
    | 0x04 => fields [(23, q.heldCount), (0, ((s.funcsOf n).map fun f => (s.ctl f).spill.length).sum)]
    | 0x08 => q.scale
    | 0x0C => if s.pwr.overridden then q.scaleReq else q.scale
    | 0x10 => fields [(0, q.admFunc)]
    | 0x14 => q.admw0
    | 0x18 => q.admw1
    | 0x1C => fields [(0, q.admSpill)]
    | _ => 0

/-! ## Queues (R257, R258) -/

/-- The port engine of an upstream port has its clock: its group is enabled, and no reference switch runs (R272, R292). -/
def State.portClock (s : State) (u : Nat) : Bool :=
  match s.upSlot u with | some (g, k) => (s.group g).en.getLsbD k && !s.clk.switching && !s.clk.holdover | none => false

/-- QCn_ registers by offset. -/
def State.queuePeek (s : State) (n o : Nat) : Word :=
  let q := s.queue n
  let items := s.queueItems n
  match o with
  | 0x0 => fields [(30, b2n q.en)]
  | 0x4 => fields [(31, b2n q.flushed), (30, b2n q.ovf), (29, b2n q.merr)
                  , (28, b2n (items ≠ 0 && 1536 ≤ n && n < 1540 && !s.portClock (n - 1536))), (27, b2n (q.midB ≠ 0)), (16, q.rewinds.toNat)
                  , (0, min items 0xFFFF)]
  | 0x8 => if 512 ≤ n && n < 1536 then q.ring else 0
  | 0xC => if 512 ≤ n && n < 1536 then q.rsize else 0
  | _ => 0

/-! ## Drives and the fault ledger (R318, R324, R326) -/

/-- Counted violations of the last second (R318 WIN). -/
def State.violWin (s : State) (d : Nat) : Nat := min 0xFFFF ((s.drive d).vtimes.filter fun t => s.now - t < 100000000).length

/-- DRVn_ registers by offset. -/
def State.drivePeek (s : State) (n o : Nat) : Word :=
  let d := s.drive n
  match o with
  | 0x00 => fields [(8, d.reason), (0, d.st)]
  | 0x08 => d.cto
  | 0x0C => fields [(16, d.ncq), (0, d.depth)]
  | 0x10 => d.vcnt
  | 0x14 => fields [(31, b2n d.aen), (16, d.code), (0, s.violWin n)]
  | 0x18 => d.resets
  | 0x1C => fields [(0, if d.overridden then d.stReq else d.st)]
  | _ => 0

/-- STATE of a ledger entry. -/
def FltEntry.st (x : FltEntry) : Nat := fld x.w0.toNat 31 28
def State.fltEntry (s : State) (i : Nat) : FltEntry := Tbl.get FltEntry.init s.flt.entries i

/-- FLT_ registers by offset. -/
def State.fltPeek (s : State) (o : Nat) : Word :=
  if 0x100 ≤ o && o < 0x200 then
    let x := s.fltEntry ((o - 0x100) / 16)
    match o % 16 with | 0 => x.w0 | 4 => x.w1 | 8 => x.w2 | _ => x.w3
  else if o = 0 then fields [(16, s.flt.overwrites.toNat), (0, ((List.range 16).filter fun i => (s.fltEntry i).st = 2).length)]
  else if 0x10 ≤ o && o < 0x20 then
    fields ((List.range 32).map fun i => (i, b2n (Tbl.get false s.flt.qeng (32 * ((o - 0x10) / 4) + i))))
  else if o = 0x20 then s.flt.qtile.zeroExtend 32
  else if o = 0x24 then s.flt.qquad.zeroExtend 32
  else 0

/-! ## Port groups and clocks (R296 to R301) -/

/-- One half of PGn_LSTATk. -/
def Link.bits (l : Link) : Nat := b2n l.sepclk * 2 ^ 12 + l.width * 2 ^ 7 + l.rate * 2 ^ 4 + l.st

/-- The upstream port that a group carries, for PGn_IDESTAT (R300). -/
def State.groupUp (s : State) (g : Nat) : Option Nat := (List.range 4).find? fun u => match s.upSlot u with | some p => p.1 = g | none => false

/-- A retraining of a slot's links that PGn_CTRL.RETRAIN started still runs (R11, R298). -/
def Group.retraining (g : Group) (k : Nat) : Bool := (g.link k false).retrain || (g.link k true).retrain

/-- PGn_ registers by offset. -/
def State.groupPeek (s : State) (n o : Nat) : Word :=
  let g := s.group n
  match o with
  | 0x00 => g.mode
  | 0x04 => fields [(5, b2n (g.retraining 1)), (4, b2n (g.retraining 0)), (2, g.perst.toNat), (0, g.en.toNat)]
  | 0x08 => fields [(8, b2n g.modeErr), (0, s.cfgErr n)]
  | 0x10 => fields [(0, (g.link 0 false).bits), (16, if g.qmode 0 = 3 then (g.link 0 true).bits else 0)]
  | 0x14 => fields [(0, (g.link 1 false).bits), (16, if g.qmode 1 = 3 then (g.link 1 true).bits else 0)]
  | 0x20 => g.dcto
  | 0x60 => g.vlast
  | 0x80 => match s.groupUp n with
    | some u => fields ((List.range 8).map fun i => (2 * i, Tbl.get 0 (s.port u).ide i))
    | none => 0
  | _ => if 0x40 ≤ o && o < 0x60 then Tbl.get 0 g.vcnt ((o - 0x40) / 4) else 0

/-- CLK_ registers by offset. -/
def State.clkPeek (s : State) (o : Nat) : Word :=
  let c := s.clk
  match o with
  | 0x0 => fields [(2, b2n c.auto), (1, b2n c.force), (0, b2n c.primary)]
  | 0x4 => fields [(6, c.a), (4, c.b), (3, b2n c.sel), (2, b2n c.switching), (1, b2n c.holdover)]
  | 0x8 => c.swcnt
  | 0xC => fields [(0, b2n (if c.switching then c.primaryReq else c.primary))]
  | _ => 0

/-! ## Power die (R437, R438) -/

/-- PWR_ registers by offset. -/
def State.pwrPeek (s : State) (o : Nat) : Word :=
  let p := s.pwr
  if 0x100 ≤ o && o < 0x200 then
    let t := (o - 0x100) / 16
    let r := p.rail t
    match o % 16 with
    | 0x0 => fields [(0, r.target)]
    | 0x4 => fields [(0, if p.overridden then r.req else r.target)]
    | 0x8 => fields [(31, b2n (s.tileOn t && r.settled && r.cur = railNorm r.target)), (30, b2n r.held.isSome), (29, b2n p.overridden)
                    , (24, if s.tileOn t then guarOf r.low else 7), (0, r.vout)]
    | _ => fields [(0, r.charge)]
  else
    match o with
    | 0x00 => fields [(8, b2n p.sren), (0, p.state)]
    | 0x04 => fields [(31, b2n p.orderErr), (30, b2n p.thermClip)]
    | 0x08 => fields [(16, min p.iin 0xFFFF), (0, p.vin / 10)]
    | 0x0C => fields [(16, p.entries.toNat), (4, p.deepest), (0, p.stage)]
    | 0x10 => fields [(0, p.budget)]
    | 0x14 => fields ((0, p.used) :: (List.range 16).map fun t => (16 + t, b2n (p.rail t).held.isSome))
    | 0x20 => p.domreq.truncate 32
    | 0x24 => fields [(0, fld p.domreq.toNat 39 32)]
    | 0x30 => p.domon.truncate 32
    | 0x34 => fields [(0, fld p.domon.toNat 39 32)]
    | _ => 0

/-! ## Warden, interrupt controller, mailboxes (R337, R343, R333, R348, R406, R483) -/

/-- WRD_ registers by offset. -/
def State.wrdPeek (s : State) (o : Nat) : Word :=
  let w := s.warden
  match o with
  | 0x00 => w.croak
  | 0x04 => w.croakCfg
  | 0x08 => fields [(16, s.vault.restarts.toNat), (0, s.vault.lastSeq.toNat)]
  | 0x10 => fields [(31, b2n w.busValid), (30, b2n w.busWrite), (0, w.busCount.toNat)]
  | 0x14 => w.busAddr
  | 0x18 => fields [(16, w.iecc.toNat), (0, w.dsbe.toNat)]
  | _ =>
    if 0x40 ≤ o && o < 0x60 then Tbl.get 0 w.wdw ((o - 0x40) / 4)
    else if 0x100 ≤ o && o < 0x200 then
      let r := Tbl.get Region.init w.regions ((o - 0x100) / 16)
      match o % 16 with | 0 => r.base | 4 => r.limit | 8 => r.attr | _ => 0
    else 0

/-- ICU_ registers by offset. -/
def State.icuPeek (s : State) (o : Nat) : Word :=
  if o < 0x20 then s.icuPend (o / 4)
  else if o < 0x40 then s.icuEn ((o - 0x20) / 4)
  else if o = 0x40 then s.icuSum
  else if 0x80 ≤ o && o < 0xA0 then fields [(0, Tbl.get 0 s.warden.arrived ((o - 0x80) / 4) % 256)]
  else if 0x100 ≤ o && o < 0x180 then
    let t := Tbl.get Ticker.init s.warden.tickers ((o - 0x100) / 16)
    match o % 16 with | 0 => t.ctl | 4 => t.reload | 8 => t.expires.zeroExtend 32 | _ => 0
  else 0

/-- MBX_ registers by offset. -/
def State.mbxPeek (s : State) (o : Nat) : Word :=
  if o ≤ 0x80 then fields ((List.range 32).map fun i => (i, b2n (Tbl.get false s.warden.dbsum (8 * o + i))))
  else if 0x1000 ≤ o && o < 0x1000 + 1030 * 16 then
    let p := s.page ((o - 0x1000) / 16)
    match o % 16 with
    | 0x0 => fields [(31, b2n p.overrun), (0, p.st)]
    | 0x8 => p.dbTime.truncate 32
    | 0xC => (p.dbTime >>> 32).truncate 32
    | _ => 0
  else 0

/-! ## The vault proxy (R389 to R391) -/

/-- VLT_ registers by offset, but for VLT_LDATA. -/
def State.vltPeek (s : State) (o : Nat) : Word :=
  let v := s.vault
  match o with
  | 0x00 => fields [(11, b2n v.devkeyFail), (10, b2n v.ledgerLost), (9, b2n v.nohold), (8, b2n v.vholdLow), (7, b2n v.brownout), (6, b2n v.full)
                   , (5, b2n v.wfailed), (4, b2n v.shared), (3, b2n v.tamper), (0, v.epochst)]
  | 0x04 => fields [(16, v.floor), (0, v.epoch)]
  | 0x08 => fields [(20, v.first), (8, v.trips.toNat), (0, v.mask.toNat)]
  | 0x0C => fields [(8, s.sensArmed.toNat), (0, v.live.toNat)]
  | 0x10 => v.tcfg
  | 0x14 => fields [(16, min (s.pwr.vhold / 10) 0xFFFF), (8, v.brownouts.toNat)]
  | 0x40 => fields [(31, b2n v.wakeValid), (16, v.wakeMask.toNat), (8, v.wakeSrc)]
  | 0x44 => v.wakeTime
  | 0x50 => fields [(8, b2n v.regSlot), (2, b2n v.regOvf), (0, v.regBusy.toNat)]
  | 0x60 => fields [(0, v.cmd)]
  | 0x64 => fields [(31, b2n v.cmdBusy), (0, v.cmdResult)]
  | 0x70 => fields [(2, v.laddr)]
  | 0x80 => s.vtime.truncate 32
  | 0x84 => (s.vtime >>> 32).zeroExtend 32
  | _ =>
    if 0x20 ≤ o && o < 0x40 then Tbl.get 0 v.wakecfg ((o - 0x20) / 4)
    else if 0x1000 ≤ o && o < 0x1800 then BitVec.ofNat 32 (Memory.num v.arg (o - 0x1000) 4)
    else if 0x1800 ≤ o && o < 0x2000 then BitVec.ofNat 32 (Memory.num v.res (o - 0x1800) 4)
    else 0

/-! ## Tadpoles, pins and lamps (R403, R411, R413 to R416, R422) -/

def Pio.tad (p : Pio) (n : Nat) : Tadpole := Tbl.get Tadpole.init p.tads n
def Tadpole.ctx (t : Tadpole) (c : Nat) : TCtx := Tbl.get TCtx.init t.ctxs c
def Pio.pin (p : Pio) (n : Nat) : Pin := Tbl.get Pin.init p.pins n
def Pio.sink (p : Pio) (n : Nat) : Sink := Tbl.get Sink.init p.sinks n

/-- OWNER, TAD and CTX of a pin (R416). -/
def Pin.owner (x : Pin) : Nat := fld x.cfg.toNat 13 12
def Pin.tad (x : Pin) : Nat := fld x.cfg.toNat 11 9
def Pin.ctx (x : Pin) : Nat := fld x.cfg.toNat 8 6

/-- The level the part drives on a pin, if it drives one: an open-drain output of 1 is released (R411). -/
def Pio.drive (p : Pio) (n : Nat) : Option Bool :=
  let x := p.pin n
  let d := if x.owner = 1 then (if p.gpoe.getLsbD n then some (p.gpout.getLsbD n) else none)
           else if x.owner = 2 then (if x.oe then some x.out else none) else none
  if bitOf x.cfg.toNat 3 && d = some true then none else d

/-- The level at the ball: what the part drives, else what the board gives. -/
def Pio.level (p : Pio) (n : Nat) : Bool := match p.drive n with | some b => b | none => (p.pin n).ext

/-- PIO_ registers of a tadpole by offset. -/
def State.tadPeek (s : State) (n o : Nat) : Word :=
  let t := s.pio.tad n
  if 0x100 ≤ o && o < 0x200 then (Tbl.get 0 t.imem ((o - 0x100) / 4)).zeroExtend 32
  else if 0x400 ≤ o && o < 0x600 then
    let c := t.ctx ((o - 0x400) / 0x40)
    match o % 0x40 with
    | 0x00 => c.ccfg
    | 0x04 => c.cpin
    | 0x08 => c.cpin2
    | 0x0C => fields [(1, b2n c.stopping)]
    | 0x10 => fields [(29, c.st), (28, b2n c.stall), (24, c.fcause), (16, c.pc), (0, c.stalls.toNat)]
    | 0x1C => fields [(31, b2n c.ovf), (30, b2n c.unf), (8, c.rx.length), (0, 8 - c.tx.length)]
    | _ => 0
  else
    match o with
    | 0x00 => fields [(16, t.slots), (8, t.div)]
    | 0x04 => fields ([(31, b2n t.cfgErr), (30, b2n t.imErr), (29, b2n t.clk), (16, t.deny.toNat)] ++
                      (List.range 8).map fun c => (c, b2n ((t.ctx c).st = 1)))
    | 0x08 => BitVec.ofNat 32 t.srv
    | 0x0C => t.srven
    | 0x10 => t.flags.zeroExtend 32
    | _ => 0

/-- Levels of pins 32k to 32k + 31. -/
def Pio.levels (p : Pio) (k : Nat) : Word := fields ((List.range 32).map fun i => (i, b2n (p.level (32 * k + i))))

/-- PIO_ and IND_ registers by offset in their block. -/
def State.pioPeek (s : State) (o : Nat) : Word :=
  let p := s.pio
  if o < 0x4000 then s.tadPeek (o / 0x800) (o % 0x800)
  else if 0x4100 ≤ o && o < 0x4200 then (p.pin ((o - 0x4100) / 4)).cfg
  else if 0x8000 ≤ o && o < 0x8200 then
    let x := p.sink ((o - 0x8000) / 16)
    match o % 16 with
    | 0 => x.ctrl
    | 4 => x.pwm
    | 8 => fields [(15, b2n x.shortoff), (12, x.status), (0, x.vpin)]
    | _ => 0
  else
    match o with
    | 0x4000 => fields [(31, b2n p.syncBusy), (0, p.syncMask.toNat)]
    | 0x4200 => p.gpout.truncate 32
    | 0x4204 => (p.gpout >>> 32).truncate 32
    | 0x4208 => p.gpoe.truncate 32
    | 0x420C => (p.gpoe >>> 32).truncate 32
    | 0x4210 => p.levels 0
    | 0x4214 => p.levels 1
    | 0x8200 => p.chg
    | _ => 0

/-! ## Global registers (R485) -/

def State.glbPeek (s : State) (o : Nat) : Word :=
  let g := s.glb
  match o with
  | 0x00 => 0x2128B000
  | 0x04 => 0x21281F4C
  | 0x08 => 0x212900B0
  | 0x0C => g.pcisub
  | 0x40 => g.boot
  | 0x44 => g.rstcause
  | 0x50 => s.time.truncate 32
  | 0x54 => (s.time >>> 32).truncate 32
  | 0x60 => fields [(24, g.trip.toNat), (16, g.hyst.toNat), (8, g.tj.toNat), (0, b2n g.hot)]
  | _ =>
    if 0x10 ≤ o && o < 0x30 then (Config.fuseIdent >>> (8 * (o - 0x10))).truncate 32
    else if 0x70 ≤ o && o < 0x80 then Tbl.get 0 g.scratch ((o - 0x70) / 4)
    else 0

/-- What the register at a warden address reads as; an address that is unmapped inside a block's window reads 0 (R10, R478). -/
def State.peek (s : State) (a : Nat) : Word :=
  if a < 0x4000 then s.glbPeek a
  else if a < 0x10000 then s.clkPeek (a - 0x4000)
  else if 0x100000 ≤ a && a < 0x110000 then s.pwrPeek (a - 0x100000)
  else if 0x200000 ≤ a && a < 0x202000 then s.vltPeek (a - 0x200000)
  else if 0x300000 ≤ a && a < 0x310000 then s.tilePeek ((a - 0x300000) / 0x1000) (a % 0x1000)
  else if 0x400000 ≤ a && a < 0x410000 then s.pioPeek (a - 0x400000)
  else if 0x500000 ≤ a && a < 0x540000 then s.quadPeek ((a - 0x500000) / 0x10000) (a % 0x10000)
  else if 0x600000 ≤ a && a < 0x608000 then s.queuePeek ((a - 0x600000) / 16) (a % 16)
  else if 0x700000 ≤ a && a < 0x701000 then s.drivePeek ((a - 0x700000) / 0x40) (a % 0x40)
  else if 0x701000 ≤ a && a < 0x702000 then s.fltPeek (a - 0x701000)
  else if 0x800000 ≤ a && a < 0x900000 then s.groupPeek ((a - 0x800000) / 0x10000) (a % 0x10000)
  else if 0x900000 ≤ a && a < 0x901000 then s.wrdPeek (a - 0x900000)
  else if 0x910000 ≤ a && a < 0x911000 then s.icuPeek (a - 0x910000)
  else if 0x920000 ≤ a && a < 0x928000 then s.mbxPeek (a - 0x920000)
  else if 0x1000000 ≤ a && a < 0x1400000 then s.engPeek ((a - 0x1000000) / 0x8000) (a % 0x8000)
  else 0

end Sys2Proof.Machine
end

