-- ==== Sys2Proof/Machine/Capsule.lean ====
section
/-!
DEFINITION. Measurements (R362) and the fault capsule (R472 to R474).
-/

namespace Sys2Proof.Machine

/-! ## Measurements (R362) -/

/-- Measurement 6: the security state; the spec does not give its encoding, so its bytes stand in this order (log 43). -/
def State.meas6 (s : State) : List Byte :=
  leBytes 1 (b2n (s.vault.epochst = 1)) ++ leBytes 2 s.vault.epoch ++ leBytes 1 (b2n s.vault.tamper) ++ leBytes 1 s.vault.testFuses
    ++ leBytes 1 (b2n s.cfgDefaulted) ++ leBytes 1 (b2n (s.vault.epochst = 3)) ++ leBytes 1 (b2n (!s.vault.shared)) ++ List.replicate 40 0

/-- Measurement block `n`, 1 to 6. -/
def State.measurement (s : State) (n : Nat) : List Byte :=
  padTo 48 (match n with
    | 1 => s.boot.meas1 | 2 => s.boot.meas2 | 3 => s.boot.meas3 | 4 => meas4 | 5 => sha384 encapKey | _ => s.meas6)

/-! ## The capsule (R473) -/

/-- The registers at the given warden addresses, as bytes. -/
def State.regDump (s : State) (l : List Nat) : List Byte := l.flatMap fun a => leBytes 4 (s.peek a).toNat

/-- Addresses `base + i * step + o` for `i` below `n` and each offset. -/
def regAddrs (base step n : Nat) (offs : List Nat) : List Nat := (List.range n).flatMap fun i => offs.map fun o => base + i * step + o

/-- The sections in the order of R473. The order of registers inside a section, and a trace area of 64 free bytes, are the model's (log 43). -/
def State.capsuleSections (s : State) (trace : List Byte) : List (List Byte) :=
  [ s.regDump (regAddrs 0x701100 4 64 [0] ++ [0x701000, 0x701010, 0x701014, 0x701018, 0x70101C, 0x701020, 0x701024]),
    s.regDump (regAddrs 0x1000000 0x8000 128 [0x24, 0x28, 0x134, 0x2C]),
    s.regDump (regAddrs 0x300000 0x1000 16 [0x08, 0x14, 0x18]),
    s.regDump (regAddrs 0x800000 0x10000 16 [0x10, 0x14, 0x40, 0x44, 0x48, 0x4C, 0x50, 0x54, 0x58, 0x5C, 0x60]),
    s.regDump (regAddrs 0x700000 0x40 64 [0x00, 0x10, 0x14, 0x18]),
    s.regDump ([0x100000, 0x100004, 0x100008, 0x10000C, 0x100010, 0x100014, 0x100020, 0x100024, 0x100030, 0x100034] ++ regAddrs 0x100100 0x10 16 [0, 4, 8, 12]),
    s.regDump [0x4000, 0x4004, 0x4008, 0x400C],
    s.regDump [0x200000, 0x200004, 0x200008, 0x200014, 0x200040],
    s.vault.ledgerBytes 0x80 0x100 ++ s.vault.ledgerBytes 0x200 0x600,
    [1, 2, 3, 4, 5, 6].flatMap s.measurement,
    s.regDump (regAddrs 0x600004 0x10 1543 [0]),
    trace ]

/-- The 65,536 bytes of a capsule with a cause (R473). -/
def State.capsule (s : State) (cause : Nat) (trace : List Byte) : List Byte :=
  let secs := s.capsuleSections trace
  let dir := (secs.zipIdx.foldl (fun (a : List Byte × Nat) p =>
    (a.1 ++ leBytes 4 (p.2 + 1) ++ leBytes 4 a.2 ++ leBytes 4 p.1.length ++ leBytes 4 0, a.2 + p.1.length)) ([], 256)).1
  let head := leBytes 4 0x43584454 ++ leBytes 2 1 ++ leBytes 2 cause ++ leBytes 8 s.time.toNat ++ leBytes 32 Config.fuseIdent.toNat
    ++ leBytes 4 s.boot.version.toNat ++ dir ++ List.replicate 12 0
  let body := padTo 65440 (head ++ secs.flatten)
  body ++ padTo 96 (ecdsaSign idSeed (sha384 body))

/-- A capsule is captured, signed, held in the capsule buffer of stack A and written to the SPI NOR (R472, R484). -/
def State.capture (s : State) (cause : Nat) : State :=
  let t := s.freshBytes 64
  let c := t.2.capsule cause t.1
  let s := (t.2.norErase 0x1000 0x10000).norPut 0x1000 c
  let s := if s.domOn 34 then s.dramPut 0x48100000 c else s
  { s with boot := { s.boot with capValid := true, capRead := false } }

/-- A capture by quarantine, which does not overwrite a capsule whose last byte has not been read (R472). -/
def State.captureQuarantine (s : State) : State := if !s.fwUp || (s.boot.capValid && !s.boot.capRead) then s else s.capture 2

end Sys2Proof.Machine
end

