-- ==== Sys2Proof/Machine/Mover.lean ====
section
/-!
DEFINITION. The data mover at work (R121 to R128, R135 to R141): GO and release, drive reads and writes through the relay window (R27, R28), host data,
tag passes, REKEY, and the self-tests of the cipher unit.
-/

namespace Sys2Proof.Machine

/-! ## GO, release, DMDONE (R133 to R136) -/

/-- ENGn_DMGO.GO: the staged descriptor is checked and started. A started transfer toward or from a drive stands for its drive command, whose
submission entry firmware places in tile scratch, at the place that its ATADD on the tail word claimed, and whose doorbell it rings after GO (R53,
R309, log 16). -/
def State.goReg (s : State) (e : Nat) : State :=
  let d := (s.eng e).desc
  let r := s.dmGo e d
  let s := r.2
  if r.1 ≠ 0 || d.dir = 4 then s
  else
    let drive := if s.dualPort d.dport && !s.drvActive (2 * d.dport) then 2 * d.dport + 1 else 2 * d.dport
    match s.xferOf e d.slot with
    | none => s
    | some x => s.drvBind e d.slot drive { opc := if d.dir = 0 || d.dir = 3 then 1 else 2, dnsid := 0, dlba := match x.c1 with | some l => l.lba 0 | none => 0
                                           nlb := if x.c1.isSome then x.lbaCount else 0, fua := false, len := d.len, mofs := none, list := none }

def execDmgo (e : EngId) (s : State) : Res := .next (if s.engOn e then s.goReg e else s)
def execDmrel (e : EngId) (slot : SlotId) (s : State) : Res := .next (if s.engOn e then s.dmRel e slot else s)

/-- A lane's read of ENGn_DMDONE takes the oldest entry (R135). -/
def State.dmDoneRead (s : State) (e : Nat) : Word × State :=
  match (s.eng e).dmDone with
  | [] => (0, s)
  | w :: rest => (w, s.updEng e fun g => { g with dmDone := rest })

def execDmdoneRead (e : EngId) (s : State) : Res := .next (if s.engOn e then (s.dmDoneRead e).2 else s)

/-! ## LBAs of a GCM-sector transfer (R125 to R127) -/

/-- Blocks of a data unit of the transfer. -/
def Xfer.perLba (x : Xfer) : Nat := x.unit / 16

/-- The ciphertext of LBA `u` that the accumulators have taken. -/
def Xfer.lbaCt (x : Xfer) (u : Nat) : List Byte := Memory.bytes x.ct (u * x.unit) x.unit

/-- An LBA of a read fails: its whole host range is zero-filled (R127). -/
def State.failLba (s : State) (e k u outcome : Nat) : State :=
  match s.xferOf e k with
  | none => s
  | some x => (s.putXfer e k (some (x.setLba u { x.lba u with verdict := outcome }))).hostData x.func e k (u * x.unit) (List.replicate x.unit 0)

/-- Blocks of an LBA are decrypted under the VERSION of its record and written to host memory. -/
def State.hostBlocks (s : State) (x : Xfer) (l : Latched) (e k u ver : Nat) (bs : List (Nat × List Byte)) : State :=
  bs.foldl (fun s b => s.hostData x.func e k (u * x.unit + 16 * b.1) (l.decBlock u ver b.1 b.2)) s

/-- The record of an LBA has arrived, or a block after it: with every block there the tag is checked, and what was held goes to the host or the
LBA fails; before that, the blocks listed are decrypted at once (R127). -/
def State.lbaStep (s : State) (e k u : Nat) (fresh : List (Nat × List Byte)) : State :=
  match s.xferOf e k with
  | none => s
  | some x =>
    match x.c1, (x.lba u).record with
    | some l, some r =>
      let a := x.lba u
      if a.verdict ≠ 0 then s
      else if a.blocks.length = x.perLba then
        let s := s.putXfer e k (some { x with used := x.used + 1 })
        if l.lbaTag u (recVersion r) ((r.drop 16).take 16) (x.lbaCt u) = r.take 16 then
          match s.xferOf e k with
          | some y => (s.putXfer e k (some (y.setLba u { a with verdict := 1 }))).hostBlocks x l e k u (recVersion r) fresh
          | none => s
        else s.failLba e k u 0x30
      else s.hostBlocks x l e k u (recVersion r) fresh
    | _, _ => s

/-- The hold-range copies of the blocks that an LBA holds (R127). -/
def State.heldBlocks (s : State) (e : Nat) (x : Xfer) (u : Nat) : List (Nat × List Byte) :=
  (x.lba u).blocks.map fun j => (j, Memory.bytes (s.tile (tileOf e)).scratch (x.dst + u * x.unit + 16 * j) 16)

/-- One whole block of a GCM-sector read arrives, which the LBA has not taken; true for a repeat (R127). -/
def State.gcmBlock (s : State) (e k b : Nat) (bs : List Byte) : State × Bool :=
  match s.xferOf e k with
  | none => (s, false)
  | some x =>
    let u := b / x.perLba
    let j := b % x.perLba
    let a := x.lba u
    if a.blocks.contains j then (s, true)
    else
      let y := { x.setLba u { a with blocks := insSorted j a.blocks } with done := rangeAdd (16 * b) (16 * b + 16) x.done }
      if a.verdict ≠ 0 then (s.putXfer e k (some y), false)
      else
        let s := s.putXfer e k (some { y with ct := Memory.put x.ct (16 * b) bs, used := x.used + 1 })
        if a.record.isSome then (s.lbaStep e k u [(j, bs)], false)
        else (s.updTile (tileOf e) fun t => { t with scratch := Memory.put t.scratch (x.dst + 16 * b) bs }, false)

/-- One whole block of an XTS read is decrypted and written to host memory (R121, R122). -/
def State.xtsBlockIn (s : State) (e k b : Nat) (bs : List Byte) : State :=
  match s.xferOf e k with
  | none => s
  | some x =>
    match x.c1 with
    | none => s
    | some l =>
      (s.putXfer e k (some { x with done := rangeAdd (16 * b) (16 * b + 16) x.done, used := x.used + 1 })).hostData
        x.func e k (16 * b) (l.decBlock (16 * b / x.unit) 0 (b % x.perLba) bs)

/-- Bytes from transfer offset `off` that fall in one block: a whole block goes on; part of one waits in the assembly buffer (R122). Bytes of a block
already taken into a GCM-sector LBA, or of a verified LBA, are a repeat (R127). -/
def State.blockIn (s : State) (e k off : Nat) (bs : List Byte) : State × Bool :=
  match s.xferOf e k with
  | none => (s, false)
  | some x =>
    let b := off / 16
    let a := x.lba (b / x.perLba)
    if x.gcm && a.verdict = 1 then (s, true)
    else if x.gcm && a.blocks.contains (b % x.perLba) then (if a.verdict = 0 then s.failLba e k (b / x.perLba) 0x38 else s, true)
    else
    let asm := bs.zipIdx.foldl (fun m p => Tbl.set none m (off + p.2) (some p.1)) x.asm
    let all := (List.range 16).map fun i => Tbl.get none asm (16 * b + i)
    if all.all Option.isSome then
      let asm := (List.range 16).foldl (fun m i => Tbl.set none m (16 * b + i) none) asm
      let s := s.putXfer e k (some { x with asm := asm })
      let blk := all.map fun y => y.getD 0
      if x.gcm then s.gcmBlock e k b blk else (s.xtsBlockIn e k b blk, false)
    else (s.putXfer e k (some { x with asm := asm }), false)

/-- A byte string from transfer offset `off` cut at block boundaries. -/
def cutBlocks : Nat → Nat → List Byte → List (Nat × List Byte)
  | 0, _, _ => []
  | n + 1, off, bs =>
    let m := 16 - off % 16
    if bs.isEmpty then [] else (off, bs.take m) :: cutBlocks n (off + m) (bs.drop m)

/-- Drive data for a DRIVE_TO_HOST transfer; true when some of it repeats what a GCM-sector LBA had taken. -/
def State.toHost (s : State) (e k off : Nat) (bs : List Byte) : State × Bool :=
  (cutBlocks (bs.length / 16 + 2) off bs).foldl (fun a p => let r := a.1.blockIn e k p.1 p.2; (r.1, a.2 || r.2)) (s, false)

/-! ## Metadata ranges (R28, R126, R127, R307) -/

/-- LBAs that a transfer's metadata range covers: its own, or for scratch transfers those of its drive command. -/
def Slot.mdCount (x : Slot) : Nat :=
  match x.xfer, x.drv with
  | some f, some c => if f.c1.isSome then f.lbaCount else c.nlb
  | _, _ => 0

/-- The metadata write [q, q + n) of a drive lies in the range of this slot's transfer, in a direction in which the drive writes (R28). -/
def Slot.takesMeta (x : Slot) (d q n : Nat) : Bool :=
  match x.xfer, x.drv with
  | some f, some c => (f.dir = 1 || f.dir = 2) && c.drive = d && !c.answered && f.mofs ≤ q && q + n ≤ f.mofs + x.mdCount * f.stride
  | _, _ => false

/-- Engine and slot of the transfer of a tile that takes the metadata write. -/
def State.metaOwner (s : State) (t d q n : Nat) : Option (Nat × Nat) :=
  (enginesOf t).findSome? fun e => ((s.eng e).slots.find? fun p => p.2.takesMeta d q n).map fun p => (e, p.1)

/-- The record of LBA `u` is whole: the stamp decides, then held blocks are released (R127). -/
def State.recordIn (s : State) (e k u : Nat) : State :=
  match s.xferOf e k with
  | none => s
  | some x =>
    let a := x.lba u
    let r := Memory.bytes (s.tile (tileOf e)).scratch (x.mofs + u * x.stride) 32
    let s := s.putXfer e k (some (x.setLba u { a with record := some r }))
    match x.c1 with
    | some l => if a.verdict ≠ 0 then s else if recStamp r ≠ l.stamp then s.failLba e k u 0x31 else s.lbaStep e k u (s.heldBlocks e x u)
    | none => s

/-- Bytes of the metadata record of LBA `u` of a GCM-sector read, from offset `o` of the metadata range; true for a repeat (R127). -/
def State.metaPart (s : State) (e k u o : Nat) (bs : List Byte) : State × Bool :=
  match s.xferOf e k with
  | none => (s, false)
  | some x =>
    if rangeHits x.mdone o (o + bs.length) then (if (x.lba u).verdict = 0 then s.failLba e k u 0x38 else s, true)
    else
      let y := { x with mdone := rangeAdd o (o + bs.length) x.mdone }
      let s := (s.putXfer e k (some y)).updTile (tileOf e) fun t => { t with scratch := Memory.put t.scratch (x.mofs + o) bs }
      (if (x.lba u).record.isNone && rangeHas y.mdone (u * x.stride) (u * x.stride + 32) then s.recordIn e k u else s, false)

/-- A byte string from offset `o` cut at record boundaries. -/
def cutRecords (stride : Nat) : Nat → Nat → List Byte → List (Nat × List Byte)
  | 0, _, _ => []
  | n + 1, o, bs =>
    let m := stride - o % stride
    if bs.isEmpty then [] else (o, bs.take m) :: cutRecords stride n (o + m) (bs.drop m)

/-- A drive's write into a metadata range: taken into scratch; a GCM-sector read uses its records. -/
def State.metaWrite (s : State) (e k q : Nat) (bs : List Byte) : State × Bool :=
  match s.xferOf e k with
  | none => (s, false)
  | some x =>
    if x.phase = 2 then (s, false)
    else if x.dir = 1 && x.gcm then
      (cutRecords x.stride (bs.length + 1) (q - x.mofs) bs).foldl (fun a p => let r := a.1.metaPart e k (p.1 / x.stride) p.1 p.2; (r.1, a.2 || r.2)) (s, false)
    else (s.updTile (tileOf e) fun t => { t with scratch := Memory.put t.scratch q bs }, false)

/-- The range [q, q + n) meets a record of this GCM-sector write that its tag pass has not yet written (R126). -/
def Xfer.recordDue (x : Xfer) (q n : Nat) : Bool :=
  x.phase = 0 && x.dir = 0 && x.gcm && (List.range x.lbaCount).any fun u =>
    (x.lba u).record.isNone && q < x.mofs + (u + 1) * x.stride && x.mofs + u * x.stride < q + n

/-- Engine and slot of a tile's transfer that holds a read of queue memory back. -/
def State.metaHolder (s : State) (t q n : Nat) : Option (Nat × Nat) :=
  (enginesOf t).findSome? fun e => ((s.eng e).slots.find? fun p => match p.2.xfer with | some x => x.recordDue q n | none => false).map fun p => (e, p.1)

/-! ## Drive memory requests (R27, R28, R137, R314) -/

/-- A refused or discarded access of a drive: counted, with a record for the engine whose command the drive holds (R28, R311, R314). -/
def State.relayViolation (s : State) (d : Nat) (cmd : Option (Nat × Nat)) (off : Nat) : State :=
  let s := match cmd with
    | some (e, k) =>
      (match ((s.eng e).slot k).drv with
       | some c => s.deRecord e 1 d k c.cid (BitVec.ofNat 32 off)
       | none => s)
    | none => s
  s.driveViolation d 4

/-- The address lies in the relay window of the drive's port (R27). -/
def State.relayIn (s : State) (d : Nat) (a : DWord) : Bool := fld a.toNat 63 49 = s.relayBase (d / 2)

/-- The write [q, q + n) into a tile lies wholly within a completion queue or landing area that the tile set up for the drive, its admin queue's among
them (R28, R304; log 91). -/
def State.queueArea (s : State) (t d q n : Nat) : Bool :=
  let x := (s.tile t).drvSq d
  (x.depth ≠ 0 && x.cqAt ≤ q && q + n ≤ x.hdr) || (x.depth ≠ 0 && x.landAt ≤ q && q + n ≤ x.landAt + 64)
  || (t = admTile d && match (s.drive d).admAt with
      | some a => (a + admCqOff ≤ q && q + n ≤ a + admLandOff) || (a + admLandOff ≤ q && q + n ≤ a + admLandOff + 64)
      | none => false)

/-- The transfer of the slot that a KIND 0 address names, if the slot holds a command issued to the drive (R28). -/
def State.relayXfer (s : State) (d : Nat) (a : DWord) : Option Xfer :=
  let x := (s.eng (relayEngine a)).slot (relaySlot a)
  match x.drv, x.xfer with
  | some c, some f => if c.drive = d then some f else none
  | _, _ => none

/-- DRIVE_MEM_READ: decoded through the relay window. `err`: 1 an uncorrectable error of tile scratch under a SCRATCH_TO_DRIVE transfer, 2 a
dual-rail code error of the unit while it serves the read (R27, R28, R114, R122, R126, R137). -/
def execDriveMemRead (drive : DriveId) (addr : DWord) (len : Nat) (err : Fin 3) (s : State) : Res :=
  .next (
    let d : Nat := drive
    let deny := fun (s : State) => s.emit (.driveRefuse d 1)
    if !(s.drive d).window then deny s
    else if !s.relayIn d addr then deny (s.relayViolation d none 0)
    else if relayKind addr then
      let q := relayQOffset addr
      let t := relayTile addr
      if 2 ^ 21 < q + len || 2 ^ 21 ≤ q then deny (s.relayViolation d none 0)
      else
        match s.metaHolder t q len with
        | some (e, k) =>
          (match s.xferOf e k with
           | some x => s.putXfer e k (some { x with held := x.held ++ [{ drive := d, offset := q, len := len, isMeta := true }] })
           | none => s)
        | none => s.emit (.driveData d (Memory.bytes (s.tile t).scratch q len))
    else
      let e := relayEngine addr
      let k := relaySlot addr
      let o := relayOffset addr
      match s.relayXfer d addr with
      | none => deny (s.relayViolation d none o)
      | some x =>
        if x.phase = 2 then s.emit (.driveRefuse d 2)
        else if x.len < o + len || (x.dir ≠ 0 && x.dir ≠ 3) then deny (s.relayViolation d (some (e, k)) o)
        else if x.parked then s
        else if err = 2 then (s.emit (.driveRefuse d 2)).disableUnit e 3
        else if x.dir = 3 then
          (if err = 1 then (if x.phase = 0 then s.endXfer e k 0x35 else s).emit (.driveRefuse d 2)
           else
             ((s.putXfer e k (some { x with done := rangeAdd o (o + len) x.done })).emit
               (.driveData d (Memory.bytes (s.tile (tileOf e)).scratch (x.src + o) len))).tryMoved e k)
        else s.putXfer e k (some { x with held := x.held ++ [{ drive := d, offset := o, len := len, isMeta := false }] }))

/-- The metadata write [q, q + n) completes the record of an LBA of a GCM-sector read that holds blocks in its hold range (R127). -/
def State.readsHold (s : State) (e k q n : Nat) : Bool :=
  match s.xferOf e k with
  | some x => x.phase = 0 && x.dir = 1 && x.gcm && (List.range x.lbaCount).any fun u =>
      let a := x.mofs + u * x.stride
      (x.lba u).record.isNone && !(x.lba u).blocks.isEmpty && q < a + 32 && a < q + n
      && rangeHas (rangeAdd (q - x.mofs) (q + n - x.mofs) x.mdone) (u * x.stride) (u * x.stride + 32)
  | none => false

/-- DRIVE_MEM_WRITE: decoded through the relay window, taken or discarded. DRIVE_COMPLETION and DRIVE_INTERRUPT_LANDING are the writes of a whole
completion entry and of an interrupt message that the tile acts on; a write here into those areas changes their bytes only (log 91).
`err`: 1 an uncorrectable error reading the hold range for blocks that the write releases, 2 a dual-rail code error of the unit while it serves the
write (R27, R28, R114, R122, R127, R137, R314). -/
def execDriveMemWrite (drive : DriveId) (addr : DWord) (data : Bytes) (s : State) (err : Fin 3 := 0) : Res :=
  .next (
    let d : Nat := drive
    if !(s.drive d).window then s
    else if !s.relayIn d addr then s.relayViolation d none 0
    else if relayKind addr then
      let q := relayQOffset addr
      if 2 ^ 21 < q + data.length || 2 ^ 21 ≤ q then s.relayViolation d none 0
      else if s.queueArea (relayTile addr) d q data.length then
        s.updTile (relayTile addr) fun t => { t with scratch := Memory.put t.scratch q data }
      else match s.metaOwner (relayTile addr) d (relayQOffset addr) data.length with
      | none => s.relayViolation d none 0
      | some (e, k) =>
        if (match s.xferOf e k with | some x => x.parked | none => false) then s
        else if err = 2 then s.disableUnit e 3
        else if err = 1 && s.readsHold e k (relayQOffset addr) data.length then s.endXfer e k 0x35
        else
          let r := s.metaWrite e k (relayQOffset addr) data
          let s := r.1.tryMoved e k
          if r.2 then s.driveViolation d 5 else s
    else
      let e := relayEngine addr
      let k := relaySlot addr
      let o := relayOffset addr
      match s.relayXfer d addr with
      | none => s.relayViolation d none o
      | some x =>
        if x.phase = 2 then s
        else if x.len < o + data.length || (x.dir ≠ 1 && x.dir ≠ 2) then s.relayViolation d (some (e, k)) o
        else if x.parked then s
        else if x.dir = 2 then
          ((s.putXfer e k (some { x with done := rangeAdd o (o + data.length) x.done })).updTile (tileOf e) fun t =>
            { t with scratch := Memory.put t.scratch (x.dst + o) data }).tryMoved e k
        else if err = 2 then s.disableUnit e 3
        else
          let r := s.toHost e k o data
          let s := r.1.tryMoved e k
          if r.2 then s.driveViolation d 5 else s)

/-! ## Host data toward a drive (R115, R122, R126) -/

/-- Bytes [lo, lo + n) of a transfer encrypted block by block. -/
def Xfer.encRange (x : Xfer) (l : Latched) (lo : Nat) (bs : List Byte) : List Byte :=
  ((blocksFrom (lo / 16) bs).map fun p => l.encBlock (p.1 / x.perLba) (p.1 % x.perLba) p.2).flatten

/-- The data pass of an LBA is whole and its record written: its tag is compared (R126). -/
def State.dataPassCheck (s : State) (e k u : Nat) : State :=
  match s.xferOf e k with
  | none => s
  | some x =>
    let a := x.lba u
    match x.c1, a.record with
    | some l, some r =>
      if a.verdict = 0 && a.blocks.length = x.perLba then
        let same := l.lbaTag u l.version.toNat ((r.drop 16).take 16) (x.lbaCt u) = r.take 16
        s.putXfer e k (some { x.setLba u { a with verdict := 1 } with changed := x.changed || !same, used := x.used + 1 })
      else s
    | _, _ => s

/-- The ciphertext of blocks served for the first time enters the accumulators of a GCM-sector write. -/
def Xfer.addServed (x : Xfer) (lo : Nat) (ct : List Byte) : Xfer :=
  (blocksFrom (lo / 16) ct).foldl (fun x p =>
    let u := p.1 / x.perLba
    let j := p.1 % x.perLba
    if (x.lba u).blocks.contains j then x
    else { x.setLba u { x.lba u with blocks := insSorted j (x.lba u).blocks } with ct := Memory.put x.ct (16 * p.1) p.2 }) x

/-- The 16-byte-aligned range that covers a request (R122). -/
def HeldRead.cover (h : HeldRead) : Nat × Nat := (h.offset / 16 * 16, (h.offset + h.len + 15) / 16 * 16)

/-- HOST_DATA_RETURN: host memory answers the read of the aligned range that a held drive read needs; its blocks are encrypted and exactly the
requested bytes returned. Nothing was asked for while the controller may not send, and a completion on an Insecure stream is discarded. `err`: 1 the
read failed, 2 a dual-rail code error, 3 a PRP list fetch failed or an entry of the list broke the rules (R114, R115, R122, R126, R137, R242, R283,
R284, R288). -/
def execHostDataReturn (e : EngId) (slot : SlotId) (offset : Nat) (data : Bytes) (err : Fin 4) (s : State) : Res :=
  .next (
    let k : Nat := slot
    match s.xferOf e k with
    | none => s
    | some x =>
      if x.phase = 2 || x.parked || 1 < x.dir then s
      else if err = 2 then s.disableUnit e 3
      else if err = 3 && x.phase = 0 then (s.endXfer e k 0x34).countViolation x.func
      else if err = 1 && x.phase = 0 then s.endXfer e k 0x34
      else if !s.canSend x.func then s
      else
        match x.held.find? (fun h => !h.isMeta && h.cover.1 = offset), x.c1 with
        | some h, some l =>
          let y := { x with held := x.held.erase h }
          if err ≠ 0 then (s.putXfer e k (some y)).emit (.driveRefuse h.drive 2)
          else if data.length ≠ h.cover.2 - h.cover.1 then s
          else
            let ct := x.encRange l offset data
            if passesThrough data ct then s.plaintextGuard e x.func
            else
              let y := { y with done := rangeAdd h.offset (h.offset + h.len) y.done, used := y.used + data.length / 16 }
              let y := if x.gcm then y.addServed offset ct else y
              let s := (s.putXfer e k (some y)).emit (.driveData h.drive ((ct.drop (h.offset - offset)).take h.len))
              let us := (List.range y.lbaCount).filter fun u => x.gcm && offset < (u + 1) * x.unit && u * x.unit < offset + data.length
              (us.foldl (fun s u => s.dataPassCheck e k u) s).tryMoved e k
        | _, _ => s)

/-- Held reads of metadata records that are all written by now are answered (R126). -/
def State.metaRelease (s : State) (e k : Nat) : State :=
  match s.xferOf e k with
  | none => s
  | some x =>
    let go := x.held.filter fun h => h.isMeta && !x.recordDue h.offset h.len
    go.foldl (fun s h => s.emit (.driveData h.drive (Memory.bytes (s.tile (tileOf e)).scratch h.offset h.len)))
      (s.putXfer e k (some { x with held := x.held.filter fun h => !(h.isMeta && !x.recordDue h.offset h.len) }))

/-- TAG_PASS_COMPLETE: the tag pass of a GCM-sector write reaches one LBA, whose plaintext is given: its record is written to the metadata range and
the ciphertext discarded. `err` as for HOST_DATA_RETURN (R115, R123 to R126). -/
def execTagPassComplete (e : EngId) (slot : SlotId) (lba : Fin 1024) (data : Bytes) (err : Fin 4) (s : State) : Res :=
  .next (
    let k : Nat := slot
    let u : Nat := lba
    match s.xferOf e k with
    | none => s
    | some x =>
      match x.c1 with
      | none => s
      | some l =>
        if x.phase ≠ 0 || x.parked || x.dir ≠ 0 || !x.gcm || x.lbaCount ≤ u || (x.lba u).record.isSome then s
        else if err = 2 then s.disableUnit e 3
        else if err = 3 then (s.endXfer e k 0x34).countViolation x.func
        else if err = 1 then s.endXfer e k 0x34
        else if data.length ≠ x.unit || !s.canSend x.func then s
        else
          let ct := x.encRange l (u * x.unit) data
          if passesThrough data ct then s.plaintextGuard e x.func
          else
            let r := l.lbaTag u l.version.toNat l.aad ct ++ l.aad
            let y := { x.setLba u { x.lba u with record := some r } with used := x.used + x.perLba + 1 }
            let s := (s.putXfer e k (some y)).updTile (tileOf e) fun t =>
              { t with scratch := Memory.put t.scratch (x.mofs + u * x.stride) (padTo x.stride r) }
            ((s.metaRelease e k).dataPassCheck e k u).tryMoved e k)

/-! ## REKEY (R129, R136) -/

/-- The decrypt pass of a REKEY over its source LBAs, in order: plaintext of each, or the outcome of R137 that it fails with (R125, R129). -/
def State.rekeyIn (s : State) (e : Nat) (x : Xfer) (a : Latched) : List (Except Nat (List Byte)) :=
  let t := s.tile (tileOf e)
  (List.range (x.len / duBytes a.du)).map fun u =>
    let src := Memory.bytes t.scratch (x.src + u * duBytes a.du) (duBytes a.du)
    let r := Memory.bytes t.scratch (x.mofs + u * x.stride) 32
    if a.gcm && recStamp r ≠ a.stamp then .error 0x31
    else if a.gcm && a.lbaTag u (recVersion r) ((r.drop 16).take 16) src ≠ r.take 16 then .error 0x30
    else .ok ((blocksFrom 0 src).map fun p => a.decBlock u (recVersion r) p.1 p.2).flatten

/-- The plaintext of the bytes [lo, hi) of a REKEY, if every source LBA of `n` bytes that they touch passed. -/
def rekeyPlain (pts : List (Except Nat (List Byte))) (n lo hi : Nat) : Option (List Byte) :=
  let us := (List.range pts.length).filter fun u => u * n < hi && lo < (u + 1) * n
  if us.all fun u => match pts.getD u (.error 0) with | .ok _ => true | .error _ => false then
    some (((us.flatMap fun u => match pts.getD u (.error 0) with | .ok b => b | .error _ => []).drop (lo - us.headD 0 * n)).take (hi - lo))
  else none

/-- One data unit of the encrypt pass of a REKEY, written with its record; one that rests on a failed source LBA is not written. The answer says
whether the plaintext guard struck (R115, R129, R307). -/
def State.rekeyOut (s : State) (e : Nat) (x : Xfer) (b : Latched) (zero : Bool) (pts : List (Except Nat (List Byte))) (n u : Nat) : State × Bool :=
  let m := duBytes b.du
  match rekeyPlain pts n (u * m) ((u + 1) * m) with
  | none => (s, false)
  | some pt =>
    let ct := ((blocksFrom 0 pt).map fun p => b.encBlock u p.1 p.2).flatten
    if passesThrough pt ct then (s, true)
    else
      let new := if b.gcm then some (padTo x.stride (b.lbaTag u b.version.toNat b.aad ct ++ b.aad))
                 else if zero then some (List.replicate x.stride 0) else none
      (s.updTile (tileOf e) fun t =>
        let y := Memory.put t.scratch (x.dst + u * m) ct
        { t with scratch := match new with | some w => Memory.put y (x.mofs + u * x.stride) w | none => y }, false)

/-- A REKEY goes through its data: the whole decrypt pass, then the encrypt pass in units of its own context; the answer says whether the plaintext
guard struck (R121, R125, R129; the order of the passes is a DESIGN CHOICE, log 88). -/
def State.rekey (s : State) (e k : Nat) : State × Bool :=
  match s.xferOf e k with
  | none => (s, false)
  | some x =>
    match x.c1, x.c2 with
    | some a, some b =>
      let pts := s.rekeyIn e x a
      let y := (List.range pts.length).foldl (fun (y : Xfer) u =>
        y.setLba u { y.lba u with verdict := match pts.getD u (.error 0) with | .ok _ => 1 | .error v => v }) x
      (List.range (x.len / duBytes b.du)).foldl (fun (r : State × Bool) u =>
        if r.2 then r else r.1.rekeyOut e x b a.gcm pts (duBytes a.du) u) (s.putXfer e k (some y), false)
    | _, _ => (s, false)

/-- REKEY_MOVED: a REKEY goes through its LBAs, reaches MOVED and queues its entry. `err`: 1 an uncorrectable error reading scratch, 2 a dual-rail code
error (R114, R115, R129, R136, R137). -/
def execRekeyMoved (e : EngId) (slot : SlotId) (err : Fin 3) (s : State) : Res :=
  .next (
    let k : Nat := slot
    match s.xferOf e k with
    | none => s
    | some x =>
      if x.dir ≠ 4 || x.phase ≠ 0 || x.parked then s
      else if err = 2 then s.disableUnit e 3
      else if err = 1 then s.endXfer e k 0x35
      else
        let r := s.rekey e k
        if r.2 then r.1.plaintextGuard e x.func
        else
          match r.1.xferOf e k with
          | none => r.1
          | some y =>
            let n := fun (c : Option Latched) => y.len / 16 + (match c with | some l => if l.gcm then y.len / duBytes l.du else 0 | none => 0)
            (r.1.putXfer e k (some { y with done := [(0, y.len)], used := n y.c1, used2 := n y.c2 })).tryMoved e k)

/-! ## The unit's tests (R114, R138 to R141) -/

/-- CUTEST_RUN: ENGn_CUTEST.RUN starts a periodic test; one that is running goes on (R11, R140). -/
def State.cutest (s : State) (e : Nat) : State :=
  if (s.eng e).cuTesting then s else s.updEng e fun g => { g with cuTesting := true, cuPeriodic := true, cuRail := false }

def execCutestRun (e : EngId) (s : State) : Res := .next (if s.engOn e then s.cutest e else s)

/-- SELFTEST_END: a self-test ends with its LASTTEST, RAIL_CODE if R114 was raised during it: a result but PASS disables the unit; PASS clears FAULT after
the power-on test of an engine reset; and the transfers and KLOAD results that a power-on test held go on (R138 to R141). -/
def State.selfTest (s : State) (e result : Nat) : State :=
  let g := s.eng e
  if !g.cuTesting || 4 < result || !s.engOn e then s
  else
    let v := if g.cuRail then 4 else result
    let s := s.updEng e fun g =>
      { g with cuTesting := false, cuPeriodic := false, cuRail := false, cuReset := false, cuLast := v, cuFault := if v = 0 && g.cuReset then false else g.cuFault
               slots := Tbl.mapv Slot.init g.slots fun y => { y with xfer := y.xfer.map fun x => { x with parked := false } } }
    if v = 0 then s.each (s.eng e).xferSlots fun s k => s.prpCheck e k else s.disableUnit e 4

def execSelftestEnd (e : EngId) (result : U8) (s : State) : Res := .next (s.selfTest e result.toNat)

/-- CU_STAGE_TIMEOUT: a stage that holds a token fails to complete within 1 µs, or a pair shows 11 (R114). -/
def execCuStageTimeout (e : EngId) (s : State) : Res := .next (if s.engOn e then s.disableUnit e 3 else s)

end Sys2Proof.Machine
end

