-- ==== Sys2Proof/Machine/Faults.lean ====
section
/-!
DEFINITION. The fault ledger (R319 to R326): faults read from the dies' queues, recoveries of engines, tiles and quadrants with their
escalation, and quarantine; and the reset, halt and release of an engine (R92 to R94).
-/

namespace Sys2Proof.Machine

/-! ## Engines halted, reset and released (R92 to R94, R139) -/

/-- An engine is halted now, if it is not already; a window that only later engines may take stays with the recovery. -/
def State.haltNow (s : State) (e : Nat) : State :=
  s.updEng e fun g => { (if g.run = 2 then g else g.halted 1) with halt := true }

/-- ENGn_CTRL.RESET: the processor, event enables, counters, deadline and contexts return to their reset values; the engine is left halted with
HALT = 1, and its power-on self-test begins (R92, R139); counts that wait in report registers stay (R162). The latched event bits and the buffered stores go with it (DESIGN CHOICE, log 79). -/
def State.engineReset (s : State) (e : Nat) : State :=
  let s := s.each [0, 1, 2, 3] fun s c => s.withdrawKey e c
  s.updEng e fun g =>
    { g with proc := Proc.init 0, run := 2, hcause := 4, halt := true, haltpc := 0, evRate := false, evPurge := false, even := 0, xferCnt := 0
             xferAck := 0, wdbCnt := 0, wdbAck := 0, dlLo := 0, deadline := 0, dlArm := false, dlHit := false, ipar := 0, dsbe := 0
             ctxs := Tbl.mapv KeyCtx.init g.ctxs (fun k => { KeyCtx.init with heldUse := k.heldUse }), cuTesting := true, cuPeriodic := false, cuRail := false, cuReset := true, cuLast := 0xFF }

/-- HALT = 0: a halted engine runs from ENGn_HALTPC with an empty fetch buffer (R93, R94). -/
def State.engineRelease (s : State) (e : Nat) : State :=
  s.updEng e fun g =>
    if g.run = 2 then { g with halt := false, run := 0, hcause := 0, proc := { g.proc with pc := g.haltpc, stale := [] } } else { g with halt := false }

/-! ## Domains and causes (R319, R320) -/

/-- Engines of one domain of a level: 1 ENGINE, 2 TILE, 3 QUADRANT. -/
def span (lv : Nat) : Nat := match lv with | 1 => 1 | 2 => 8 | 3 => 32 | _ => 0
def domEngines (lv i : Nat) : List Nat := (List.range (span lv)).map (span lv * i + ·)
/-- The tiles of a tile or quadrant domain. -/
def domTiles (lv i : Nat) : List Nat := if lv = 2 then [i] else if lv = 3 then (List.range 4).map (4 * i + ·) else []

/-- Domain (l, i) equals or lies inside domain (L, I); NONE lies in nothing. -/
def domIn (l i L I : Nat) : Bool := l ≠ 0 && l ≤ L && i * span l / span L = I

/-- Level of the natural domain of a cause, and whether its action is "recover" (R319). -/
def faultClass (cause : Nat) : Nat × Bool :=
  if 1 ≤ cause && cause ≤ 5 then (1, true)
  else if cause = 0x10 || cause = 0x11 then (2, false)
  else if cause = 0x12 || cause = 0x13 then (2, true)
  else if cause = 0x20 then (3, true)
  else if cause = 0x21 then (3, false)
  else (0, false)

/-! ## Ledger entries (R324, R325) -/

def State.setFltEntry (s : State) (i : Nat) (x : FltEntry) : State := { s with flt := { s.flt with entries := Tbl.set FltEntry.init s.flt.entries i x } }

/-- STATE, LEVEL, ESC and INDEX of an entry written. -/
def FltEntry.mark (x : FltEntry) (st lv : Nat) (esc : Bool) (index : Nat) : FltEntry :=
  { x with w0 := fields [(28, st), (26, lv), (25, b2n esc), (16, index), (0, fld x.w0.toNat 15 0)] }

/-- A fault falls into an entry: FAULTS and LAST. -/
def FltEntry.bump (x : FltEntry) (cause : Nat) : FltEntry :=
  { x with w3 := fields [(24, min 255 (fld x.w3.toNat 31 24 + 1)), (16, cause), (0, fld x.w3.toNat 15 0)] }

/-- The entry that a new one takes: a FREE one, else the oldest that is not RECOVERING, whose recovery is forgotten (R325). -/
def State.fltAlloc (s : State) : Option (Nat × State) :=
  match (List.range 16).find? fun i => (s.fltEntry i).st = 0 with
  | some i => some (i, s)
  | none =>
    let age := fun i => (s.flt.seq.toNat + 255 - fld (s.fltEntry i).w0.toNat 7 0) % 256
    (((List.range 16).filter fun i => (s.fltEntry i).st ≠ 2).foldl (fun (b : Option Nat) i =>
      match b with | some j => if age j < age i then some i else b | none => some i) none).map fun i =>
        (i, { s with flt := { s.flt with overwrites := satAdd s.flt.overwrites 1, recs := s.flt.recs.filter fun r => r.entry ≠ i } })

/-- A new entry for a fault (R324). -/
def State.fltNew (s : State) (st lv index cause faults : Nat) (time detail : Word) : Option (Nat × State) :=
  s.fltAlloc.map fun (i, s) =>
    let x : FltEntry := { w0 := fields [(28, st), (26, lv), (16, index), (8, cause), (0, s.flt.seq.toNat)], w1 := time, w2 := detail
                          w3 := fields [(24, faults), (16, cause)] }
    (i, { (s.setFltEntry i x) with flt := { (s.setFltEntry i x).flt with seq := s.flt.seq + 1 } })

/-! ## What a recovery or quarantine does to commands (R321 to R323) -/

/-- Engine and slot of an engine's delivered commands without a posted completion. -/
def Engine.unposted (g : Engine) : List Nat := (g.slots.filter fun p => p.2.busy && p.2.delivered && !p.2.posted && !p.2.mute).map Prod.fst

/-- Steps 1 and 2 of R321 for one engine: halted, its transfers ended, its commands completed with Internal Error and its molts moved. The answer
has the controllers of the completed commands. (The outcome UNIT_FAULT of the transfers is DEDUCED, log 46.) -/
def State.engineFail (s : State) (e : Nat) : State × List Nat :=
  let s := s.haltNow e
  let s := s.each (s.eng e).xferSlots fun s k => s.endXfer e k 0x17
  let ks := (s.eng e).unposted
  let fs := ks.map fun k => ((s.eng e).slot k).func
  let s := ks.foldl (fun s k =>
    (s.complete e k 0 0 0x06 false 0).updEng e fun g => g.setSlot k { g.slot k with started := true, pieces := [] }) s
  (s.moltEngineLost e, fs)

def State.enginesFail (s : State) (es : List Nat) : State × List Nat :=
  es.foldl (fun (a : State × List Nat) e => let r := a.1.engineFail e; (r.1, a.2 ++ r.2)) (s, [])

/-- A quadrant stops: EN = 0, and every spilled and gate-held command completes with Internal Error (R321). -/
def State.quadStop (s : State) (q : Nat) : State × List Nat :=
  let held := (s.quad q).gates.flatMap fun p => p.2.held.map Spilled.entry
  let spilled := (s.funcsOf q).flatMap fun f => (s.ctl f).spill.map Spilled.entry
  let s := s.updQuad q fun x => { x with en := false, gates := Tbl.mapv Gate.init x.gates fun g => { g with held := [] } }
  let s := (s.funcsOf q).foldl (fun s f => (s.updCtl f fun c => { c with spill := [] }).updQueue (512 + f) fun x => x.fit 0) s
  ((held ++ spilled).foldl (State.entryFail · 0x06 ·) s, (held ++ spilled).map Entry.func)

/-- FAULT_RECOVERY events for the controllers concerned (R323). -/
def State.recoveryEvents (s : State) (fs : List Nat) (lv index : Nat) : State :=
  s.tenantEvents fs.eraseDups 0x0D none 0 (BitVec.ofNat 32 (lv * 2 ^ 30 + index))

/-! ## Recovery (R320, R321) -/

/-- A recovery begins or restarts: its entry is RECOVERING, its commands end, and it waits for their drive commands. -/
def State.recStart (s : State) (r : Recovery) : State :=
  let s := s.setFltEntry r.entry ((s.fltEntry r.entry).mark 2 r.level r.esc r.index)
  let s := { s with flt := { s.flt with recs := (s.flt.recs.filter fun (x : Recovery) => x.entry ≠ r.entry) ++ [{ r with doneAt := none }] } }
  let q := if r.level = 3 then s.quadStop r.index else (s, [])
  let a := q.1.enginesFail (domEngines r.level r.index)
  a.1.recoveryEvents (q.2 ++ a.2) r.level r.index

/-- Smaller recoveries in progress inside a domain are absorbed by the one of `entry` (R320; their entries become LOGGED, DEDUCED, log 45). -/
def State.absorb (s : State) (lv index : Nat) (entry : Option Nat) : State :=
  let hit := fun (r : Recovery) => r.doneAt.isNone && some r.entry ≠ entry && domIn r.level r.index lv index
  let s := (s.flt.recs.filter hit).foldl (fun s r => s.setFltEntry r.entry ((s.fltEntry r.entry).mark 1 r.level r.esc r.index)) s
  { s with flt := { s.flt with recs := s.flt.recs.filter fun r => !hit r } }

/-! ## Quarantine (R322, R323) -/

/-- The domain equals or lies inside a quarantined one. -/
def State.masked (s : State) (lv i : Nat) : Bool :=
  (lv = 1 && Tbl.get false s.flt.qeng i) || (1 ≤ lv && lv ≤ 2 && s.flt.qtile.getLsbD (i * span lv / 8)) || (1 ≤ lv && s.flt.qquad.getLsbD (i * span lv / 32))

/-- The quarantine mask bit of a domain. -/
def State.setMask (s : State) (lv i : Nat) (on : Bool) : State :=
  { s with flt :=
      if lv = 1 then { s.flt with qeng := Tbl.set false s.flt.qeng i on }
      else if lv = 2 then { s.flt with qtile := if on then s.flt.qtile ||| (1#16 <<< i) else s.flt.qtile &&& ~~~(1#16 <<< i) }
      else { s.flt with qquad := if on then s.flt.qquad ||| (1#4 <<< i) else s.flt.qquad &&& ~~~(1#4 <<< i) } }.scaleFollow

/-- The cost capacity of a tile at its committed rail, in units of 10 MB/s (R237). -/
def State.tileCapacity (s : State) (t : Nat) : Nat :=
  let mv := Tbl.get 900 s.pwr.railC t
  if 900 ≤ mv then 10000 else if 850 ≤ mv then 9200 else if 750 ≤ mv then 7600 else if 650 ≤ mv then 5800 else 3800

/-- The sum of the committed rates of the controllers homed on a tile. -/
def State.homeSum (s : State) (t : Nat) : Nat := ((s.homedOn t).map fun f => (s.ctl f).commit).sum

/-- A tile's domain goes off by the warden's request (R322). -/
def State.tileSwitchOff (s : State) (t : Nat) : State :=
  let s := s.updPwr fun p => { p with domreq := p.domreq &&& ~~~(1#40 <<< t) }
  if s.tileOn t then s.tileDown t else s.railOff t

/-- A re-homed contract that breaks R237 on its new tile is reported (R322, R509). -/
def State.rehomed (s : State) (fs : List Nat) : State :=
  fs.foldl (fun s f =>
    match s.homeTile f with
    | some t => if s.tileCapacity t * 7 < s.homeSum t * 8 then s.tenantEvent f 0x05 4 0 (BitVec.ofNat 32 (256 * t + s.scaleByte t)) else s
    | none => s) s

/-- An engine's slots end with the engine: completed commands release theirs, a completion that waits in the port engine keeps its slot until then,
and spill blocks, queues and grants return (R161, R225, R321). -/
def State.engineClear (s : State) (e : Nat) : State :=
  let blks := ((s.eng e).slots.filterMap fun p => p.2.blk) ++ (s.eng e).grants.map fun g => (g.block, g.run)
  let s := s.updTile (tileOf e) fun t =>
    { t with spUsed := t.spUsed.filter fun y => !blks.any fun b => b.1 ≤ y && y < b.1 + b.2, spq := t.spq.filter fun w => w.eng ≠ e
             spToken := if t.spToken = some e then none else t.spToken }
  let s := ((s.eng e).slots.filter fun p => p.2.busy).foldl (fun s p =>
    if !((s.eng e).slot p.1).busy then s else if p.2.mute && !p.2.posted then s.endQuietly e p.1 else s.dmRel e p.1) s
  s.updEng e fun g => { g with cmdq := [], dcq := [], moltq := [], dmDone := [], grants := [], spOut := 0, dmSlot := 0, dmResult := 0 }

/-- A domain is quarantined (R322). -/
def State.quarantineDomain (s : State) (r : Recovery) : State :=
  let s := s.setFltEntry r.entry ((s.fltEntry r.entry).mark 4 r.level r.esc r.index)
  let s := { s with flt := { s.flt with recs := s.flt.recs.filter fun x => x.entry ≠ r.entry } }
  let before := if r.level = 2 then s.homedOn r.index else if r.level = 3 then s.funcsOf r.index else []
  let s := s.setMask r.level r.index true
  let q := if r.level = 3 then s.quadStop r.index else (s, [])
  let a := q.1.enginesFail (domEngines r.level r.index)
  let s := if r.level = 2 then ((a.1.each (domEngines 2 r.index) State.engineClear).tileSwitchOff r.index).rehomed before
           else if r.level = 3 then before.foldl (fun s f => s.ctlFail f false) a.1 else a.1
  (s.recoveryEvents (q.2 ++ a.2 ++ before) r.level r.index).moltsCheck.captureQuarantine

/-! ## FAULT_EVENT_READ (R319, R320) -/

/-- The recovery that a fault of the domain falls into: in progress, or completed less than 1 s ago; one in progress is taken first (R320). -/
def State.recFor (s : State) (lv i : Nat) : Option Recovery :=
  let l := s.flt.recs.filter fun r => domIn lv i r.level r.index && (match r.doneAt with | none => true | some t => s.now - t < 100000000)
  match l.find? fun r => r.doneAt.isNone with | some r => some r | none => l.head?

/-- A fault falls into a recovery: it escalates by a level, restarts at quadrant level, or is quarantined once escalated (R320). -/
def State.fallInto (s : State) (r : Recovery) (cause : Nat) : State :=
  let s := s.setFltEntry r.entry ((s.fltEntry r.entry).bump cause)
  if r.esc then s.quarantineDomain r
  else
    let r := if r.level < 3 then { r with level := r.level + 1, index := r.index * span r.level / span (r.level + 1), esc := true } else { r with esc := true }
    (s.absorb r.level r.index (some r.entry)).recStart r

/-- A fault is recorded, falls into a recovery, or starts one; none while every entry is RECOVERING (R319, R320, R325). A fault of a quarantined
domain starts no recovery, since the domain stays out of service (R322; DEDUCED, log 45). -/
def State.place (s : State) (f : FaultEvt) : Option State :=
  let c := faultClass f.cause
  let i := if c.1 = 0 then 0 else f.index
  if !c.2 then (s.fltNew 1 c.1 i f.cause 1 f.time f.detail).map Prod.snd
  else match s.recFor c.1 i with
    | some r => some (s.fallInto r f.cause)
    | none =>
      if s.masked c.1 i then
        match (List.range 16).find? fun k => (s.fltEntry k).st = 4 && domIn c.1 i (fld (s.fltEntry k).w0.toNat 27 26) (fld (s.fltEntry k).w0.toNat 22 16) with
        | some k => some (s.setFltEntry k ((s.fltEntry k).bump f.cause))
        | none => some s
      else
        ((s.absorb c.1 i none).fltNew 2 c.1 i f.cause 1 f.time f.detail).map fun (k, s) =>
          s.recStart { level := c.1, index := i, esc := false, entry := k, doneAt := none }

/-- FAULT_EVENT_READ: the warden reads the head of a die's fault event queue. -/
def execFaultEventRead (die : Bool) (s : State) : Res :=
  .next (
    if !s.fwUp || !(s.queue (1540 + b2n die)).en then s
    else match (if die then s.flt.events1 else s.flt.events0) with
    | [] => s
    | f :: rest =>
      let s' := { s with flt := if die then { s.flt with events1 := rest } else { s.flt with events0 := rest } }
      (s'.place f).getD s)

/-! ## RECOVERY_DRAIN_DONE (R321) -/

/-- Every drive command of the engine's slots has been answered, or ended by a reset or quarantine. -/
def Engine.drained (g : Engine) : Bool := g.slots.all fun p => match p.2.drv with | some d => d.answered | none => true

/-- An engine after step 4: tested, with its image, and released unless it failed or is quarantined. -/
def State.engineBack (s : State) (e code : Nat) (data : Bool) : State :=
  let s := (s.selfTest e code).loadLane e data
  if (s.eng e).cuFault || Tbl.get false s.flt.qeng e then s else s.engineRelease e

/-- A tile is purged and its domain switched off and on; its wrapping key is delivered (R147, R321). -/
def State.tileCycle (s : State) (t : Nat) : State :=
  let s := s.each (enginesOf t) State.engineClear
  let s := if s.tileOn t then ((s.purgeTile t (fun _ => true) true).1).tileDown t else s
  if !s.domAllowed t true then s
  else
    let s := (s.updPwr fun p => { p with domreq := p.domreq ||| (1#40 <<< t) }).railOn t
    if !(s.pwr.rail t).driven then s
    else
      let s := (s.tileUp t).tileSetUp t
      match s.vault.wk with
      | some k => if s.vault.line.isEmpty then s.updTile t fun x => { x with wk := some (k, s.vault.epoch) } else s
      | none => s

/-- The admission table of a quadrant is written anew from the contracts in force; its gates stand as the molts' windows left them (R321). -/
def State.quadRebuild (s : State) (q : Nat) : State :=
  (s.funcsOf q).foldl (fun s f => if (s.ctl f).tenant then s.setContract f (s.ctl f).admw0 (s.ctl f).admw1 else s) s

/-- RECOVERY_DRAIN_DONE: the drive commands of a recovering domain have ended, and it is reset or switched off and on, tested, loaded and released.
The engines listed fail their self-test with the code given, which leaves the recovery in progress (R321). -/
def execRecoveryDrainDone (entry : Fin 16) (fails : List Nat) (code : Fin 5) (s : State) : Res :=
  .next (
    match s.flt.recs.find? fun r => r.entry = entry.toNat && r.doneAt.isNone with
    | none => s
    | some r =>
      let es := domEngines r.level r.index
      let ts := (domTiles r.level r.index).filter fun t => r.level = 2 || !s.flt.qtile.getLsbD t
      if !s.fwUp || !es.all fun e => (s.eng e).drained then s
      else
        let s := if r.level = 1 then (s.engineClear r.index).engineReset r.index else ts.foldl State.tileCycle s
        if !(ts.all s.tileOn) then s
        else
          let s := (es.filter s.engOn).foldl (fun s e => s.engineBack e (if fails.contains e then max 1 code.val else 0) (r.level ≠ 1)) s
          if es.any fun e => s.engOn e && (s.eng e).cuFault then s
          else
            let s := if r.level = 3 then (s.quadRebuild r.index).updQuad r.index fun q => { q with en := true } else s
            let x := (s.fltEntry entry).mark 3 r.level r.esc r.index
            let s := s.setFltEntry entry { x with w3 := fields [(16, fld x.w3.toNat 31 16), (0, fld s.now 25 10)] }
            { s with flt := { s.flt with recs := s.flt.recs.map fun y => if y.entry = r.entry then { y with doneAt := some s.now } else y } })

/-- FAULT_CLEAR: a quarantined domain leaves its mask, and a recovery of it runs that counts as escalated; none while no entry can be had (R322). -/
def State.faultClear (s : State) (lv i : Nat) : Option State :=
  let hit := (List.range 16).find? fun k =>
    (s.fltEntry k).st = 4 && fld (s.fltEntry k).w0.toNat 27 26 = lv && fld (s.fltEntry k).w0.toNat 22 16 = i
  let s := s.setMask lv i false
  match (match hit with | some k => some (k, s) | none => s.fltNew 2 lv i 0 0 (s.time.truncate 32) 0) with
  | none => none
  | some (k, s) => some (s.recStart { level := lv, index := i, esc := true, entry := k, doneAt := none })

end Sys2Proof.Machine
end

