-- ==== Sys2Proof/Machine/Nvme.lean ====
section
/-!
DEFINITION. The admin commands of the virtual controllers as warden firmware serves them (R209 to R218, R239, R241, R242, R286). A row serves the
oldest admin entry of its controller when that entry has the row's opcode. The places of fields inside a submission entry, a log page or an
Identify structure are those of NVMe Base 2.0 (PRESUMED, log 47).
-/

namespace Sys2Proof.Machine

/-! ## Serving an entry -/

/-- Opcodes of R216. -/
def adminOpcode (op : Nat) : Bool := [0x00, 0x01, 0x02, 0x04, 0x05, 0x06, 0x08, 0x09, 0x0A, 0x0C, 0x80, 0x84].contains op

/-- Dword `i` of an entry as a number. -/
def wd (w : List Word) (i : Nat) : Nat := (w.getD i 0).toNat
/-- Command identifier of an entry. -/
def cidOf (w : List Word) : Nat := fld (wd w 0) 31 16

/-- One of the listed dwords of an entry is nonzero. -/
def anyDw (w : List Word) (l : List Nat) : Bool := l.any fun i => wd w i ≠ 0

/-- A fused command, PSDT, the metadata pointer or another field that is reserved in every admin command is nonzero (R242). -/
def adminBad (w : List Word) : Bool := fld (wd w 0) 15 8 ≠ 0 || wd w 2 ≠ 0 || wd w 3 ≠ 0 || wd w 4 ≠ 0 || wd w 5 ≠ 0

/-- The oldest admin entry of a controller leaves the forward queue and is served by `body`, which may find that it must wait; an entry with an
opcode outside R216, or a nonzero reserved field, is refused. -/
def State.serve (s : State) (f op : Nat) (reserved : List Word → Bool) (body : State → List Word → Option State) : Res :=
  .next (
    let q := s.funcQuad f
    match (s.quad q).admin.find? fun x => x.1 = f with
    | none => s
    | some (_, w) =>
      let s' := s.updQuad q fun x => { x with admin := x.admin.erase (f, w) }
      let o := fld (wd w 0) 7 0
      if !s.fwUp then s
      else if !adminOpcode o then s'.adminDone f (cidOf w) 0 0 0x01 true
      else if o ≠ op then s
      else if adminBad w || reserved w then (s'.countViolation f).adminDone f (cidOf w) 0 0 0x02 true
      else (body s' w).getD s)

/-- The entry completes with a status, or successfully with dword 0. -/
def State.adminErr (s : State) (f : Nat) (w : List Word) (sct sc : Nat) : Option State := some (s.adminDone f (cidOf w) 0 sct sc true)
def State.adminOk (s : State) (f : Nat) (w : List Word) (dw0 : Word) : Option State := some (s.adminDone f (cidOf w) dw0 0 0 false)

/-- The entry returns data and completes; PRP1 must be dword aligned (R239). -/
def State.adminData (s : State) (f : Nat) (w : List Word) (data : List Byte) : Option State :=
  if wd w 6 % 4 ≠ 0 then s.adminErr f w 0 0x13
  else (s.hostSend f (.admin (cidOf w) (pair64 (w.getD 6 0) (w.getD 7 0)) (pair64 (w.getD 8 0) (w.getD 9 0)) data)).adminOk f w 0

/-! ## Queues (R209, R216, R241) -/

/-- I/O queues of a function (R209). -/
def ioQueues (f : Nat) : Nat := if f % 256 = 0 then 64 else 16

/-- CREATE_IO_CQ. -/
def execCreateIoCq (f : FuncId) (s : State) : Res :=
  s.serve f 0x05 (fun w => fld (wd w 11) 15 2 ≠ 0 || anyDw w [8, 9, 12, 13, 14, 15]) fun s w =>
    let id := fld (wd w 10) 15 0
    let size := fld (wd w 10) 31 16
    let v := fld (wd w 11) 31 16
    if id = 0 || ioQueues f < id || ((s.ctl f).cq id).live then s.adminErr f w 1 0x01
    else if size = 0 || 0x0FFF < size then s.adminErr f w 1 0x02
    else if !bitOf (wd w 11) 0 then s.adminErr f w 0 0x02
    else if vectorsOf f ≤ v then s.adminErr f w 1 0x08
    else if wd w 6 % 4096 ≠ 0 then s.adminErr f w 0 0x13
    else (s.updCtl f fun c => c.setCq id { Cq.init with live := true, size := size + 1, vector := v, irq := bitOf (wd w 11) 1
                                                        base := pair64 (w.getD 6 0) (w.getD 7 0) }).adminOk f w 0

/-- CREATE_IO_SQ: PC = 1 only, QPRIO ignored (R216). -/
def execCreateIoSq (f : FuncId) (s : State) : Res :=
  s.serve f 0x01 (fun w => fld (wd w 11) 15 3 ≠ 0 || fld (wd w 12) 31 16 ≠ 0 || anyDw w [8, 9, 13, 14, 15]) fun s w =>
    let id := fld (wd w 10) 15 0
    let size := fld (wd w 10) 31 16
    let cq := fld (wd w 11) 31 16
    if cq = 0 || !((s.ctl f).cq cq).live then s.adminErr f w 1 0x00
    else if id = 0 || ioQueues f < id || ((s.ctl f).sq id).live then s.adminErr f w 1 0x01
    else if size = 0 || 0x0FFF < size then s.adminErr f w 1 0x02
    else if !bitOf (wd w 11) 0 then s.adminErr f w 0 0x02
    else if wd w 6 % 4096 ≠ 0 then s.adminErr f w 0 0x13
    else (s.updCtl f fun c => c.setSq id { Sq.init with live := true, size := size + 1, cq := cq, base := pair64 (w.getD 6 0) (w.getD 7 0) }).adminOk f w 0

/-- DELETE_IO_CQ: refused while a submission queue uses it. -/
def execDeleteIoCq (f : FuncId) (s : State) : Res :=
  s.serve f 0x04 (fun w => fld (wd w 10) 31 16 ≠ 0 || anyDw w [6, 7, 8, 9, 11, 12, 13, 14, 15]) fun s w =>
    let id := fld (wd w 10) 15 0
    if id = 0 || !((s.ctl f).cq id).live then s.adminErr f w 1 0x01
    else if (s.ctl f).sqs.any fun p => p.2.live && p.2.cq = id then s.adminErr f w 1 0x0C
    else (s.updCtl f fun c => c.setCq id Cq.init).adminOk f w 0

/-- DELETE_IO_SQ: the deletion wins over the queue's commands: spilled and held entries and waiting completions are discarded, and the command
completes after the last command of the queue has ended (R241). -/
def execDeleteIoSq (f : FuncId) (s : State) : Res :=
  s.serve f 0x00 (fun w => fld (wd w 10) 31 16 ≠ 0 || anyDw w [6, 7, 8, 9, 11, 12, 13, 14, 15]) fun s w =>
    let f : Nat := f
    let id := fld (wd w 10) 15 0
    let q := (s.ctl f).sq id
    if id = 0 || !q.live || q.deleting.isSome then s.adminErr f w 1 0x01
    else
      let gone := (s.ctl f).waitCpl.filter fun c => c.sqid = id
      let s := (s.dropEntries f (some id)).updCtl f fun c =>
        { c.setSq id { c.sq id with deleting := some (cidOf w) } with waitCpl := c.waitCpl.filter fun x => x.sqid ≠ id }
      some ((((gone.foldl State.cplSent s).endCommands f (some id)).endCheck f).cplDrain f)

/-! ## Abort (R241) -/

/-- Entry of controller `f`'s queue with a CID that waits in a spill queue or behind a gate. -/
def Spilled.isCmd (x : Spilled) (f sq cid : Nat) : Bool :=
  x.entry.func = f && x.entry.sqid = sq && fld (x.entry.sqe.getD 0 0).toNat 31 16 = cid && !x.entry.conflict

/-- No doorbell has been rung for a drive command of the command in slot `k`. -/
def Engine.unissued (g : Engine) (k : Nat) : Bool := !(g.slot k).rung && (g.parts k).isEmpty

/-- ABORT: a command none of whose drive commands has been issued completes with Command Abort Requested; of any other, dword 0 says that it was not
aborted. -/
def execAbort (f : FuncId) (s : State) : Res :=
  s.serve f 0x08 (fun w => anyDw w [6, 7, 8, 9, 11, 12, 13, 14, 15]) fun s w =>
    let f : Nat := f
    let sq := fld (wd w 10) 15 0
    let cid := fld (wd w 10) 31 16
    let q := s.funcQuad f
    if sq = 0 then
      (if (s.ctl f).aers.contains cid then
        ((s.updCtl f fun c => { c with aers := c.aers.erase cid }).adminDone f cid 0 0 0x07 false).adminOk f w 0
       else s.adminOk f w 1)
    else
      match ((s.ctl f).spill ++ (s.quad q).gates.flatMap fun p => p.2.held).find? fun x => x.isCmd f sq cid with
      | some x =>
        let s := s.updCtl f fun c => { c with spill := c.spill.filter fun y => !y.isCmd f sq cid }
        let s := s.updQueue (512 + f) fun y => y.fit (5 * (s.ctl f).spill.length)
        let s := s.updQuad q fun y => { y with gates := Tbl.mapv Gate.init y.gates fun g => { g with held := g.held.filter fun z => !z.isCmd f sq cid } }
        (s.entryFail 0x07 x.entry).adminOk f w 0
      | none =>
        match (s.cmdsOf f (some sq)).find? fun p => ((s.eng p.1).slot p.2).cid = cid && !((s.eng p.1).slot p.2).conflict with
        | some (e, k) =>
          if (s.eng e).unissued k && !((s.eng e).slot k).mute then ((s.complete e k 0 0 0x07 false 0).dmRel e k).adminOk f w 0 else s.adminOk f w 1
        | none => s.adminOk f w 1

/-! ## Identify (R209, R211 to R213) -/

/-- A structure of `n` bytes with the numbers given at (offset, width, value). -/
def struct (n : Nat) (l : List (Nat × Nat × Nat)) : List Byte := l.foldl (fun b p => patch b p.1 (leBytes p.2.1 p.2.2)) (List.replicate n 0)

/-- Identify Namespace of an attached namespace: sizes, one LBA format, and write protection (R211, R213). -/
def identNs (n : Ns) : List Byte :=
  struct 4096 [(0, 8, n.nsze), (8, 8, n.nsze), (16, 8, n.nsze), (99, 1, b2n n.wp), (128, 4, n.lbads * 2 ^ 16)]

/-- Identify Controller (R209, R211, R485); serial, model and firmware strings, IEEE and CNTLID fields are free (log 47). -/
def State.identCtl (s : State) : List Byte × State :=
  let d := s.freshBytes 76
  (patch (struct 4096 [(0, 2, 0x1F4C), (2, 2, fld s.glb.pcisub.toNat 15 0), (77, 1, 9), (80, 4, 0x00020000), (128, 2, 1), (130, 2, 5), (132, 2, 10)
                      , (256, 2, 2), (259, 1, 3), (260, 1, 3), (262, 1, 63), (328, 4, 1), (512, 1, 0x66), (513, 1, 0x44), (516, 4, 1024), (520, 2, 4)
                      , (524, 1, 4), (525, 1, 0), (536, 4, 0)]) 4 (d.1.take 68) |> fun b => patch b 73 ((d.1.drop 68).take 3) |> fun b => patch b 78 ((d.1.drop 72).take 2), d.2)

/-- NSIDs attached to a controller, ascending. -/
def State.nsids (s : State) (f : Nat) : List Nat := ((s.ctl f).attach.map Prod.fst).filter fun n => (s.nsOf f n).isSome

/-- NVME_IDENTIFY: CNS 0 to 3 (R216). -/
def execNvmeIdentify (f : FuncId) (s : State) : Res :=
  s.serve f 0x06 (fun w => fld (wd w 10) 15 8 ≠ 0 || fld (wd w 11) 23 16 ≠ 0 || fld (wd w 14) 31 7 ≠ 0 || anyDw w [12, 13, 15]) fun s w =>
    let nsid := wd w 1
    match fld (wd w 10) 7 0 with
    | 0 =>
      if nsid = 0 || 1024 < nsid then s.adminErr f w 0 0x0B
      else s.adminData f w (match s.nsOf f nsid with | some x => identNs (s.ns x) | none => List.replicate 4096 0)
    | 1 => let r := s.identCtl; r.2.adminData f w r.1
    | 2 =>
      if 0xFFFFFFFE ≤ nsid then s.adminErr f w 0 0x0B
      else s.adminData f w (padTo 4096 ((s.nsids f).filter (nsid < ·) |>.flatMap (leBytes 4)))
    | 3 =>
      if (s.nsOf f nsid).isNone then s.adminErr f w 0 0x0B
      else let r := s.freshBytes 16; r.2.adminData f w (padTo 4096 ([3, 16, 0, 0] ++ r.1))
    | _ => s.adminErr f w 0 0x02

/-! ## Log pages (R216, R218) -/

/-- One entry of the Error Information log, `n` the count it had. -/
def errEntry (n : Nat) (c : Cpl) : List Byte :=
  struct 64 [(0, 8, n), (8, 2, c.sqid), (10, 2, c.cid), (12, 2, 2 * c.sc + 512 * c.sct + 32768 * b2n c.dnr), (14, 2, 0xFFFF)]

/-- A log page's whole content; nothing for a page that R216 does not list. SMART fields and the firmware revision that the spec does not give are
free (log 47). -/
def State.logPage (s : State) (f lid : Nat) : Option (List Byte × State) :=
  let c := s.ctl f
  match lid with
  | 0x01 => some (padTo 4096 (c.errors.zipIdx.flatMap fun p => errEntry (c.errTotal - p.2) p.1), s)
  | 0x02 =>
    let d := s.freshBytes 512
    let b := patch d.1 0 ([if c.tempWarn s.glb.tj then 2 else 0] ++ leBytes 2 (s.glb.tj.toInt + 273).toNat)
    let b := patch b 32 (leBytes 16 ((c.ledger.bytesRead + 511999) / 512000) ++ leBytes 16 ((c.ledger.bytesWritten + 511999) / 512000)
      ++ leBytes 16 c.smartReads ++ leBytes 16 c.smartWrites)
    some (patch b 176 (leBytes 16 c.errTotal), d.2)
  | 0x03 => let d := s.freshBytes 8; some (padTo 512 ([1, 0, 0, 0, 0, 0, 0, 0] ++ d.1), d.2)
  | 0x04 => some (padTo 4096 (c.changed.flatMap (leBytes 4)), s)
  | 0x05 =>
    let adm := (List.range 256).flatMap fun op => leBytes 4 (if adminOpcode op then 1 + 2 * b2n (op = 0x80 || op = 0x84) else 0)
    let io := (List.range 256).flatMap fun op => leBytes 4 (if ioOpcode op then 1 + 2 * b2n (op = 1 || op = 9) else 0)
    some (padTo 4096 (adm ++ io), s)
  | 0x81 =>
    let d := s.fresh 16
    some (struct 512 [(0, 2, if c.sanitize = 2 then d.1.toNat else 0xFFFF), (2, 2, c.sanitize), (4, 4, if c.sanitize = 0 then 0 else 4)], d.2)
  | _ => none

/-- GET_LOG_PAGE: the dwords asked for from the offset given; a read of the Changed Namespace List clears it unless RAE is set. -/
def execGetLogPage (f : FuncId) (s : State) : Res :=
  s.serve f 0x02 (fun w => fld (wd w 14) 22 7 ≠ 0 || wd w 15 ≠ 0) fun s w =>
    let n := 4 * (fld (wd w 10) 31 16 + 2 ^ 16 * fld (wd w 11) 15 0 + 1)
    let off := wd w 12 + 2 ^ 32 * wd w 13
    match s.logPage f (fld (wd w 10) 7 0) with
    | none => s.adminErr f w 1 0x09
    | some (b, s) =>
      if off % 4 ≠ 0 || b.length < off then s.adminErr f w 0 0x02
      else
        let s := if fld (wd w 10) 7 0 = 4 && !bitOf (wd w 10) 15 then s.updCtl f fun c => { c with changed := [] } else s
        s.adminData f w (padTo (min n (b.length - off)) (b.drop off))

/-! ## Features (R216, R286) -/

/-- Features of R216 but Volatile Write Cache. -/
def featureId (k : Nat) : Bool := [0x01, 0x02, 0x04, 0x07, 0x08, 0x09, 0x0B, 0x16].contains k

/-- Key of a feature's value: the temperature threshold has one per threshold and sensor, and "all sensors" is taken as the composite temperature. -/
def featKey (k dw11 : Nat) : Nat :=
  if k = 4 then 4 + 256 * (16 * fld dw11 21 20 + (if fld dw11 19 16 = 15 then 0 else fld dw11 19 16) + 1) else k

/-- SET_FEATURES, with the 512 bytes of Host Behavior Support where that is set. -/
def execSetFeatures (f : FuncId) (data : Bytes) (s : State) : Res :=
  s.serve f 0x09 (fun w => fld (wd w 10) 30 8 ≠ 0 || (fld (wd w 10) 7 0 = 4 && fld (wd w 11) 31 22 ≠ 0) || fld (wd w 14) 31 7 ≠ 0 || anyDw w [12, 13, 15]) fun s w =>
    let k := fld (wd w 10) 7 0
    let v := wd w 11
    let top := ioQueues f - 1
    let put := fun (x : Nat) (dw0 : Word) => (s.updCtl f fun c => { c with feats := Tbl.set 0 c.feats (featKey k v) (BitVec.ofNat 32 x) }).adminOk f w dw0
    if !featureId k then s.adminErr f w 0 0x02
    else if bitOf (wd w 10) 31 then s.adminErr f w 1 0x0D
    else match k with
    | 0x02 => if v ≠ 0 then s.adminErr f w 0 0x02 else put 0 0
    | 0x04 =>
      let was := (s.ctl f).tempWarn s.glb.tj
      if 1 < fld v 21 20 then s.adminErr f w 0 0x02
      else ((s.updCtl f fun c => { c with feats := Tbl.set 0 c.feats (featKey 4 v) (BitVec.ofNat 32 (2 ^ 31 + fld v 15 0)) }).tempEvent f was).adminOk f w 0
    | 0x07 =>
      let a := min (fld v 15 0) top
      let b := min (fld v 31 16) top
      if fld v 15 0 = 0xFFFF || fld v 31 16 = 0xFFFF then s.adminErr f w 0 0x02
      else if (s.ctl f).sqs.any (fun p => p.1 ≠ 0 && p.2.live) || (s.ctl f).cqs.any (fun p => p.1 ≠ 0 && p.2.live) then s.adminErr f w 0 0x0C
      else put (b * 2 ^ 16 + a) (BitVec.ofNat 32 (b * 2 ^ 16 + a))
    | 0x09 =>
      let i := fld v 15 0
      if vectorsOf f ≤ i || 2 ^ 17 ≤ v then s.adminErr f w 0 0x02
      else (s.updCtl f fun c => c.setVec i { c.vec i with coalesceOff := bitOf v 16 }).adminOk f w 0
    | 0x16 =>
      if wd w 6 % 4 ≠ 0 then s.adminErr f w 0 0x13
      else if 1 < leAt data 0 1 then s.adminErr f w 0 0x02
      else (s.updCtl f fun c => { c with acre := leAt data 0 1 = 1 }).adminOk f w 0
    | _ => put v 0

/-- GET_FEATURES: the current value; no other value can be selected. -/
def execGetFeatures (f : FuncId) (s : State) : Res :=
  s.serve f 0x0A (fun w => fld (wd w 10) 31 8 ≠ 0 || fld (wd w 14) 31 7 ≠ 0 || anyDw w [12, 13, 15]) fun s w =>
    let k := fld (wd w 10) 7 0
    let c := s.ctl f
    let v := wd w 11
    if !featureId k then s.adminErr f w 0 0x02
    else match k with
    | 0x07 =>
      let top := ioQueues f - 1
      let x := Tbl.get 0 c.feats 7
      s.adminOk f w (if x = 0 then BitVec.ofNat 32 (top * 2 ^ 16 + top) else x)
    | 0x09 =>
      let i := fld v 15 0
      if vectorsOf f ≤ i then s.adminErr f w 0 0x02 else s.adminOk f w (BitVec.ofNat 32 (b2n (c.vec i).coalesceOff * 2 ^ 16 + i))
    | 0x16 => s.adminData f w (padTo 512 [BitVec.ofNat 8 (b2n c.acre)])
    | 0x04 =>
      let x := Tbl.get 0 c.feats (featKey 4 v)
      s.adminOk f w (if x.getLsbD 31 then x &&& 0xFFFF else if fld v 21 20 = 0 then 0xFFFF else 0)
    | _ => s.adminOk f w (Tbl.get 0 c.feats (featKey k v))

/-- ASYNC_EVENT_REQUEST: at most four are outstanding; one completes at once with an event that waits (R209). -/
def execAsyncEventRequest (f : FuncId) (s : State) : Res :=
  s.serve f 0x0C (fun w => anyDw w [6, 7, 8, 9, 10, 11, 12, 13, 14, 15]) fun s w =>
    match (s.ctl f).aens with
    | e :: rest => (s.updCtl f fun c => { c with aens := rest }).adminOk f w e
    | [] => if 4 ≤ (s.ctl f).aers.length then s.adminErr f w 1 0x05 else some (s.updCtl f fun c => { c with aers := c.aers ++ [cidOf w] })

/-! ## Format NVM and Sanitize (R178, R218) -/

/-- A crypto-erase for an admin command begins, the tiles listed being late; it waits while two erases run (R341, R391). -/
def State.adminErase (s : State) (x : Erase) (flag : Nat) (late : List Nat) : Option State :=
  if 2 ≤ s.erases.length || s.vault.regBusy = 3 then none
  else some ((x.busy.foldl (fun s n => s.updNs n fun y => { y with busy := flag }) s).eraseStart x late)

/-- FORMAT_NVM. -/
def execFormatNvm (f : FuncId) (late : List TileId) (s : State) : Res :=
  s.serve f 0x80 (fun w => fld (wd w 10) 31 14 ≠ 0 || anyDw w [6, 7, 8, 9, 11, 12, 13, 14, 15]) fun s w =>
    let nsid := wd w 1
    let ses := fld (wd w 10) 11 9
    let all := (s.nsids f).filterMap (s.nsOf f)
    let one := s.nsOf f nsid
    if nsid ≠ 0xFFFFFFFF && one.isNone then s.adminErr f w 0 0x0B
    else if fld (wd w 10) 8 0 ≠ 0 || fld (wd w 10) 13 12 ≠ 0 then s.adminErr f w 1 0x0A
    else if 2 < ses then s.adminErr f w 0 0x02
    else if ses = 0 then s.adminOk f w 0
    else match (if nsid = 0xFFFFFFFF then all.eraseDups else one.toList) with
    | [] => s.adminOk f w 0
    | n :: rest =>
      s.adminErase { mkErase 1 f (some (cidOf w)) 1 n with targets := s.eraseTargets 1 n, rest := rest, busy := n :: rest } 1 (late.map fun t => t.toNat)

/-- SANITIZE. -/
def execSanitize (f : FuncId) (late : List TileId) (s : State) : Res :=
  s.serve f 0x84 (fun w => fld (wd w 10) 31 10 ≠ 0 || anyDw w [6, 7, 8, 9, 12, 13, 14, 15]) fun s w =>
    let f : Nat := f
    match fld (wd w 10) 2 0 with
    | 1 => s.adminOk f w 0
    | 4 =>
      let ts := s.eraseTargets 2 f
      if s.erases.any fun x => x.origin = 2 && x.page = f then none
      else (s.updCtl f fun c => { c with sanitize := 2 }).adminErase
        { mkErase 2 f (some (cidOf w)) 2 f with targets := ts, busy := (ts.map fun t => t.1).eraseDups } 2 (late.map fun t => t.toNat)
    | _ => s.adminErr f w 0 0x02

end Sys2Proof.Machine
end

