-- ==== Sys2Proof/Machine/PowerState.lean ====
section
/-!
DEFINITION. The power states (R441 to R447), wakes (R380 to R382), and what the host writes in CC (R336, R456).
-/

namespace Sys2Proof.Machine

/-! ## The steps of BASKING and their reverse (R443, R444) -/

/-- Slots of port groups that carry a downstream port under their mode. -/
def State.downSlots (s : State) : List (Nat × Nat) :=
  ((List.range 16).flatMap fun g => [(g, 0), (g, 1)]).filter fun p => s.carriesPort p.1 p.2 && !(s.group p.1).dirUp p.2

/-- Every count of a tile's cache and buffer is added to its record (R165). -/
def State.tileDrain (s : State) (t : Nat) : State :=
  (List.range 32).foldl (fun s _ =>
    let s := s.moveDeltas t false
    let s := ((s.tile t).wb.foldl (fun s x => s.addUsage t x) s).updTile t fun x => { x with wb := [], wbPromoted := false }
    (s.drainHeld t).flushCheck t) s

/-- A downstream group without an enabled slot goes off. -/
def State.groupIdleOff (s : State) (g : Nat) : State :=
  if (s.group g).en = 0 && s.domOn (16 + g) then
    (s.updPwr fun p => { p with domreq := p.domreq &&& ~~~(1#40 <<< (16 + g)) }).groupDown g
  else s

/-- Step `k` of R443. -/
def State.baskStep (s : State) (k : Nat) : State :=
  match k with
  | 1 => (List.range 64).foldl (fun s d => if s.drvActive d then s.driveCc d 0x00464001 else s) s
  | 2 =>
    let ps := s.downSlots
    let s := ps.foldl (fun s p => (s.perstDown p.1 p.2 true).slotEnable p.1 p.2 false) s
    (ps.map Prod.fst).eraseDups.foldl State.groupIdleOff s
  | 3 =>
    let s := s.each (List.range 128) fun s e => if s.engOn e then s.haltNow e else s
    let s := s.tilesOn.foldl (fun s t => (s.tileDrain t).tileSwitchOff t) s
    s.each [0, 1, 2, 3] fun s q => s.updQuad q fun x => { x with en := false }
  | 4 => s.updPwr fun p => { p with selfRef := 0xFFFF, pdown := 0 }
  | 5 => s.updPwr fun p => { p with state := 1 }
  | _ => s

/-- A tile is switched on, tested, loaded and released (R444). -/
def State.tileStart (s : State) (t : Nat) : State :=
  if s.flt.qtile.getLsbD t || s.tileOn t then s
  else
    let s := s.tileCycle t
    if s.tileOn t then (enginesOf t).foldl (fun s e => s.engineBack e 0 true) s else s

/-- CSTS.RDY of a controller that has CC.EN = 1 (R456): the durable store is loaded or refused, or the part
defaulted, and warden firmware runs. -/
def State.rdyCheck (s : State) (f : Nat) : State :=
  if s.fwUp && (s.boot.store ≠ 0 || s.cfgDefaulted) && (s.ctl f).ccEn && !(s.ctl f).ending && s.pwr.mode = 0 then s.updCtl f fun c => { c with rdy := true } else s

/-- The exit from BASKING, or the reverse of entry steps already taken; drives are brought up as their links come (R304, R444). -/
def State.baskExit (s : State) : State :=
  let s := s.updPwr fun p => { p with selfRef := 0 }
  let s := (List.range 16).foldl State.tileStart s
  let s := s.each [0, 1, 2, 3] fun s q => if s.flt.qquad.getLsbD q then s else s.updQuad q fun x => { x with en := true }
  let ps := s.downSlots
  let s := (ps.map Prod.fst).eraseDups.foldl (fun s g =>
    if s.domOn (16 + g) || !s.domAllowed (16 + g) true then s
    else (s.updPwr fun p => { p with domreq := p.domreq ||| (1#40 <<< (16 + g)) }).setDom (16 + g) true) s
  let s := ps.foldl (fun s p => (s.slotEnable p.1 p.2 true).perstDown p.1 p.2 false) s
  let s := s.updPwr fun p => { p with state := 0 }
  s.funcs.foldl State.rdyCheck s

/-- The exit from BASKING for a source of R382. -/
def State.wakeExit (s : State) : State := if s.pwr.mode = 1 && s.fwUp && !(1 ≤ s.pwr.stage) then s.baskExit else s

/-! ## Wakes (R380 to R382) -/

/-- EN, POL and LEVEL of a wake pin (R391). -/
def Vault.wakeEn (v : Vault) (k : Nat) : Bool := bitOf (Tbl.get 0 v.wakecfg k).toNat 2
def Vault.wakePol (v : Vault) (k : Nat) : Bool := bitOf (Tbl.get 0 v.wakecfg k).toNat 1
def Vault.wakeLevel (v : Vault) (k : Nat) : Bool := bitOf (Tbl.get 0 v.wakecfg k).toNat 0

/-- An enabled level wake pin is active (R381, R442). -/
def Vault.wakeActive (v : Vault) : Bool := (List.range 8).any fun k => v.wakeEn k && v.wakeLevel k && v.wakePin.getLsbD k = v.wakePol k

/-- WAKE: edges or levels of the pins in `mask` are accepted in one resolution, `first` resolved first; `levels` are the pins' levels after it. An
enabled pin at its active level is recorded, and starts the exit to ACTIVE from BASKING, or from BRUMATION with VIN present (R380 to R382, R446). -/
def execWake (first : Fin 8) (mask levels : U8) (s : State) : Res :=
  .next (
    let s := s.updVault fun v => { v with wakePin := levels }
    let hit := (List.range 8).filter fun k => mask.getLsbD k && s.vault.wakeEn k && levels.getLsbD k = s.vault.wakePol k
    match hit with
    | [] => s
    | low :: _ =>
      let src := if hit.contains first.toNat then first.toNat else low
      let s := s.wakeRecord src (BitVec.ofNat 8 ((hit.map fun k => 2 ^ k).sum))
      if s.pwr.vinOn then s.wakeExit
      else if 6000 ≤ s.pwr.vin then s.vinReset.bringUp (if s.pwr.thermalOff then 4 else 3)
      else s)

/-! ## POWER_STATE (R442 to R447) -/

/-- A page holds a PENDING erase request (R181, R442). -/
def State.erasePendingPage (s : State) : Bool := s.pages.any fun p => p.2.st = 1 && Memory.num p.2.area 0 2 = 0x0105

/-- The first row of R442 that answers a target state, or 0. -/
def State.powerCheck (s : State) (target : Nat) (force : Bool) : Nat :=
  if s.pwr.mode = target then 1
  else if 1 ≤ s.pwr.stage then 2
  else if s.erasesOpen ≠ 0 || s.erasePendingPage then 3
  else if s.molts.any fun p => p.2.st = 2 || p.2.st = 4 then 4
  else if !force && s.funcs.any (fun f => (s.ctl f).ccEn) then 5
  else if target = 2 && (s.vault.nohold || s.pwr.vhold < 6000) then 6
  else if s.vault.wakeActive then 7
  else 0

/-- FORCE: every enabled controller is shut down as by a function level reset, before an entry (R442). -/
def State.forceDown (s : State) : State := (s.funcs.filter fun f => (s.ctl f).ccEn).foldl State.funcReset s

/-- An entry that stopped before its step `stop`: the steps taken are reversed, and ABORTED goes into the retained warden area (R443; at byte 320,
log 42). -/
def State.entryAborted (s : State) (from_ stop : Nat) : State :=
  let s := ((List.range stop).filter fun k => 1 ≤ k && from_ = 0).foldl State.baskStep s
  let s := if from_ = 0 && 1 < stop then s.baskExit else s
  s.updVault fun v => { v with warea := Memory.put v.warea 320 [8#8] }

/-- POWER_STATE with its payload beyond the target: FLAGS and the reserved bytes; a refused one answers its result (R442). -/
def State.powerState (s : State) (p target : Nat) (flags : U8) (rsv : BitVec 16) (enter : State → State) : Res :=
  s.imdex p 0x0503 fun s =>
    if 1 < flags.toNat then s.respond p 8 1 []
    else if rsv ≠ 0 then s.respond p 8 (if fld rsv.toNat 7 0 ≠ 0 then 2 else 3) []
    else
      let r := s.powerCheck target (flags = 1)
      if r ≠ 0 then s.respond p 0 0 [BitVec.ofNat 8 r]
      else
        let s := s.respond p 0 0 [0]
        enter (if flags = 1 && target ≠ 0 then s.forceDown else s)

/-- POWER_STATE_ACTIVE: the exit from BASKING, recorded with source OPERATOR (R382, R444). -/
def execPowerStateActive (p : PageId) (flags : U8) (rsv : BitVec 16) (s : State) : Res :=
  s.powerState p 0 flags rsv fun s => (s.wakeRecord 9 0).wakeExit

/-- POWER_STATE_BASKING: the steps of R443; `stop` is the step before which a wake or a tail-drop stage stopped entry, 0 for none (R443, R447). -/
def execPowerStateBasking (p : PageId) (flags : U8) (rsv : BitVec 16) (stop : Fin 6) (s : State) : Res :=
  s.powerState p 1 flags rsv fun s =>
    if stop.val = 0 then [1, 2, 3, 4, 5].foldl State.baskStep s else s.entryAborted 0 stop

/-- POWER_STATE_BRUMATION: the steps of R443 that have not run, the warden area, the durable slot map, which every change keeps so, and BRUMATE
(R445). -/
def execPowerStateBrumation (p : PageId) (flags : U8) (rsv : BitVec 16) (stop : Fin 9) (s : State) : Res :=
  s.powerState p 2 flags rsv fun s =>
    let from_ := s.pwr.mode
    if stop.val ≠ 0 then s.entryAborted from_ (min 6 stop)
    else
      let s := if from_ = 0 then [1, 2, 3, 4, 5].foldl State.baskStep s else s
      s.wardenArea.stage5 false

/-! ## CC of a controller (R336, R456) -/

/-- CC_ENABLE: the host sets CC.EN = 1 with the admin queue sizes and bases of its registers. The controller becomes ready once the store is loaded
or refused; in BASKING vendor firmware first leaves it, recording OPERATOR (R444, R456). -/
def execCcEnable (f : FuncId) (asqs acqs : BitVec 12) (asq acq : DWord) (s : State) : Res :=
  .next (
    let f : Nat := f
    let c := s.ctl f
    if !s.barOpen f || c.ccEn || c.ending then s
    else
      let s := s.updCtl f fun c =>
        { (c.setSq 0 { Sq.init with live := true, size := asqs.toNat + 1, base := asq }).setCq 0
            { Cq.init with live := true, size := acqs.toNat + 1, irq := true, base := acq }
          with ccEn := true, shst := 0, aqa := BitVec.ofNat 32 (acqs.toNat * 2 ^ 16 + asqs.toNat), asq := asq, acq := acq }
      let s := s.fnState f
      if s.pwr.mode = 1 && s.fwUp then (s.wakeRecord 9 0).wakeExit else s.rdyCheck f)

/-- CC_SHN_CHANGE: the host writes CC.SHN, which the warden sees as FNSTATE; it completes a shutdown it is asked for (R336; CSTS.SHST as NVMe Base 2.0
has it, PRESUMED, log 47). -/
def execCcShnChange (f : FuncId) (shn : Fin 4) (s : State) : Res :=
  .next (
    let c := s.ctl f
    if !s.barOpen f || c.shn = shn.toNat then s
    else
      let s := (s.updCtl f fun c => { c with shn := shn }).fnState f
      if s.fwUp && (shn.toNat = 1 || shn.toNat = 2) then s.updCtl f fun c => { c with shst := 2 } else s)

end Sys2Proof.Machine
end

