-- ==== Sys2Proof/Machine/Queues.lean ====
section
/-!
DEFINITION. The control blocks of the credit queues (R249 to R258): flush, enable, and the bursts of a spill queue's middle.
-/

namespace Sys2Proof.Machine

def execQueueFlush (q : Fin 1543) (s : State) : Res := .next (s.queueFlush q)

/-- Producers that held items for want of a credit write them: a tile into an inbox, engines into a completion queue (R250). -/
def State.queueFill (s : State) (n : Nat) : State :=
  if 128 ≤ n && n < 256 then s.updEng (n - 128) fun g => g.dcqFill true
  else if 1536 ≤ n && n < 1540 then (s.funcsOfPort (n - 1536)).foldl State.cplDrain s else s

/-- QCn_CTRL.EN: enabling grants every credit; writing 0 flushes the queue first (R258). -/
def State.queueEnable (s : State) (n : Nat) (en : Bool) : State :=
  if en then (s.updQueue n fun q => { q with en := true }).queueFill n else (s.queueFlush n).updQueue n fun q => { q with en := false }

def execQueueEnable (q : Fin 1543) (en : Bool) (s : State) : Res := .next (s.queueEnable q en)

/-- QUEUE_MIDDLE_BURST: a burst of 32 words of the spill queue of FUNC goes from its tail to the middle (`up`), or from the middle to its head. One that
reads back uncorrectable flushes the queue, sets MERR, is a fault of the consumer's quadrant, and fails the controller (R251, R256; a burst
stands in the head as a whole, log 48). -/
def execQueueMiddleBurst (f : FuncId) (up err : Bool) (s : State) : Res :=
  .next (
    let n := 512 + f.val
    let q := s.queue n
    if up then s.spillUp f
    else if q.midB = 0 || 10 ≤ q.headW then s
    else if err then
      let k := s.funcQuad f
      (((s.queueFlush n).updQueue n fun q => { q with merr := true }).faultEvent (k / 2) 0x21 k (BitVec.ofNat 32 n)).ctlFail f true
    else s.updQueue n fun q => Queue.settle { q with midB := q.midB - 1, headW := q.headW + 32 })

end Sys2Proof.Machine
end

