-- ==== Sys2Proof/Machine/Warden.lean ====
section
/-!
DEFINITION. The warden's own commands: the croak heartbeat (R339, R343), an access that its register port ends (R329), and the software
interrupt sources (R337).
-/

namespace Sys2Proof.Machine

/-- A croak reaches the vault: the first after a warden reset carries any SEQ, a later one must carry the next, and another is a miss (R339). -/
def State.croak (s : State) (seq : BitVec 16) : State :=
  let s := s.updWarden fun w => { w with croak := seq.zeroExtend 32 }
  let v := s.vault
  if v.firstCroak || seq = v.lastSeq + 1 then s.updVault fun v => { v with lastSeq := seq, firstCroak := false } else s.wardenRestart 1

/-- CROAK: the warden writes WRD_CROAK.SEQ. -/
def execCroak (seq : BitVec 16) (s : State) : Res := .next (if s.warden.up && s.domOn 36 then s.croak seq else s)

/-- CROAK_MISS: no croak has come within 2 × PERIOD, or within 2 s of the release of a reset (R339, R340). -/
def execCroakMiss (s : State) : Res := .next (if s.warden.up && s.domOn 36 then s.wardenRestart 1 else s)

/-- The ended access is recorded and BUSERR raised (R329, R343). -/
def State.busError (s : State) (a : PortAcc) : State :=
  (s.updWarden fun w => { w with busValid := true, busWrite := a.write, busCount := satAdd w.busCount 1, busAddr := a.addr }).raise 26

/-- REG_ACCESS_TIMEOUT: the register access at place `i` of the port has not completed 10 µs after it was sent. A load returns 0xFFFF_FFFF and a
store is discarded; no exception is taken (R329). -/
def execRegAccessTimeout (i : Fin 16) (s : State) : Res :=
  .next (
    match s.warden.proc.port[i.toNat]? with
    | none => s
    | some a =>
      let s := s.updWarden fun w =>
        let r := { w.proc with port := w.proc.port.eraseIdx i }
        { w with proc := if a.write then r else (r.setReg a.gd 0xFFFFFFFF).clearBusy a.gd }
      s.busError a)

/-- ICU_SWSET: bit j sets source 224 + j (R337). -/
def State.icuSwset (s : State) (value : U8) : State := (setBits 8 value.toNat).foldl (fun s j => s.raise (224 + j)) s
def execIcuSwset (value : U8) (s : State) : Res := .next (s.icuSwset value)

end Sys2Proof.Machine
end

