-- ==== Sys2Proof/Machine/Mailbox.lean ====
section
/-!
DEFINITION. Mailbox pages: the doorbell, the checks of R350, acceptance, completion and reset, and the host's data window (R344 to R353, R491
to R494).
-/

namespace Sys2Proof.Machine

/-! ## Opcodes and rights (R354, R358, R393, R465) -/

/-- Ranges of defined opcodes, with whether a tenant page and an operator page may send them, and from MCTP: 0 none, 1 any, 2 operator rights. -/
def opRights : List (Nat × Nat × Bool × Bool × Nat) :=
  [ (0x0001, 0x0004, true, true, 1), (0x0101, 0x0101, true, true, 0), (0x0102, 0x0103, true, false, 0), (0x0104, 0x0105, true, true, 0),
    (0x0106, 0x0106, true, true, 2), (0x0107, 0x0107, false, true, 2), (0x0201, 0x0204, true, true, 0), (0x0205, 0x0205, true, true, 2),
    (0x0301, 0x030A, false, true, 2), (0x0401, 0x0405, false, true, 2), (0x0501, 0x0501, false, true, 1), (0x0502, 0x0502, false, true, 2),
    (0x0503, 0x0503, false, true, 0), (0x0504, 0x0505, false, true, 2), (0x0601, 0x0603, false, true, 2) ]
  ++ [ (0x0701, 0x0706, false, true, 2), (0x0711, 0x0713, false, true, 2), (0x0721, 0x0723, false, true, 2), (0x0731, 0x0732, false, true, 2),
    (0x0801, 0x080B, false, true, 2) ]

def opRow (op : Nat) : Option (Nat × Nat × Bool × Bool × Nat) := opRights.find? fun r => r.1 ≤ op && op ≤ r.2.1

/-- The page's rights allow the opcode (R354, R358, R461). -/
def State.opAllowed (s : State) (p op : Nat) : Bool :=
  if s.recoveryUp && !s.fwUp then p = 1028 && recoveryOp op
  else match opRow op with
    | none => false
    | some r => if isTenant p then r.2.2.1 else if p < 1028 then r.2.2.2.1 else r.2.2.2.2 = 1 || (r.2.2.2.2 = 2 && s.mctpOp p)

/-- Requests that the VAULT bucket is charged for (R353). -/
def vaultCharged (op : Nat) : Bool := op = 0x0003 || (0x0102 ≤ op && op ≤ 0x0104)

/-- Requests that the vault serves, one at a time in acceptance order (R177, R352; DEDUCED for those other than imports and generates). -/
def vaultBound (op : Nat) : Bool := vaultCharged op || (0x0721 ≤ op && op ≤ 0x0723) || (0x0801 ≤ op && op ≤ 0x080B)

/-! ## Rate limits (R353) -/

/-- Both buckets filled to the present time, in millionths of a token. -/
def Ctl.fill (c : Ctl) (now : Nat) : Ctl :=
  let dt := now - c.tokT
  { c with tokG := min (c.burstG * 1000000) (c.tokG + dt * c.rateG / 100), tokV := min (c.burstV * 1000000) (c.tokV + dt * c.rateV / 100), tokT := now }

/-- Milliseconds until a bucket holds a token, rounded up and capped at 0xFFFE; 0 when it holds one. -/
def tokenWait (tok rate : Nat) : Nat := if 1000000 ≤ tok then 0 else min 0xFFFE ((1000000 - tok + 1000 * rate - 1) / (1000 * rate))

/-- The tenant page is charged for a request, or DETAIL of RATE_LIMITED. -/
def Ctl.charge (c : Ctl) (op now : Nat) : Option Nat × Ctl :=
  let c := c.fill now
  let v := vaultCharged op
  if c.rateG = 0 || (v && c.rateV = 0) then (some 0xFFFF, c)
  else
    let w := max (tokenWait c.tokG c.rateG) (if v then tokenWait c.tokV c.rateV else 0)
    if w ≠ 0 then (some w, c) else (none, { c with tokG := c.tokG - 1000000, tokV := if v then c.tokV - 1000000 else c.tokV })

/-! ## Completion (R346 to R348, R357) -/

/-- The page goes to DONE, or to IDLE when its response is discarded; a response of an MCTP page is sent to its requester, with the same message
tag and tag owner clear (R346, R347, R357). -/
def State.pageDone (s : State) (p : Nat) : State :=
  let g := s.page p
  if g.discard then s.updPage p fun g => { g with st := 0, discard := false, checked := false }
  else
    let s := s.updPage p fun g => { g with st := 3, checked := false }
    if isMctp p then
      s.emit (.mctp (p - 1028) ([BitVec.ofNat 8 g.peer.1, BitVec.ofNat 8 g.peer.2, if g.secured then 0x06 else 0x7E, 0x1F, 0x4C]
        ++ Memory.bytes g.area 0x800 (16 + Memory.num g.area 0x804 4)))
    else s

/-- MBX_PCMDp.DONE: PENDING or ACCEPTED to DONE (R348). -/
def State.mbxDone (s : State) (p : Nat) : State := if (s.page p).st = 1 || (s.page p).st = 2 then s.pageDone p else s

/-- A request refused before execution: its response is written and the page goes from PENDING to DONE; the sequence memory stays (R346, R351). -/
def State.refuseReq (s : State) (p status detail : Nat) : State :=
  (s.updPage p fun g =>
    { g with area := Memory.put g.area 0x800 (respBytes (BitVec.ofNat 32 (Memory.num g.area 0 4)) (BitVec.ofNat 32 (Memory.num g.area 8 4)) status detail []) }).pageDone p

/-- The remembered response again (R351). -/
def State.replay (s : State) (p : Nat) (resp : List Byte) : State :=
  (s.updPage p fun g => { g with area := Memory.put g.area 0x800 resp }).pageDone p

/-! ## The checks (R350, R351) -/

/-- Steps 1 to 5 of R350 on a PENDING page: it is refused, answered again, or marked as having passed. -/
def State.mbxCheck (s : State) (p : Nat) : State :=
  let g := s.page p
  let op := Memory.num g.area 0 2
  let seq : Word := BitVec.ofNat 32 (Memory.num g.area 8 4)
  if 2032 < Memory.num g.area 4 4 then s.refuseReq p 2 0
  else if (opRow op).isNone then s.refuseReq p 1 0
  else if !s.opAllowed p op then s.refuseReq p 4 0
  else
    let r := if isTenant p then (s.ctl p).charge op s.now else (none, s.ctl p)
    let s := if isTenant p then s.setCtl p r.2 else s
    match r.1 with
    | some d => s.refuseReq p 5 d
    | none =>
      match g.mem with
      | none => s.updPage p fun g => { g with checked := true }
      | some (q, w, resp) =>
        if seq = q + 1 then s.updPage p fun g => { g with checked := true }
        else if seq = q && w.toNat = Memory.num g.area 0 4 then s.replay p resp
        else s.refuseReq p 3 ((q + 1).toNat % 65536)

/-! ## The doorbell (R346, R494) -/

/-- Opcode in the request area of a page. -/
def Page.op (g : Page) : Nat := Memory.num g.area 0 2

/-- A restarted warden completes the accepted erases before it serves any mailbox (R340). -/
def State.erasesBefore (s : State) : Bool := s.warden.erasesFirst && s.erasesOpen ≠ 0

/-- A request has come to the page: it is PENDING, and its time is stamped (R346, R348, R492). -/
def State.pagePending (s : State) (p : Nat) : State :=
  let s := s.updPage p fun g => { g with st := 1, dbTime := s.time, aTime := 0, checked := false, answered := false }
  let s := s.updWarden fun w => { w with dbsum := Tbl.set false w.dbsum p true }
  if s.pageServed p && !s.erasesBefore then s.mbxCheck p else s

/-- The owner rings: a page in PENDING or ACCEPTED only sets OVERRUN (R346). -/
def State.mbxRing (s : State) (p : Nat) : State :=
  if (s.page p).st = 1 || (s.page p).st = 2 then s.updPage p fun g => { g with overrun := true }
  else if isTenant p then (s.raise (4 + portOf p)).pagePending p
  else (s.raise (p - 1024)).pagePending p

/-- The function whose window reaches a page. -/
def pageFunc (p : Nat) : Nat := if isTenant p then p else 256 * (p - 1024)

/-- The IDE stream that a page's window requires, if any, is Secure, on which the access then comes (R283, R345). -/
def State.windowIde (s : State) (p : Nat) : Bool :=
  match (if isTenant p then (s.ctl p).ideReq else (s.port (p - 1024)).ideReq) with
  | some k => Tbl.get 0 (s.port (portOf (pageFunc p))).ide k = 1
  | none => true

/-- The host reaches the page through its window (R283, R345, R347). -/
def State.windowOpen (s : State) (p : Nat) : Bool := p < 1028 && (s.ctl (pageFunc p)).funcOn && !(s.ctl (pageFunc p)).d3 && s.windowIde p

/-- MBX_DOORBELL: the owner of a page rings through its window (R345, R346, R491); steps 1 to 5 of R350 follow while the warden serves. -/
def execMbxDoorbell (p : PageId) (s : State) : Res := .next (if s.windowOpen p then s.mbxRing p else s)

/-- MBX_HDATA_ACCESS: the host reads or writes the page word at WORD, which then advances; a write to the response area, or to the request area
while STATE is PENDING or ACCEPTED, is discarded (R345, R346, R491, R492). -/
def execMbxHdataAccess (p : PageId) (write : Option Word) (s : State) : Res :=
  .next (
    if !s.windowOpen p then s
    else
      let g := s.page p
      let step := fun (g : Page) => { g with word := (g.word + 1) % 1024 }
      match write with
      | none => (s.updPage p step).emit (.hostValue (pageFunc p) (BitVec.ofNat 32 (Memory.num g.area (4 * g.word) 4)))
      | some w =>
        if g.word < 512 && g.st ≠ 1 && g.st ≠ 2 then s.updPage p fun g => { step g with area := Memory.putNum g.area (4 * g.word) 4 w.toNat }
        else s.updPage p step)

/-! ## Acceptance (R181, R341, R346, R352) -/

/-- What a request is about, for the rule that a second request for it gets BUSY: (0, molt), (1, namespace), (2, drive), (3, 0) a power state, (4, 0)
the firmware and configuration (R352, R466). The fields lie in the payload in the order R354 lists them (log 14). -/
def State.reqKeys (s : State) (p : Nat) (area : Memory) : List (Nat × Nat) :=
  let op := Memory.num area 0 2
  let b := fun o n => Memory.num area (16 + o) n
  let ns := fun f nsid => if isTenant p then (match s.nsOf p nsid with | some x => [(1, x)] | none => [])
                          else match f with
                            | some f => (match s.nsOf f nsid with | some x => [(1, x)] | none => [])
                            | none => [(1, nsid % 65536)]
  if op = 0x0503 then [(3, 0)]
  else if 0x0701 ≤ op && op ≤ 0x0732 then [(4, 0)]
  else if 0x0202 ≤ op && op ≤ 0x0205 then [(0, b 0 1)]
  else if 0x0402 ≤ op && op ≤ 0x0405 then [(2, b 0 1)]
  else if op = 0x0103 || op = 0x0104 || op = 0x0201 then ns none (b 0 4)
  else if op = 0x0105 then (if b 0 1 ≤ 1 then ns (some (b 2 2)) (b 4 4) else [])
  else if op = 0x0304 || op = 0x0305 || op = 0x0308 then [(1, b 0 2)]
  else if op = 0x0306 || op = 0x0307 then [(1, b 6 2)]
  else []

/-- The page of a request in progress about the same thing (R352, R355). -/
def State.busyPage (s : State) (p : Nat) : Option Nat :=
  let mine := s.reqKeys p (s.page p).area
  (s.pages.find? fun q => q.1 ≠ p && q.2.st = 2 && (s.reqKeys q.1 q.2.area).any mine.contains).map Prod.fst

/-- An erase may be accepted: fewer than two are in progress, and no earlier doorbell rang for another (R181, R352). -/
def State.eraseTurn (s : State) (p : Nat) : Bool :=
  s.erasesOpen < 2 && !s.pages.any fun q =>
    q.1 ≠ p && q.2.st = 1 && q.2.op = 0x0105 && q.2.dbTime.toNat < (s.page p).dbTime.toNat

/-- A PENDING page that the warden can take now: an erase that waits for its turn stays PENDING. -/
def State.takable (s : State) (p : Nat) : Bool := (s.page p).st = 1 && !((s.page p).op = 0x0105 && !s.eraseTurn p)

/-- The page's turn in the rounds of R352: every operator and MCTP page, then at most 64 tenant pages from the page after the last one served. -/
def State.roundTurn (s : State) (p : Nat) : Bool :=
  !isTenant p ||
    ((s.warden.round ≠ 0 || !(List.range 6).any fun k => s.takable (1024 + k))
      && !s.pages.any fun q => isTenant q.1 && s.takable q.1 && (q.1 + 1023 - s.warden.lastTenant) % 1024 < (p + 1023 - s.warden.lastTenant) % 1024)

/-- The page is taken: a tenant page counts in its round, and an operator or MCTP page begins the next one (R352). -/
def State.roundTake (s : State) (p : Nat) : State :=
  s.updWarden fun w => if isTenant p then { w with lastTenant := p, round := (if w.round = 0 then 64 else w.round) - 1 } else { w with round := 0 }

/-- MBX_PCMDp.ACCEPT: PENDING to ACCEPTED, with its time (R346, R348). -/
def State.pageAccept (s : State) (p : Nat) : State :=
  if (s.page p).st = 1 then
    s.updPage p fun g => { g with st := 2, aTime := s.time, answered := false, discard := false, checked := false
                                  req := BitVec.ofNat 32 (Memory.num g.area 0 4), seq := BitVec.ofNat 32 (Memory.num g.area 8 4) }
  else s

/-- MBX_ACCEPT: the warden takes a PENDING page in its turn of the rounds. A request not yet checked is checked; one that meets another gets BUSY; an erase that is
not its turn stays PENDING (R181, R346, R350, R352). -/
def execMbxAccept (p : PageId) (s : State) : Res :=
  .next (
    if !s.pageServed p || s.erasesBefore || !s.takable p || !s.roundTurn p then s
    else
      let s := s.roundTake p
      let s := if (s.page p).checked then s else s.mbxCheck p
      if (s.page p).st ≠ 1 then s
      else match s.busyPage p with
        | some q => s.refuseReq p 6 q
        | none => s.pageAccept p)

/-- MBX_DONE: the warden writes MBX_PCMDp.DONE, after every write it has made to the page (R348, R493). -/
def execMbxDone (p : PageId) (s : State) : Res := .next (if s.domOn 36 && s.warden.up then s.mbxDone p else s)

/-- MBX_PAGE_RESET: the warden writes MBX_PCMDp.RESET (R347, R348, R492). -/
def execMbxPageReset (p : PageId) (s : State) : Res := .next (if s.domOn 36 && s.warden.up then s.pageReset p else s)

/-- An Imdex command that the vault serves: it waits for those accepted before it (R177, R352). -/
def State.vaultTurn (s : State) (p : Nat) : Bool :=
  !s.pages.any fun q => q.1 ≠ p && q.2.st = 2 && !q.2.answered && vaultBound (fld q.2.req.toNat 15 0) && q.2.aTime.toNat < (s.page p).aTime.toNat

def State.imdexV (s : State) (p op : Nat) (f : State → State) : Res := s.imdex p op fun s => if s.vaultTurn p then f s else s

end Sys2Proof.Machine
end

