-- ==== Sys2Proof/Machine/Mctp.lean ====
section
/-!
DEFINITION. MCTP endpoints (R357 to R359) and the SPDM responder (R360 to R363, R282). Message codes are those of the standards that the spec
names, DSP0236, DSP0274 and the PCIe DOE and IDE_KM objects (PRESUMED, log 49); content that these fix and the model does not write out is taken
from `Config.primitive` (log 6).
-/

namespace Sys2Proof.Machine

/-! ## Certificates (R361) -/

/-- The signing key of a certificate slot (R361, R365). -/
def State.slotSeed (s : State) (slot : Nat) : List Byte := if slot = 0 then idSeed else s.aliasSeed

/-- The certificate chain of a slot, over its public key: slot 1 adds the alias certificate (R361). -/
def State.certChain (s : State) (slot : Nat) : List Byte :=
  Config.primitive 0 6 (BitVec.ofNat 8 slot :: p384Public idSeed ++ if slot = 0 then [] else p384Public s.aliasSeed)

/-- Measurements 1 to 6, 48 bytes each (R362). -/
def State.allMeasurements (s : State) : List Byte := [1, 2, 3, 4, 5, 6].flatMap s.measurement

/-! ## The SPDM responder (R282, R360) -/

/-- A responder: 0 to 3 the DOE mailbox of UPu, 4 and 5 the MCTP endpoints. Its sessions, and the most it opens (R360). -/
def State.sessions (s : State) (at_ : Nat) : Nat := if at_ < 4 then (s.port at_).sessions else (s.ep (at_ - 4)).sessions
def maxSessions (at_ : Nat) : Nat := if at_ < 4 then 4 else 2
def State.setSessions (s : State) (at_ n : Nat) : State :=
  if at_ < 4 then s.updPort at_ fun u => { u with sessions := n } else s.updEp (at_ - 4) fun e => { e with sessions := n }

/-- An IDE_KM object in a secured DOE session, from its protocol identifier on, with its answer: KEY_PROG stores a key, K_SET_GO puts a stored key in use
in place of the other set's, K_SET_STOP takes it out of use, QUERY tells the streams' enables and states; other objects get no answer of IDE_KM
(R282; the layout is that of PCIe Base 6.0, PRESUMED, log 90). -/
def State.ideKm (s : State) (u : Nat) (obj : List Byte) : Option (List Byte) × State :=
  let b := fun i => (obj.getD i 0).toNat
  let k := b 4
  let i := 6 * (b 6 % 2) + 3 * (b 6 / 2 % 2) + b 6 / 16
  let ok := k < 8 && b 6 / 16 < 3
  let ack := fun (o st : Byte) => some [0, o, 0, 0, obj.getD 4 0, st, obj.getD 6 0, obj.getD 7 0]
  match b 1 with
  | 0 => (some ([0, 1, 0, obj.getD 3 0, 0, 0, 0, 0] ++ (List.range 8).flatMap fun j =>
      leBytes 4 (b2n ((s.port u).stream j).en + 16 * Tbl.get 0 (s.port u).ide j)), s)
  | 2 =>
    if !ok then (ack 3 3, s)
    else if obj.length < 48 then (ack 3 1, s)
    else (ack 3 0, s.updPort u fun p => p.updStream k fun x => { x with keys := Tbl.set none x.keys i (some (BitVec.ofNat 256 (leAt obj 8 32))) })
  | 4 =>
    (ack 6 (if ok then 0 else 3), if ok && (Tbl.get none ((s.port u).stream k).keys i).isSome then
      (s.updPort u fun p => p.updStream k fun x => { x with go := (x.go ||| (1#12 <<< i)) &&& ~~~(1#12 <<< ((i + 6) % 12)) }).ideSettle u k else s)
  | 5 => (ack 6 (if ok then 0 else 3), if ok then
      (s.updPort u fun p => p.updStream k fun x => { x with go := x.go &&& ~~~(1#12 <<< i) }).ideSettle u k else s)
  | _ => (none, s)

/-- An ERROR response. -/
def spdmErr (code : Nat) : List Byte := [0x12, 0x7F, BitVec.ofNat 8 code, 0]

/-- The answer to an SPDM request, if it gets one, and the state after it (R360). -/
def State.spdm (s : State) (at_ : Nat) (secured : Bool) (msg : List Byte) : Option (List Byte) × State :=
  let b := fun i => (msg.getD i 0).toNat
  let v := msg.getD 0 0
  let code := b 1
  let slot := if code = 0xE0 then b 36 % 16 else b 2 % 16
  if secured && s.sessions at_ = 0 then (none, s)
  else if code = 0x84 then (some ([0x10, 0x04, 0, 0] ++ Config.primitive 0 11 msg), s)
  else if v ≠ 0x12 && v ≠ 0x13 then (some (spdmErr 0x41), s)
  else if code = 0xE1 || code = 0xE3 || code = 0x85 || code = 0x86 || code = 0xFF then
    (some ([v, BitVec.ofNat 8 (code - 0x80), 0, 0] ++ Config.primitive 0 11 msg), s)
  else if s.vault.devkeyFail && [0x81, 0x82, 0x83, 0xE0, 0xE4].contains code then (some (spdmErr 0x05), s)
  else if [0x82, 0x83, 0xE0, 0xE4].contains code && 1 < slot then (some (spdmErr 0x01), s)
  else if code = 0x81 then (some ([v, 0x01, 0, 3] ++ sha384 (s.certChain 0) ++ sha384 (s.certChain 1)), s)
  else if code = 0x82 then
    let c := (s.certChain slot).drop (leAt msg 4 2)
    let part := c.take (leAt msg 6 2)
    (some ([v, 0x02, BitVec.ofNat 8 slot, 0] ++ leBytes 2 part.length ++ leBytes 2 (c.length - part.length) ++ part), s)
  else if code = 0x83 then
    let body := [v, 0x03, BitVec.ofNat 8 slot, 3] ++ sha384 (s.certChain slot) ++ (s.draw 32).1 ++ sha384 s.allMeasurements
    (some (body ++ ecdsaSign (s.slotSeed slot) (sha384 (msg ++ body))), (s.draw 32).2)
  else if code = 0xE0 then
    let body := [v, 0x60, 0, BitVec.ofNat 8 slot] ++ s.allMeasurements ++ (s.draw 32).1
    (some (if bitOf (b 2) 0 then body ++ ecdsaSign (s.slotSeed slot) (sha384 (msg ++ body)) else body), (s.draw 32).2)
  else if code = 0xE4 then
    if maxSessions at_ ≤ s.sessions at_ then (some (spdmErr 0x0A), s)
    else
      let d := s.draw 48
      let body := [v, 0x64, 0, 0] ++ p384Public d.1
      (some (body ++ ecdsaSign (s.slotSeed (b 3 % 16)) (sha384 (msg ++ body))), d.2.setSessions at_ (s.sessions at_ + 1))
  else if code = 0xE5 then (some [v, 0x65, 0, 0], s)
  else if code = 0xE8 || code = 0xE9 then (if secured then (some [v, BitVec.ofNat 8 (code - 0x80), msg.getD 2 0, msg.getD 3 0], s) else (some (spdmErr 0x04), s))
  else if code = 0xEC then
    if secured then (some [v, 0x6C, 0, 0], s.setSessions at_ (s.sessions at_ - 1)) else (some (spdmErr 0x04), s)
  else if code = 0xFE then
    if secured && at_ < 4 && b 11 = 0 then
      let r := s.ideKm at_ (msg.drop 11)
      (some (match r.1 with | some a => [v, 0x7E, 0, 0] ++ (msg.drop 4).take 5 ++ leBytes 2 a.length ++ a | none => spdmErr 0x01), r.2)
    else (some (spdmErr 0x04), s)
  else (some [0x12, 0x7F, 0x07, BitVec.ofNat 8 code], s)

/-- A data object of a DOE mailbox, its first byte the object's type: 0 discovery, 1 SPDM, 2 secured SPDM (R360). -/
def State.doeAnswer (s : State) (u : Nat) (obj : List Byte) : State :=
  match obj with
  | [] => s
  | t :: msg =>
    if t = 0 then s.emit (.doe u ([0] ++ Config.primitive 0 12 msg))
    else
      let r := s.spdm u (t = 2) msg
      match r.1 with | some a => r.2.emit (.doe u (t :: a)) | none => r.2

/-- SPDM_REQUEST: a data object comes to a DOE mailbox, or an SPDM message to an endpoint: kind 0 DOE discovery, 1 SPDM, 2 SPDM inside a secured
session, whose content is given in plaintext. An object is at most 4,096 bytes; one waits in the mailbox while no firmware runs (R282, R336, R360). -/
def execSpdmRequest (at_ : Fin 6) (kind : Fin 3) (msg : Bytes) (s : State) : Res :=
  .next (
    if at_.val < 4 then
      if !(s.port at_.val).ready || 4096 < msg.length then s
      else
        let objs := (s.port at_.val).doe ++ [BitVec.ofNat 8 kind.val :: msg]
        if s.fwUp then objs.foldl (fun s o => s.doeAnswer at_.val o) (s.updPort at_.val fun u => { u with doe := [] })
        else s.updPort at_.val fun u => { u with doe := objs }
    else if !s.fwUp || kind.val = 0 then s
    else
      let r := s.spdm at_.val (kind.val = 2) msg
      match r.1 with | some a => r.2.emit (.mctp (at_.val - 4) ((if kind.val = 2 then 0x06 else 0x05) :: a)) | none => r.2)

/-! ## Packets (R357, R359) -/

/-- A fault of R359 is counted. -/
def State.mctpFault (s : State) (k : Nat) : State := s.updEp k fun e => { e with violations := e.violations + 1 }

/-- Longest message: the Imdex limit with its type and vendor bytes (R359). -/
def mctpLimit : Nat := 2048 + 3

/-- MCTP_PACKET: a packet arrives at endpoint k, its PEC good or not; destination and source EID, message tag with tag owner, SOM, EOM, sequence and
at most 64 bytes. Destination 0 is the null EID, which every endpoint takes (DSP0236, PRESUMED). -/
def execMctpPacket (k : Fin 2) (pec : Bool) (dest src : U8) (tag : Fin 16) (som eom : Bool) (seq : Fin 4) (data : Bytes) (s : State) : Res :=
  .next (
    let e := s.ep k
    if !s.domOn 36 then s
    else if !pec || (dest.toNat ≠ e.eid && dest ≠ 0) then s.mctpFault k
    else
      let same := fun (a : Assembly) => !a.done && a.src = src.toNat && a.tag = tag.val
      let rest := e.asms.filter fun a => !same a
      let put := fun (a : Assembly) => s.updEp k fun e => { e with asms := rest ++ [a] }
      match som, e.asms.find? same with
      | true, old =>
        let s := if old.isSome then s.mctpFault k else s
        if 4 ≤ (rest.filter fun a => !a.done).length then (s.updEp k fun e => { e with asms := rest }).mctpFault k
        else s.updEp k fun e => { e with asms := rest ++ [{ src := src.toNat, tag := tag.val, seq := (seq.val + 1) % 4, bytes := data, done := eom }] }
      | false, none => s.mctpFault k
      | false, some a =>
        if a.seq ≠ seq.val || mctpLimit < a.bytes.length + data.length then (s.updEp k fun e => { e with asms := rest }).mctpFault k
        else put { a with seq := (a.seq + 1) % 4, bytes := a.bytes ++ data, done := eom })

/-- MCTP_ASSEMBLY_TIMEOUT: more than 100 ms between two packets of a message (R359). -/
def execMctpAssemblyTimeout (k : Fin 2) (src : U8) (tag : Fin 16) (s : State) : Res :=
  .next (
    let hit := fun (a : Assembly) => !a.done && a.src = src.toNat && a.tag = tag.val
    if (s.ep k).asms.any hit then (s.updEp k fun e => { e with asms := e.asms.filter fun a => !hit a }).mctpFault k else s)

/-! ## Messages (R344, R357, R358) -/

/-- A control message: the six supported commands, else ERROR_UNSUPPORTED_CMD; a malformed one is dropped (R357, R359). -/
def State.mctpControl (s : State) (k src tag : Nat) (body : List Byte) : State :=
  match body with
  | inst :: cmd :: data =>
    let reply := fun (s : State) (cc : Byte) (d : List Byte) =>
      s.emit (.mctp k ([BitVec.ofNat 8 src, BitVec.ofNat 8 (tag % 8), 0x00, inst &&& 0x3F, cmd, cc] ++ d))
    if !inst.getLsbD 7 then s.mctpFault k
    else if cmd = 0x01 then
      let eid := (data.getD 1 0).toNat
      if 1 < (data.getD 0 0).toNat % 4 || eid = 0 || eid = 0xFF || data.length < 2 then reply s 0x02 []
      else reply (s.updEp k fun e => { e with eid := eid }) 0 [0, BitVec.ofNat 8 eid, 0]
    else if cmd = 0x02 then reply s 0 [BitVec.ofNat 8 (s.ep k).eid, 0, 0]
    else if cmd = 0x03 then reply s 0 (Config.primitive 16 13 [BitVec.ofNat 8 k])
    else if cmd = 0x04 then reply s 0 (Config.primitive 5 13 data)
    else if cmd = 0x05 then reply s 0 [3, 0x05, 0x06, 0x7E]
    else if cmd = 0x06 then reply s 0 [0xFF, 0x00, 0x1F, 0x4C, 0, 0]
    else reply (s.mctpFault k) 0x05 []
  | _ => s.mctpFault k

/-- An Imdex message for the endpoint's page, or BUSY while the page holds one; it comes after the part's PCI vendor ID (R344, R346, R357). -/
def State.mctpImdex (s : State) (k src tag : Nat) (secured : Bool) (body : List Byte) : State :=
  let p := 1028 + k
  let g := s.page p
  let msg := body.drop 2
  if body.take 2 ≠ [0x1F, 0x4C] then s.mctpFault k
  else if g.st = 1 || g.st = 2 then
    s.emit (.mctp k ([BitVec.ofNat 8 src, BitVec.ofNat 8 (tag % 8), if secured then 0x06 else 0x7E, 0x1F, 0x4C]
      ++ respBytes (BitVec.ofNat 32 (leAt msg 0 4)) (BitVec.ofNat 32 (leAt msg 8 4)) 6 p []))
  else
    ((s.updPage p fun g => { g with area := Memory.put g.area 0 (padTo 2048 msg), secured := secured, peer := (src, tag % 8) }).raise (8 + k)).pagePending p

/-- MCTP_MESSAGE: the oldest complete message of endpoint k goes to its page or protocol; `inner` is what a secured message decrypts to, its type
first, empty when its authentication fails. A warden held in reset answers nothing (R342, R357 to R359). -/
def execMctpMessage (k : Fin 2) (inner : Bytes) (s : State) : Res :=
  .next (
    match (s.ep k).asms.find? fun a => a.done with
    | none => s
    | some a =>
      if !s.pageServed 1028 && !s.fwUp then s
      else
        let s := s.updEp k fun e => { e with asms := e.asms.erase a }
        let sec := a.bytes.headD 0 = 0x06
        let m := if sec then (if s.sessions (4 + k) = 0 then [] else inner) else a.bytes
        match m with
        | [] => s.mctpFault k
        | t :: body =>
          if t = 0x7E then s.mctpImdex k a.src a.tag sec body
          else if t = 0x05 then
            let s := s.raise (8 + k)
            let r := s.spdm (4 + k) sec body
            match r.1 with
            | some x => r.2.emit (.mctp k ([BitVec.ofNat 8 a.src, BitVec.ofNat 8 (a.tag % 8), if sec then 0x06 else 0x05] ++ x))
            | none => r.2
          else if t = 0x00 && !sec then (s.raise (8 + k)).mctpControl k a.src a.tag body
          else s.mctpFault k)

end Sys2Proof.Machine
end

