-- ==== Sys2Proof/Machine/Imdex.lean ====
section
/-!
DEFINITION. The Imdex commands of identity, keys, erases, ledgers and molts (R173 to R186, R246, R247, R353, R354, R361 to R363). Each acts on the
accepted request of its page, with the request's fields as operands (log 14).
-/

namespace Sys2Proof.Machine

/-! ## Answers -/

/-- BAD_FIELD with the offset of the first bad payload byte (R350, R355). -/
def State.badField (s : State) (p off : Nat) : State := s.respond p 8 off []

/-- An outcome for which the spec lists no status: a free status and DETAIL (log 51). -/
def State.openStatus (s : State) (p : Nat) : State :=
  let d := s.fresh 16
  let x := d.2.fresh 16
  x.2.respond p d.1.toNat x.1.toNat []

/-- A request that needs the device key, or a draw, which the vault refuses without it (R364, R365). -/
def State.withKey (s : State) (p : Nat) (draws : Bool) (f : State → State) : State :=
  if s.vault.devkeyFail || (draws && !s.vault.noise) then s.openStatus p else f s

/-- The request names a controller: 0 from a tenant, which stands for itself, else one the operator may act on. Its offset in the payload is
given for BAD_FIELD (R354). -/
def State.withFunc (s : State) (p f off : Nat) (k : State → Nat → State) : State :=
  if isTenant p then (if f ≠ 0 then s.badField p off else k s p)
  else if 1024 ≤ f then s.badField p off
  else if s.operatorOf p f then k s f else s.respond p 4 0 []

/-! ## Identity and status (R354, R361 to R363) -/

/-- IDENTIFY: part, stepping, features of both processors, firmware versions of both slots, limits (free), CFG_DEFAULTED and
the offset of the first skipped configuration entry, in that order (R354, R470; log 54). -/
def execIdentify (p : PageId) (s : State) : Res :=
  s.imdex p 0x0001 fun s =>
    let lim := s.freshBytes 16
    let feats := [0, 128].flatMap fun q => [0x30, 0x31, 0x32, 0x33].flatMap fun n => leBytes 4 (s.crValue q n).toNat
    lim.2.respond p 0 0 (leBytes 4 (s.glbPeek 0).toNat ++ leBytes 4 (s.glbPeek 8).toNat ++ feats ++ leBytes 4 (s.bundleVersion false)
      ++ leBytes 4 (s.bundleVersion true) ++ lim.1 ++ [BitVec.ofNat 8 (b2n s.cfgDefaulted)]
      ++ (match s.boot.skipped with | some o => leBytes 2 o | none => [0xFF, 0xFF]))

/-- STATUS: power state, tail-drop stage, LAST and RESTARTS, epoch present, lost and unshared, the store, CFG_DEFAULTED, and the MCTP fault counts
(R354, R377, R384, R463, R486). -/
def execStatus (p : PageId) (s : State) : Res :=
  s.imdex p 0x0002 fun s =>
    let v := s.vault
    s.respond p 0 0 ([BitVec.ofNat 8 s.pwr.mode, BitVec.ofNat 8 s.pwr.stage] ++ leBytes 2 v.lastSeq.toNat ++ leBytes 2 v.restarts.toNat
      ++ [BitVec.ofNat 8 (b2n (v.epochst = 1)), BitVec.ofNat 8 (b2n (v.epochst = 3)), BitVec.ofNat 8 (b2n (!v.shared)), BitVec.ofNat 8 s.boot.store
          , BitVec.ofNat 8 (b2n s.cfgDefaulted)]
      ++ leBytes 4 (s.ep 0).violations ++ leBytes 4 (s.ep 1).violations)

/-- ATTEST: the 420 bytes of R363. FUNC of a requester that is no function is free. -/
def execAttest (p : PageId) (nonce : Bytes) (s : State) : Res :=
  s.imdexV p 0x0003 fun s =>
    if nonce.length ≠ 32 then s.badField p (min nonce.length 32)
    else s.withKey p false fun s =>
      let f := if p.val < 1028 then (BitVec.ofNat 16 (pageFunc p), s) else s.fresh 16
      let body := leBytes 2 f.1.toNat ++ [0, 0] ++ nonce ++ s.allMeasurements
      f.2.respond p 0 0 (body ++ padTo 96 (ecdsaSign s.aliasSeed (sha384 body)))

/-- CERT_READ: part of a slot's chain (R354, R361). -/
def execCertRead (p : PageId) (slot : U8) (off : Word) (len : BitVec 16) (s : State) : Res :=
  s.imdex p 0x0004 fun s =>
    if 2 ≤ slot.toNat then s.badField p 0
    else if 2000 < len.toNat then s.badField p 5
    else s.withKey p false fun s => s.respond p 0 0 (((s.certChain slot.toNat).drop off.toNat).take len.toNat)

/-- IMPORT_KEY_GET: the encapsulation key. -/
def execImportKeyGet (p : PageId) (s : State) : Res := s.imdex p 0x0101 fun s => s.withKey p false fun s => s.respond p 0 0 encapKey

/-- NONCE_GET: the tenant's new import nonce (R173). -/
def execNonceGet (p : PageId) (s : State) : Res :=
  s.imdexV p 0x0102 fun s =>
    if !s.vault.noise then s.openStatus p
    else
      let s := s.vNonce p
      s.respond p 0 0 (match Tbl.get none s.vault.nonces p with | some n => bvBytes 16 n | none => [])

/-! ## Import and generation (R150, R153, R173 to R177, R182) -/

/-- The controllers that a namespace is attached to: CTRL owner and ALT owner (R212). -/
def State.attachedAs (s : State) (nsx : Nat) (alt : Bool) : Option Nat :=
  s.funcs.find? fun f => (s.ctl f).tenant && (s.ctl f).attach.any fun q => q.2 = nsx + 1 && Tbl.get false (s.ctl f).attachAlt q.1 = alt

/-- The namespace of a request: a tenant's NSID; from an operator the NSID is taken as the NSX, and must be attached to a controller of its port
(R354 gives the request no FUNC; log 52). -/
def State.reqNsx (s : State) (p nsid : Nat) : Option Nat :=
  if isTenant p then s.nsOf p nsid
  else if 65536 ≤ nsid || !(s.ns nsid).valid then none
  else if s.funcs.any fun f => s.operatorOf p f && (s.ctl f).tenant && (s.ctl f).attach.any fun q => q.2 = nsid + 1 then some nsid else none

/-- A keyslot can be taken for a new key: not ACTIVE, and named by no band (R150). -/
def State.spareSlot (s : State) (k : Nat) : Bool :=
  recState (s.krec k) ≠ 1 && !s.nss.any fun n => n.2.bands.any fun b =>
    (bandValid b.2.handle && handleSlot (bandHandle b.2.handle) = k) || (bandValid b.2.next && handleSlot (bandHandle b.2.next) = k)

/-- The first spare keyslot from a place in the rotation of the free list (R150; which place is the firmware's, an operand of the command). -/
def State.takeSpare (s : State) (from_ : Nat) : Option Nat :=
  let used := 128 * s.nss.length + s.tableSlots.length + 1
  ((List.range used).map fun i => (from_ + i) % 2 ^ 20).find? s.spareSlot

/-- The target of an import or generation: namespace, keyslot, owners; or the status of the first of rows 1 to 5 of R175 that applies, and
KEY_LIMIT for a keyslot that the controller does not own yet (R153). R175 does not place NO_RESOURCE and KEY_LIMIT: the first comes before row 4 and the
second after row 5 (DESIGN CHOICE, log 82). -/
def State.keyTarget (s : State) (p nsid band mode target spare : Nat) : Nat × Nat × Nat × Nat × Option Nat :=
  match s.reqNsx p nsid with
  | none => (0x101, 0, 0, 0, none)
  | some nsx =>
    let n := s.ns nsx
    let w := if target = 1 then (n.band band).next else (n.band band).handle
    let old := bandValid w
    let slot := if old then some (handleSlot (bandHandle w)) else s.takeSpare spare
    let r := match slot with | some k => s.krec k | none => []
    let ctrl := if old then recCtrl r else (s.attachedAs nsx false).getD 0
    let alt := if old then recAlt r else s.attachedAs nsx true
    if n.nbands ≤ band || (old && !s.recAdmits p r) then (0x101, 0, 0, 0, none)
    else if (mode ≠ 1 && mode ≠ 2) || 1 < target then (0x102, 0, 0, 0, none)
    else if old && recState r = 1 then (0x103, 0, 0, 0, none)
    else match slot with
      | none => (0x0A, 0, 0, 0, none)
      | some k =>
        if s.erasePending k then (0x104, 0, 0, 0, none)
        else if s.vault.wk.isNone then (0x105, 0, 0, 0, none)
        else if !(recUsed r && recCtrl r = ctrl) && 65536 ≤ s.ownedSlots ctrl then (0x10D, 0, 0, 0, none)
        else (0, nsx, k, ctrl, alt)

/-- The ACCEPTED row of R175: both copies of the record, the band's entry with VALID, and the durable slot map. -/
def State.keyAccept (s : State) (p nsx band mode target slot ctrl : Nat) (alt : Option Nat) (material : List Byte) : State :=
  match s.vault.wk with
  | none => s.respond p 0x105 0 []
  | some wk =>
    let r := s.provision wk slot mode ctrl alt nsx band material
    let s := r.2.updNs nsx fun n =>
      let b := n.band band
      n.setBand band (if target = 1 then { b with next := mkBandWord r.1 } else { b with handle := mkBandWord r.1 })
    s.commit.respond p 0 0 []

/-- The payload of an import request (R174). -/
def importPayload (nsid : Word) (band mode target : U8) (nonce ct sealed : Bytes) : List Byte :=
  leBytes 4 nsid.toNat ++ [band, mode, target, 0] ++ nonce ++ ct ++ sealed

/-- KEY_IMPORT of the payload that stands in the page's request area; a request with another payload is another command, and one whose reserved byte 7 is
not 0 gets BAD_FIELD (R173 to R175, R177). -/
def execKeyImport (p : PageId) (nsid : Word) (band mode target : U8) (nonce ct sealed : Bytes) (spare : BitVec 20) (s : State) : Res :=
  s.imdexV p 0x0103 fun s =>
    let b := Memory.bytes (s.page p).area 16 1672
    if b.getD 7 0 ≠ 0 then s.badField p 7
    else if b ≠ importPayload nsid band mode target nonce ct sealed || nonce.length ≠ 16 || ct.length ≠ 1568 then s
    else
      let known := s.nonceKnown p nonce
      let s := s.useNonce p nonce
      let t := s.keyTarget p nsid.toNat band.toNat mode.toNat target.toNat spare.toNat
      if t.1 ≠ 0 then s.respond p t.1 0 []
      else
        let r := s.vImport known mode.toNat (b.take 24) ct sealed
        if r.1 ≠ 0 then s.respond p r.1 0 []
        else s.keyAccept p t.2.1 band.toNat mode.toNat target.toNat t.2.2.1 t.2.2.2.1 t.2.2.2.2 r.2

/-- KEY_GENERATE (R176, R177). -/
def execKeyGenerate (p : PageId) (nsid : Word) (band mode target : U8) (spare : BitVec 20) (s : State) : Res :=
  s.imdexV p 0x0104 fun s =>
    let t := s.keyTarget p nsid.toNat band.toNat mode.toNat target.toNat spare.toNat
    if t.1 ≠ 0 then s.respond p t.1 0 []
    else if !s.vault.noise then s.openStatus p
    else
      let k := s.drawKey mode.toNat
      k.2.keyAccept p t.2.1 band.toNat mode.toNat target.toNat t.2.2.1 t.2.2.2.1 t.2.2.2.2 k.1

/-! ## Erases (R178 to R182, R341, R394) -/

/-- An accepted erase of a scope begins: SCOPE stands in byte 0 of the payload (R354), so that the command of another scope does nothing. -/
def State.imdexErase (s : State) (p scope : Nat) (f : State → State) : Res :=
  s.imdex p 0x0105 fun s =>
    if Memory.num (s.page p).area 16 1 ≠ scope || 2 ≤ s.erases.length || s.vault.regBusy = 3 then s else f s

/-- ERASE_BAND: the keyslot of a band's HANDLE, for the owning controller or the operator of its port (R178). -/
def execEraseBand (p : PageId) (band : U8) (f : BitVec 16) (nsid : Word) (late : List TileId) (s : State) : Res :=
  s.imdexErase p 0 fun s => s.withFunc p f.toNat 2 fun s f =>
    match s.nsOf f nsid.toNat with
    | none => s.respond p 0x101 0 []
    | some nsx =>
      let w := ((s.ns nsx).band band.toNat).handle
      let k := handleSlot (bandHandle w)
      if (s.ns nsx).nbands ≤ band.toNat || !bandValid w || !s.recAdmits p (s.krec k) then s.respond p 0x101 0 []
      else s.eraseStart (mkErase 0 p none 0 k) (late.map fun t => t.toNat)

/-- ERASE_NAMESPACE: every keyslot with the namespace's NSX (R178). -/
def execEraseNamespace (p : PageId) (f : BitVec 16) (nsid : Word) (late : List TileId) (s : State) : Res :=
  s.imdexErase p 1 fun s => s.withFunc p f.toNat 2 fun s f =>
    match s.nsOf f nsid.toNat with
    | none => s.respond p 0x101 0 []
    | some nsx => s.eraseStart (mkErase 0 p none 1 nsx) (late.map fun t => t.toNat)

/-- ERASE_CONTROLLER: every keyslot whose CTRL is the controller (R178). -/
def execEraseController (p : PageId) (f : BitVec 16) (late : List TileId) (s : State) : Res :=
  s.imdexErase p 2 fun s => s.withFunc p f.toNat 2 fun s f => s.eraseStart (mkErase 0 p none 2 f) (late.map fun t => t.toNat)

/-- ERASE_DEVICE: the vault erases the epoch secret and drives the purge line; the request is answered once every powered tile has acknowledged and
the slot map is durable. FUSE_LIMIT stands in DETAIL (R180, R341, R366, R367, R394). -/
def execEraseDevice (p : PageId) (s : State) : Res :=
  s.imdexErase p 3 fun s =>
    if isTenant p then s.respond p 4 0 []
    else if !s.vault.noise then s.openStatus p
    else
      let q := s.eraseRegister
      let r := q.1.vDeviceErase
      let drop := fun (s : State) => match q.2 with | some k => s.eraseWithdraw k | none => s
      if r.2 = 0x0A then (drop r.1).respond p 0 0x0A []
      else if r.2 = 1 then (drop r.1).openStatus p
      else
        let s := r.1.eraseMolts 3 0
        let s := match q.2 with | some k => s.updVault fun v => { v with regLined := v.regLined ||| (1#2 <<< k) } | none => s
        { s with erases := s.erases ++ [{ mkErase 0 p none 3 0 with waiting := s.tilesOn, reg := q.2, lined := true, lost := r.2 = 3 }] }

/-! ## Ledgers and rates (R246, R247, R353) -/

/-- LEDGER_READ: one whole copy, taken now; the read resets DELAY_MAX and EVENTS_LOST (R247). -/
def execLedgerRead (p : PageId) (f : BitVec 16) (s : State) : Res :=
  s.imdex p 0x0106 fun s => s.withFunc p f.toNat 0 fun s f =>
    let s := s.ledgerCopy f
    let b := (s.ctl f).ledgerCopy.bytes
    (s.updCtl f fun c => { c with ledger := { c.ledger with delayMax := 0, evLost := 0, evNew := 0 } }).respond p 0 0 b

/-- RATE_SET: both rates and bursts of a controller's mailbox (R353). -/
def execRateSet (p : PageId) (f gRate gBurst vRate vBurst : BitVec 16) (s : State) : Res :=
  s.imdex p 0x0107 fun s => s.withFunc p f.toNat 0 fun s f =>
    let s := s.updCtl f fun c =>
      let c := c.fill s.now
      { c with rateG := gRate.toNat, burstG := gBurst.toNat, rateV := vRate.toNat, burstV := vBurst.toNat
               tokG := min c.tokG (gBurst.toNat * 1000000), tokV := min c.tokV (vBurst.toNat * 1000000) }
    s.commit.respond p 0 0 []

/-! ## Molts (R184 to R187) -/

/-- The outcome of a molt-start for a band of a namespace: status, DETAIL, and the new molt's number (R185). -/
def State.moltStartCheck (s : State) (p nsx band : Nat) : Nat × Nat × Nat :=
  let b := (s.ns nsx).band band
  if (s.ns nsx).nbands ≤ band || (bandValid b.handle && !s.recAdmits p (s.krec (handleSlot (bandHandle b.handle)))) then (0x101, 0, 0)
  else s.moltStartOk nsx band

/-- MOLT_START (R185). -/
def execMoltStart (p : PageId) (nsid : Word) (band : U8) (s : State) : Res :=
  s.imdex p 0x0201 fun s =>
    match s.reqNsx p nsid.toNat with
    | none => s.respond p 0x101 0 []
    | some nsx =>
      let c := s.moltStartCheck p nsx band.toNat
      if c.1 ≠ 0 then s.respond p c.1 c.2.1 []
      else (s.moltArm c.2.2 nsx band.toNat).respond p 0 0 [BitVec.ofNat 8 c.2.2]

/-- A command on molt m from a requester that may act on it, in a state that admits it; else NOT_OWNER, NOT_PERMITTED or MOLT_STATE (R185, R186). -/
def State.moltCmd (s : State) (p op m : Nat) (ok : Molt → Bool) (f : State → State) : Res :=
  s.imdex p op fun s =>
    let r := s.krec (handleSlot (s.molt m).old)
    if 64 ≤ m then s.badField p 0
    else if (s.molt m).st = 0 then s.respond p 0x10C m []
    else if !s.recAdmits p r then s.respond p (if isTenant p then 0x101 else 4) 0 []
    else if !ok (s.molt m) then s.respond p 0x10C m [] else f s

/-- MOLT_PAUSE: a RUNNING molt pauses with cause OPERATOR, a window past step 5 finishing first (R186, R192, R199, R206). -/
def execMoltPause (p : PageId) (m : U8) (s : State) : Res :=
  s.moltCmd p 0x0202 m.toNat (fun r => r.st = 2) fun s =>
    ((s.updMolt m.toNat fun r => { r with pcause := 1 }).moltCheck m.toNat).respond p 0 0 []

/-- MOLT_RESUME: a molt paused with a cause that only molt-resume clears goes on (R186, R192). -/
def execMoltResume (p : PageId) (m : U8) (s : State) : Res :=
  s.moltCmd p 0x0203 m.toNat (fun r => r.st = 3 && r.pcause ≠ 0) fun s =>
    let s := s.updMolt m.toNat fun r => { r with pcause := 0, drains := 0, fails := 0 }
    let s := s.moltCheck m.toNat
    (s.moltJournal m.toNat (s.journalOf m.toNat).pend (s.journalOf m.toNat).fp).respond p 0 0 []

/-- MOLT_CANCEL: an ARMED molt is deleted, the band unchanged (R186). -/
def execMoltCancel (p : PageId) (m : U8) (s : State) : Res :=
  s.moltCmd p 0x0204 m.toNat (fun r => r.st = 1) fun s => (s.moltFree m.toNat).respond p 0 0 []

/-- MOLT_STATUS: the molt record (R188). -/
def execMoltStatus (p : PageId) (m : U8) (s : State) : Res :=
  s.moltCmd p 0x0205 m.toNat (fun _ => true) fun s => s.respond p 0 0 (s.molt m.toNat).bytes

end Sys2Proof.Machine
end

