-- ==== Sys2Proof/Machine/Manage.lean ====
section
/-!
DEFINITION. The Imdex commands of operators: tenants, namespaces and attachment (R210 to R215, R232, R237), rails, IDE, port modes and drives
(R237, R276, R283, R306, R312, R316), faults and capsules (R322, R324, R472), and claims (R356).
-/

namespace Sys2Proof.Machine

/-- BAD_FIELD where the spec gives the payload no layout: the offset is free (log 14). -/
def State.badOpen (s : State) (p : Nat) : State := let d := s.fresh 16; d.2.badField p d.1.toNat

/-! ## Tenants (R210, R232, R237, R353) -/

/-- The controller with a contract written; a new tenant's buckets and ledger are new (R231, R353). -/
def State.withContract (s : State) (f : Nat) (w0 w1 : Word) : State :=
  let s := if (s.ctl f).tenant then s
           else s.updCtl f fun c => { c with tenant := true, rateG := 200, rateV := 20, burstG := 32, burstV := 4, tokG := 32000000, tokV := 4000000, tokT := s.now
                                             ledger := Ledger.init, ledgerCopy := Ledger.init }
  s.setContract f w0 w1

/-- A contract is refused: DETAIL of CONTRACT_REJECTED by R232 or R237. -/
def State.contractBad (s t : State) (f : Nat) : Option Nat :=
  let q := s.funcQuad f
  if 65536 < ((t.funcsOf q).map fun f => (t.ctl f).quota).sum then some (0x100 + q)
  else match t.homeTile f with
    | none => none
    | some h => if s.homeSum h < t.homeSum h && t.tileCapacity h * 7 < t.homeSum h * 8 then some h else none

/-- TENANT_SET: a controller's contract, and its tenant record when it has none (R210, R232, R237). -/
def execTenantSet (p : PageId) (f commit elastic quota : BitVec 16) (lat : U8) (home : Option (Fin 4)) (s : State) : Res :=
  s.imdex p 0x0301 fun s => s.withFunc p f.toNat 0 fun s f =>
    let w0 := fields [(16, elastic.toNat), (0, commit.toNat)]
    let w1 := fields [(31, 1), (30, b2n home.isSome), (28, (home.map Fin.val).getD 0), (20, lat.toNat), (0, quota.toNat % 2 ^ 13)]
    if 4096 < quota.toNat || (quota ≠ 0 && commit = 0 && elastic = 0) then s.badOpen p
    else
      let t := s.withContract f w0 w1
      match s.contractBad t f with
      | some d => s.respond p 0x203 d []
      | none => t.commit.respond p 0 0 []

/-- TENANT_DELETE: refused while any namespace is attached (R354). -/
def execTenantDelete (p : PageId) (f : BitVec 16) (s : State) : Res :=
  s.imdex p 0x0302 fun s => s.withFunc p f.toNat 0 fun s f =>
    if !(s.ctl f).tenant || (s.ctl f).attach.any fun q => q.2 ≠ 0 then s.badField p 0
    else ((s.setContract f 0 0).updCtl f fun c => { c with tenant := false, attach := [], attachAlt := [] }).commit.respond p 0 0 []

/-! ## Namespaces (R151, R152, R212 to R215, R354) -/

/-- NS_CREATE: the lowest free NSX (R354). -/
def execNsCreate (p : PageId) (nsze : DWord) (lbads nbands : U8) (s : State) : Res :=
  s.imdex p 0x0303 fun s =>
    if nsze = 0 || (lbads.toNat ≠ 9 && lbads.toNat ≠ 12) || nbands.toNat = 0 || 64 < nbands.toNat then s.badOpen p
    else
      match (List.range (min 65536 (s.nss.length + 1))).find? fun x => !(s.ns x).valid with
      | none => s.respond p 0x0A 0 []
      | some x =>
        (s.setNs x { Ns.init with valid := true, nsze := nsze.toNat, lbads := lbads.toNat, nbands := nbands.toNat }).commit.respond p 0 0 (leBytes 2 x)

def recExtent (r : ExtRec) : Extent :=
  { nstart := r.nstart.toNat, len := r.len.toNat, dport := r.dport.val, dnsid := r.dnsid, dstart := r.dstart.toNat }

/-- The staged extents of a namespace from index 0 on, without a gap. -/
def Ns.stagedList (n : Ns) : List Extent :=
  ((List.range 256).map fun i => Tbl.get none n.staged i).takeWhile Option.isSome |>.filterMap id

/-- Two extents share a drive LBA (R215). -/
def State.extMeet (s : State) (a b : Extent) : Bool :=
  s.extDrive a = s.extDrive b && s.extNsid a = s.extNsid b && a.dstart < b.dstart + b.len && b.dstart < a.dstart + a.len

/-- An extent lies in a band whose key, or next key, is GCM-sector (R215). -/
def State.inGcmBand (s : State) (n : Ns) (x : Extent) : Bool :=
  (List.range n.nbands).any fun b =>
    n.bandLo b < x.nstart + x.len && x.nstart < n.bandHi b
      && [(n.band b).handle, (n.band b).next].any fun w => bandValid w && recMode (s.krec (handleSlot (bandHandle w))) = 2

/-- The index of the first staged extent that breaks R215; none when all meet it. Its drive must be ACTIVE for its namespaces to be known. -/
def State.extentsBad (s : State) (nsx : Nat) (l : List Extent) : Option Nat :=
  let n := s.ns nsx
  let others := s.nss.flatMap fun q => if q.1 ≠ nsx && q.2.valid then q.2.extents else []
  let ok := fun (i : Nat) (x : Extent) =>
    let d := s.extNs x
    x.nstart = (match i, l[i - 1]? with | 0, _ => 0 | _, some y => y.nstart + y.len | _, none => 0) && 0 < x.len && x.nstart + x.len ≤ n.nsze
      && s.drvActive (s.extDrive x) && d.live && !d.pi && !d.extLba && d.lbads = n.lbads && x.dstart + x.len ≤ d.nsze
      && !others.any (s.extMeet x) && !(l.take i).any (s.extMeet x) && (!s.inGcmBand n x || gcmOk d n.lbads)
  match l.zipIdx.find? fun q => !ok q.2 q.1 with
  | some q => some q.2
  | none => if (l.map fun (x : Extent) => x.len).sum = n.nsze then none else some l.length

/-- The identity record of every drive that the extents use (R306). -/
def State.recordDrives (s : State) (l : List Extent) : State :=
  ((l.map s.extDrive).eraseDups).foldl (fun s d => s.updDrive d fun x => { x with record := some (recordOf x.ident (s.usedNsids d)) }) s

/-- NS_EXTENTS: up to 60 records staged from an index on; with COMMIT the staged list is checked and takes effect (R214, R215, R306, R354). -/
def execNsExtents (p : PageId) (nsx : BitVec 16) (first : BitVec 16) (recs : List ExtRec) (commit : Bool) (s : State) : Res :=
  s.imdex p 0x0304 fun s =>
    let x := nsx.toNat
    if !(s.ns x).valid || 60 < recs.length || 256 < first.toNat + recs.length then s.badOpen p
    else
      let s := recs.zipIdx.foldl (fun s q => s.updNs x fun n => { n with staged := Tbl.set none n.staged (first.toNat + q.2) (some (recExtent q.1)) }) s
      if !commit then s.respond p 0 0 []
      else
        let l := (s.ns x).stagedList
        match s.extentsBad x l with
        | some i => s.respond p 0x202 i []
        | none => (((s.updNs x fun n => { n with extents := l, staged := [] }).recordDrives l).commit).respond p 0 0 []

/-- Keyslots that the CTRL owner of a namespace would own once each of its bands has a key: those it has, and one more for each band without one (R153;
DEDUCED, log 100). -/
def State.bandSlots (s : State) (nsx : Nat) : Nat :=
  let n := s.ns nsx
  match s.attachedAs nsx false with
  | none => 0
  | some f => s.ownedSlots f + ((List.range n.nbands).filter fun b => !bandValid (n.band b).handle).length

/-- NS_BANDS: the START values of the namespace's bands: entry 0 at 0, rising strictly, within the namespace; KEY_LIMIT where its owner could not hold
their keys (R152, R153). -/
def execNsBands (p : PageId) (nsx : BitVec 16) (starts : List DWord) (s : State) : Res :=
  s.imdex p 0x0305 fun s =>
    let n := s.ns nsx.toNat
    let at_ := fun (i : Nat) => (starts.getD i 0).toNat
    if !n.valid || starts.length ≠ 64 then s.badOpen p
    else
      match (List.range n.nbands).find? fun i => (i = 0 && at_ 0 ≠ 0) || (i ≠ 0 && at_ i ≤ at_ (i - 1)) || n.nsze ≤ at_ i with
      | some _ => s.badOpen p
      | none =>
        if 65536 < s.bandSlots nsx.toNat then s.respond p 0x10D 0 []
        else ((List.range n.nbands).foldl (fun s i => s.updNs nsx.toNat fun n => n.setBand i { n.band i with start := at_ i }) s).commit.respond p 0 0 []

/-- A namespace of a controller changed: the Changed Namespace List, and its event where the host asked for it (R216; NVMe Base 2.0, log 47). -/
def State.nsChanged (s : State) (f nsid : Nat) : State :=
  let new := !(s.ctl f).changed.contains nsid
  let s := if new then s.updCtl f fun c => { c with changed := insSorted nsid c.changed } else s
  if new && bitOf (Tbl.get 0 (s.ctl f).feats 0x0B).toNat 8 then s.asyncEvent f 0x00040002 else s

/-- The gates of a namespace's molts in a quadrant that did not have them: closed over the open window, or the band of a hand-over (R193). -/
def State.gatesFor (s : State) (nsx : Nat) : State :=
  (s.molts.filter fun q => q.2.st ≠ 0 && q.2.nsx = nsx).foldl (fun s q =>
    let had := s.moltGates q.1
    let s := s.moltProgram q.1 nsx
    ((s.moltGates q.1).filter fun k => !had.contains k).foldl (fun s k =>
      if q.2.win = 0 then s
      else if q.2.win = 5 then s.gateClose k q.1 ((s.ns nsx).bandLo q.2.band) q.2.bend else s.gateClose k q.1 q.2.wmark q.2.wend) s) s

/-- NS_ATTACH: a namespace with committed extents is attached as NSID, for the CTRL or the ALT owner; each role has one controller (R193, R212). -/
def execNsAttach (p : PageId) (f : BitVec 16) (nsid : Word) (nsx : BitVec 16) (alt : Bool) (s : State) : Res :=
  s.imdex p 0x0306 fun s => s.withFunc p f.toNat 0 fun s f =>
    let n := nsid.toNat
    let x := nsx.toNat
    if !(s.ctl f).tenant || n = 0 || 1024 < n || Tbl.get 0 (s.ctl f).attach n ≠ 0 || (s.attachedAs x alt).isSome
        || (s.ctl f).attach.any fun q => q.2 = x + 1 then s.badOpen p
    else if !(s.ns x).valid || (s.ns x).extents.isEmpty then s.respond p 0x202 0 []
    else
      let s := s.updCtl f fun c => { c with attach := Tbl.set 0 c.attach n (x + 1), attachAlt := Tbl.set false c.attachAlt n alt }
      (((s.gatesFor x).nsChanged f n).commit).respond p 0 0 []

/-- NS_DETACH (R193, R212). -/
def execNsDetach (p : PageId) (f : BitVec 16) (nsid : Word) (nsx : BitVec 16) (s : State) : Res :=
  s.imdex p 0x0307 fun s => s.withFunc p f.toNat 0 fun s f =>
    if Tbl.get 0 (s.ctl f).attach nsid.toNat ≠ nsx.toNat + 1 then s.badOpen p
    else
      let s := s.updCtl f fun c => { c with attach := Tbl.set 0 c.attach nsid.toNat 0, attachAlt := Tbl.set false c.attachAlt nsid.toNat false }
      ((s.nsChanged f nsid.toNat).commit).respond p 0 0 []

/-- NS_DELETE: refused unless every keyslot is ERASED or EMPTY; controllers that it is attached to lose it (R354, log 53). -/
def execNsDelete (p : PageId) (nsx : BitVec 16) (s : State) : Res :=
  s.imdex p 0x0308 fun s =>
    let x := nsx.toNat
    if !(s.ns x).valid || !(s.activeSlots fun r => recNsx r = x).isEmpty then s.badField p 0
    else
      let s := s.funcs.foldl (fun s f => ((s.ctl f).attach.filter fun q => q.2 = x + 1).foldl (fun s q =>
        (s.updCtl f fun c => { c with attach := Tbl.set 0 c.attach q.1 0, attachAlt := Tbl.set false c.attachAlt q.1 false }).nsChanged f q.1) s) s
      ((s.setNs x Ns.init).commit).respond p 0 0 []

/-! ## Rails, IDE, ports and drives -/

/-- RAIL_COMMIT: a tile's committed rail, refused where it would break R237 for the contracts homed there; a target below it rises to it outside
tail drop (R237). -/
def execRailCommit (p : PageId) (t : U8) (mv : BitVec 16) (s : State) : Res :=
  s.imdex p 0x0309 fun s =>
    if 16 ≤ t.toNat || mv.toNat < 550 || 900 < mv.toNat then s.badOpen p
    else
      let u := s.updPwr fun w => { w with railC := Tbl.set 900 w.railC t.toNat mv.toNat }
      if u.tileCapacity t.toNat * 7 < u.homeSum t.toNat * 8 then s.respond p 0x203 t.toNat []
      else
        let u := if u.pwr.stage = 0 && (u.pwr.rail t.toNat).target < mv.toNat then u.ttgt t.toNat mv.toNat (u.pwr.rail t.toNat).vout else u
        u.respond p 0 0 []

/-- IDE_REQUIRE: a controller, or an operator window, is restricted to a stream (R283, R345). -/
def execIdeRequire (p : PageId) (who : BitVec 16) (stream : Option (Fin 8)) (s : State) : Res :=
  s.imdex p 0x030A fun s =>
    let w := who.toNat
    if 1028 ≤ w then s.badField p 0
    else if w < 1024 then
      if s.operatorOf p w then ((s.updCtl w fun c => { c with ideReq := stream.map Fin.val }).funcSend w).respond p 0 0 [] else s.respond p 4 0 []
    else if p.val = w || s.mctpOp p then (s.updPort (w - 1024) fun u => { u with ideReq := stream.map Fin.val }).respond p 0 0 []
    else s.respond p 4 0 []

/-- The groups whose slots must be disabled for a mode write: the group, and its partner when the old or the new mode is X16 (R276, R297). -/
def State.modeLocked (s : State) (g : Nat) (v : Word) : Bool :=
  (s.group g).en ≠ 0 || (((s.group g).gmode = 3 || fld v.toNat 1 0 = 3) && (s.group (pairOf g)).en ≠ 0)

/-- PGn_MODE is written: reserved bits stay 0, and a write while a slot is enabled is discarded with MODEERR (R297). -/
def State.modeWrite (s : State) (g : Nat) (v : Word) : State :=
  if s.modeLocked g v then s.updGroup g fun x => { x with modeErr := true }
  else State.admFollow s (s.updGroup g fun x => { x with mode := v &&& 0x000EFFF3 })

/-- GROUP_MODE: only while every slot of the group and of its X16 partner is disabled; a mode that cannot be enabled whatever the partner's is is not kept.
A mode that only waits for its X16 partner's is kept, and CFGERR holds it back until then (R276, R298; log 89). -/
def execGroupMode (p : PageId) (g : U8) (value : Word) (s : State) : Res :=
  s.imdex p 0x0401 fun s =>
    if 16 ≤ g.toNat then s.badField p 0
    else if s.modeLocked g.toNat value then s.respond p 0x201 (s.cfgErr g.toNat) []
    else
      let t := s.modeWrite g.toNat value
      if t.ownErr g.toNat ≠ 0 then s.respond p 0x201 (t.ownErr g.toNat) [] else t.respond p 0 0 []

/-- A command on a drive: BAD_FIELD past 63, DRIVE_STATE with STATE where its state does not allow it (R355). -/
def State.driveCmd (s : State) (p op d : Nat) (ok : Nat → Bool) (f : State → State) : Res :=
  s.imdex p op fun s =>
    if 64 ≤ d then s.badField p 0
    else if !ok (s.drive d).st then s.respond p 0x204 (s.drive d).st [] else f s

/-- DRIVE_ASSIGN: the drive's identity is recorded for its index; an UNKNOWN drive becomes ACTIVE, and the extents recorded for the index go (R306). -/
def execDriveAssign (p : PageId) (d : U8) (s : State) : Res :=
  s.driveCmd p 0x0402 d.toNat (fun st => st = 2 || st = 6) fun s =>
    let k := d.toNat
    let unknown := (s.drive k).st = 6
    let s := if unknown then
        (s.nss.map Prod.fst).foldl (fun s x => s.updNs x fun n => { n with extents := n.extents.filter fun e => s.extDrive e ≠ k }) s
      else s
    let s := s.updDrive k fun x => { x with record := some (recordOf x.ident (s.usedNsids k)) }
    let s := if unknown then s.drvActivate k else s
    s.commit.respond p 0 0 []

/-- DRIVE_RELEASE: a quarantined drive is brought up again (R316). -/
def execDriveRelease (p : PageId) (d : U8) (s : State) : Res :=
  s.driveCmd p 0x0403 d.toNat (fun st => st = 4) fun s => (s.drvRelease d.toNat).respond p 0 0 []

/-- DRIVE_RESET: the part resets the drive's controller (R312). -/
def execDriveReset (p : PageId) (d : U8) (s : State) : Res :=
  s.driveCmd p 0x0404 d.toNat (fun st => st ≠ 0 && st ≠ 3 && st ≠ 4) fun s => (s.driveReset d.toNat).respond p 0 0 []

/-- DRIVE_STATUS: the drive's registers (R303, R318). -/
def execDriveStatus (p : PageId) (d : U8) (s : State) : Res :=
  s.driveCmd p 0x0405 d.toNat (fun _ => true) fun s =>
    s.respond p 0 0 ([0x00, 0x08, 0x0C, 0x10, 0x14, 0x18].flatMap fun o => leBytes 4 (s.drivePeek d.toNat o).toNat)

/-! ## Faults and capsules (R322, R324, R472) -/

/-- FAULT_READ: FLT_STAT, the masks, and the 16 entries (R324, R326). -/
def execFaultRead (p : PageId) (s : State) : Res :=
  s.imdex p 0x0501 fun s =>
    s.respond p 0 0 (([0x00, 0x10, 0x14, 0x18, 0x1C, 0x20, 0x24] ++ (List.range 64).map fun i => 0x100 + 4 * i).flatMap fun o => leBytes 4 (s.fltPeek o).toNat)

/-- The domain itself is quarantined (R326). -/
def State.domMasked (s : State) (lv i : Nat) : Bool :=
  if lv = 1 then Tbl.get false s.flt.qeng i else if lv = 2 then s.flt.qtile.getLsbD i else lv = 3 && s.flt.qquad.getLsbD i

/-- FAULT_CLEAR: a recovery of a quarantined domain runs, and a fault in it quarantines the domain again (R322). -/
def execFaultClear (p : PageId) (level index : U8) (s : State) : Res :=
  s.imdex p 0x0502 fun s =>
    if !s.domMasked level.toNat index.toNat then s.badOpen p
    else match s.faultClear level.toNat index.toNat with
      | some t => t.respond p 0 0 []
      | none => s.respond p 0x0A 0 []

/-- CAPSULE_CAPTURE: always overwrites (R472). -/
def execCapsuleCapture (p : PageId) (s : State) : Res :=
  s.imdex p 0x0504 fun s => s.withKey p false fun s => (s.capture 1).respond p 0 0 []

/-- CAPSULE_READ: up to 2,000 bytes of the capsule (R472). -/
def execCapsuleRead (p : PageId) (off : Word) (len : BitVec 16) (s : State) : Res :=
  s.imdex p 0x0505 fun s =>
    if 2000 < len.toNat || 65536 < off.toNat + len.toNat then s.badOpen p
    else if !s.boot.capValid then s.openStatus p
    else
      let b := s.norBytes (0x1000 + off.toNat) len.toNat
      { s with boot := { s.boot with capRead := s.boot.capRead || (len ≠ 0 && off.toNat + len.toNat = 65536) } }.respond p 0 0 b

/-! ## Claims (R356) -/

/-- Indices of a class of shared resources; 0 where there is no such class. -/
def claimSize (cls : Nat) : Nat :=
  match cls with | 1 => 64 | 2 => 8 | 3 => 64 | 4 => 8 | 5 => 32 | 6 => 16 | _ => 0

/-- The claim on an index of a class. -/
def State.claim (s : State) (cls i : Nat) : Option Claim := Tbl.get none s.claims (64 * cls + i)
def State.setClaim (s : State) (cls i : Nat) (c : Option Claim) : State := { s with claims := Tbl.set none s.claims (64 * cls + i) c }

/-- The range of a request lies in its class. -/
def claimRange (cls first count : Nat) : Bool := count ≠ 0 && first + count ≤ claimSize cls

/-- The first index of a range that is held. -/
def State.claimHeld (s : State) (cls first count : Nat) : Option Nat := ((List.range count).map (first + ·)).find? fun i => (s.claim cls i).isSome

/-- CLAIM: every index in the range or none; CONFLICT names the holder of the first held index, and gives that index. -/
def execClaim (p : PageId) (cls first count label : U8) (s : State) : Res :=
  s.imdex p 0x0601 fun s =>
    if !claimRange cls.toNat first.toNat count.toNat then s.badOpen p
    else match s.claimHeld cls.toNat first.toNat count.toNat with
      | some i => s.respond p 7 ((s.claim cls.toNat i).map Claim.holder |>.getD 0) [BitVec.ofNat 8 i]
      | none =>
        (((List.range count.toNat).map (first.toNat + ·)).foldl (fun s i => s.setClaim cls.toNat i (some { holder := p.val, label := label.toNat })) s).respond p 0 0 []

/-- RELEASE: accepted only from the holding page; a pin that is released reverts to OWNER = NONE (R356, R412). -/
def execRelease (p : PageId) (cls first count : U8) (s : State) : Res :=
  s.imdex p 0x0602 fun s =>
    let mine := fun i => match s.claim cls.toNat i with | some c => decide (c.holder = p.val) | none => false
    let l := (List.range count.toNat).map (first.toNat + ·)
    if !claimRange cls.toNat first.toNat count.toNat then s.badOpen p
    else match l.find? fun i => !mine i with
      | some i => (match s.claim cls.toNat i with | some c => s.respond p 7 c.holder [BitVec.ofNat 8 i] | none => s.badOpen p)
      | none =>
        (l.foldl (fun s i =>
          let s := s.setClaim cls.toNat i none
          if cls.toNat = 1 then { s with pio := { s.pio with pins := Tbl.upd Pin.init s.pio.pins i fun x => { x with cfg := x.cfg &&& ~~~0x3000#32 } } }
          else s) s).respond p 0 0 []

/-- OWNERS: holder and label of every index of a class; each as held or not, holder, label. -/
def execOwners (p : PageId) (cls : U8) (s : State) : Res :=
  s.imdex p 0x0603 fun s =>
    if claimSize cls.toNat = 0 then s.badField p 0
    else s.respond p 0 0 ((List.range (claimSize cls.toNat)).flatMap fun i => match s.claim cls.toNat i with
      | some c => [1] ++ leBytes 2 c.holder ++ [BitVec.ofNat 8 c.label]
      | none => [0, 0, 0, 0])

end Sys2Proof.Machine
end

