-- ==== Sys2Proof/Machine/Cards.lean ====
section
/-!
DEFINITION. Custodian cards (R386, R417 to R419): the tadpoles' units, the character words, the card program and its pins, the blocks of T=1, the answer to
reset, and the applet's commands; and the program of the backplane's SGPIO stream (R420).
-/

namespace Sys2Proof.Machine

/-! ## Units of the tadpoles -/

def State.tad (s : State) (n : Nat) : Tadpole := s.pio.tad n
def State.updTad (s : State) (n : Nat) (f : Tadpole → Tadpole) : State :=
  { s with pio := { s.pio with tads := Tbl.upd Tadpole.init s.pio.tads n f } }
def State.tctx (s : State) (n c : Nat) : TCtx := (s.tad n).ctx c
def State.updCtx (s : State) (n c : Nat) (f : TCtx → TCtx) : State :=
  s.updTad n fun t => { t with ctxs := Tbl.upd TCtx.init t.ctxs c f }
def State.updPin (s : State) (i : Nat) (f : Pin → Pin) : State := { s with pio := { s.pio with pins := Tbl.upd Pin.init s.pio.pins i f } }

/-- The card channel entry of the booted configuration block for channel `c`: its five pins (R418, R468). -/
def State.cardPins (s : State) (c : Nat) : Option (List Nat) :=
  (((List.range 8).map fun i => (s.boot.cfg.drop (128 + 8 * i)).take 8).find? fun b => b.headD 0xFF = BitVec.ofNat 8 c).map fun b =>
    ((b.drop 1).take 5).map BitVec.toNat

/-- Slots of a round (R397, R414). -/
def Tadpole.slotCount (t : Tadpole) : Nat := 2 ^ (t.slots % 4)

/-- A discarded RUN, ARM or configuration write (R407, R409). -/
def State.tadCfgErr (s : State) (n : Nat) : State := s.updTad n fun t => { t with cfgErr := true }

/-- RUN or ARM of a context: prepared, then RUNNING or ARMED (R402, R405, R407). -/
def State.tadPrepare (s : State) (n c st : Nat) : State :=
  let x := s.tctx n c
  if (x.st ≠ 0 && x.st ≠ 3) || (s.tad n).slotCount ≤ c then s.tadCfgErr n
  else
    let seen := (List.range 8).foldl (fun t k => Tbl.set 0 t k (Tbl.get Ticker.init s.warden.tickers k).expires.toNat) []
    let s := s.updCtx n c fun x =>
      { x with st := st, stall := false, stopping := false, pc := fld x.ccfg.toNat 5 0, k0 := 0, k1 := 0, txc := 32, rxc := 0, seen := seen }
    s.each (List.range 64) fun s i =>
      let p := s.pio.pin i
      if p.owner = 2 && p.tad = n && p.ctx = c then s.updPin i fun p => { p with out := bitOf p.cfg.toNat 0, oe := bitOf p.cfg.toNat 1 } else s

/-! ## Characters (R419) -/

/-- Bits of a frame at extra guard time N: 12 + N, or 11 for N = 255. -/
def cardFrame (n : Nat) : Nat := if n = 255 then 11 else 12 + n

/-- A frame fits one word. -/
def cardOne (n : Nat) : Bool := n ≤ 20 || n = 255

/-- TXLEN as the field holds it: the frame, or 32, which the field writes as 0 (R415). -/
def cardTxlen (n : Nat) : Nat := if cardOne n then cardFrame n % 32 else 0

/-- The even parity bit of a byte. -/
def parityOf (b : Byte) : Nat := ((List.range 8).map fun i => b2n (b.getLsbD i)).sum % 2

/-- Words of one transmitted character: start bit 0, data from bit 1, parity at bit 9, ones for the guard time, and whole words of ones where the frame does
not fit one word. -/
def cardWords (n : Nat) (b : Byte) : List Word :=
  let first := fun (top : Nat) => BitVec.ofNat 32 (2 * b.toNat + parityOf b * 2 ^ 9 + (2 ^ top - 2 ^ 10))
  if cardOne n then [first (cardFrame n)] else first 32 :: List.replicate ((cardFrame n + 31) / 32 - 1) 0xFFFFFFFF

/-- The character of a receive word: start bit at 22, data from 23, parity at 31; none where the start or the parity bit is wrong. -/
def cardRx (w : Word) : Option Byte :=
  let b : Byte := BitVec.ofNat 8 (fld w.toNat 30 23)
  if !w.getLsbD 22 && w.getLsbD 31 == (parityOf b == 1) then some b else none

/-! ## Blocks of T=1 (R417) -/

/-- A card in use: the extra guard time N, 4 × Fi / Di, IFSC and the check code of its answer to reset; the sequence bits; the command's data not yet
acknowledged and the response so far; the failures of the present block; and the words still to come from outside. -/
structure Card where
  n : Nat
  etu4 : Nat
  ifsc : Nat
  crc : Bool
  ns : Bool
  nr : Bool
  cmd : List Byte
  left : List Byte
  resp : List Byte
  /-- the block sent last, as PCB and data, and the block to send again where the card asks for it -/
  pcb : Nat
  inf : List Byte
  fails : Nat
  resynched : Bool
  dead : Bool
  rx : List (List Word)
  sent : List (List Word)
  deriving DecidableEq, Repr

def Card.init (rx : List (List Word)) : Card :=
  { n := 0, etu4 := 1488, ifsc := 32, crc := false, ns := false, nr := false, cmd := [], left := [], resp := [], pcb := 0, inf := [], fails := 0
    resynched := false, dead := false, rx := rx, sent := [] }

/-- One byte through the block CRC of T=1: x^16 + x^12 + x^5 + 1, least significant bit first (log 105). -/
def edcByte (c : Nat) (b : Byte) : Nat := (List.range 8).foldl (fun c _ => if c % 2 = 1 then (c / 2) ^^^ 0x8408 else c / 2) (c ^^^ b.toNat)

/-- The check code of a block: LRC, or CRC, high byte first, when TC3 selects it. -/
def Card.edc (c : Card) (l : List Byte) : List Byte :=
  if c.crc then let v := 0xFFFF - l.foldl edcByte 0xFFFF; [BitVec.ofNat 8 (v / 256), BitVec.ofNat 8 v] else [l.foldl (· ^^^ ·) 0]

/-- A block: NAD 0, PCB, LEN, data and check code. -/
def Card.block (c : Card) (pcb : Nat) (inf : List Byte) : List Byte :=
  let l : List Byte := [0, BitVec.ofNat 8 pcb, BitVec.ofNat 8 inf.length] ++ inf
  l ++ c.edc l

/-- What comes back after characters are sent: their echo, then the card's answer. -/
inductive Back where
  /-- no answer within the limits -/
  | none
  /-- an echo, start, parity, length or check code error -/
  | bad
  | ok (l : List Byte)
  deriving DecidableEq, Repr

/-- Characters are sent and the received words are judged: each echo is compared with what was sent and discarded (R419). -/
def Card.swap (c : Card) (out : List Byte) : Back × Card :=
  let r := c.rx.headD []
  let c := { c with rx := c.rx.tail, sent := c.sent ++ [out.flatMap (cardWords c.n)] }
  let l := r.map cardRx
  (if l.take out.length ≠ out.map some then .bad
   else if (l.drop out.length).isEmpty then .none
   else if (l.drop out.length).all Option.isSome then .ok ((l.drop out.length).filterMap id) else .bad, c)

/-- PCB and data of a received block: NAD 0, LEN at most 254 and exact, check code right. -/
def Card.unblock (c : Card) (l : List Byte) : Option (Nat × List Byte) :=
  let e := if c.crc then 2 else 1
  let len := (l.getD 2 0).toNat
  let body := l.take (3 + len)
  if l.getD 0 0 = 0 && len ≤ 254 && l.length = 3 + len + e && l.drop (3 + len) = c.edc body then some ((l.getD 1 0).toNat, body.drop 3) else none

/-- The next block of the command: at most IFSC bytes, with M = 1 while more follow. -/
def Card.nextI (c : Card) : Card :=
  { c with pcb := 64 * b2n c.ns + 32 * b2n (decide (c.ifsc < c.left.length)), inf := c.left.take c.ifsc, fails := 0 }

/-- An R-block with the expected sequence bit. -/
def Card.nextR (c : Card) (code : Nat) : Card := { c with pcb := 0x80 + 16 * b2n c.nr + code, inf := [] }

/-- A failure of the present block: an R-block, at the third failure S(RESYNCH) once, and at the next failure the card is deactivated (R417). -/
def Card.failed (c : Card) : Card :=
  let c := { c with fails := c.fails + 1 }
  if c.resynched then { c with dead := true }
  else if c.fails = 3 then { c with resynched := true, pcb := 0xC0, inf := [] }
  else c.nextR 1

/-- A good block has come in answer to the one sent: true when the response is complete. -/
def Card.got (c : Card) (last pcb : Nat) (inf : List Byte) : Card × Bool :=
  if last = 0xC0 then
    if pcb = 0xE0 && inf = [] then ({ c with ns := false, nr := false, left := c.cmd, resp := [] }.nextI, false) else ({ c with dead := true }, false)
  else if pcb = 0xC3 && inf.length = 1 then ({ c with pcb := 0xE3, inf := inf }, false)
  else if pcb = 0xC1 && inf.length = 1 && inf.headD 0 ≠ 0 && inf.headD 0 ≠ 255 then ({ c with ifsc := (inf.headD 0).toNat, pcb := 0xE1, inf := inf }, false)
  else if pcb < 0x80 then
    if (pcb / 64 = 1) ≠ c.nr || pcb % 32 ≠ 0 || c.ifsc < c.left.length then (c.failed, false)
    else
      let c := { c with nr := !c.nr, resp := c.resp ++ inf, left := [], ns := if c.left = [] then c.ns else !c.ns, fails := 0 }
      if pcb / 32 % 2 = 1 then (c.nextR 0, false) else (c, true)
  else if pcb < 0xC0 && inf = [] then
    if c.left = [] then ({ c.failed with pcb := if c.failed.pcb = 0xC0 then 0xC0 else 0x80 + 16 * b2n c.nr }, false)
    else if decide (pcb / 16 % 2 = 1) ≠ c.ns && c.ifsc < c.left.length then ({ c with ns := !c.ns, left := c.left.drop c.ifsc }.nextI, false)
    else
      let d := c.failed
      (if d.dead || d.pcb = 0xC0 then d else { c.nextI with fails := d.fails }, false)
  else (c.failed, false)

/-- Blocks go out and in until the response is complete or the card is dead; every block sent takes one group of received words. -/
def Card.run : Nat → Card → Card
  | 0, c => { c with dead := true }
  | k + 1, c =>
    let last := c.pcb
    match c.swap (c.block c.pcb c.inf) with
    | (.none, c) => { c with dead := true }
    | (.bad, c) => if c.failed.dead then c.failed else c.failed.run k
    | (.ok l, c) =>
      match c.unblock l with
      | none => if c.failed.dead then c.failed else c.failed.run k
      | some b =>
        let r := c.got last b.1 b.2
        if r.2 || r.1.dead then r.1 else r.1.run k

/-- One command: its response, or none where the card is dead or its limits are exhausted. -/
def Card.apdu (c : Card) (l : List Byte) : Card := ({ c with cmd := l, left := l, resp := [] }.nextI).run (c.rx.length + 1)

/-! ## Answer to reset (R417) -/

/-- Fi by the high nibble of TA1, and Di by the low one; 0 for a reserved value (ISO/IEC 7816-3; PRESUMED, log 105). -/
def cardFi (k : Nat) : Nat := [372, 372, 558, 744, 1116, 1488, 1860, 0, 0, 512, 768, 1024, 1536, 2048, 0, 0].getD k 0
def cardDi (k : Nat) : Nat := [0, 1, 2, 4, 8, 16, 32, 64, 12, 20, 0, 0, 0, 0, 0, 0].getD k 0

/-- 4 × Fi / Di of TA1 where the part takes it: an integer, with Fi / Di at least 16. -/
def cardEtu (ta1 : Byte) : Option Nat :=
  let f := cardFi (ta1.toNat / 16)
  let d := cardDi (ta1.toNat % 16)
  if f ≠ 0 && d ≠ 0 && 4 * f % d = 0 && 16 * d ≤ f then some (4 * f / d) else none

/-- Groups of interface bytes TAi, TBi, TCi, TDi after the nibble Yi, and the bytes left; none where the answer ends too early. -/
def atrGroups : Nat → Nat → List Byte → Option (List (List (Option Byte)) × List Byte)
  | 0, _, _ => none
  | k + 1, y, l =>
    let ys := setBits 4 y
    if l.length < ys.length then none
    else
      let g := (List.range 4).map fun i => if bitOf y i then l[(ys.filter (· < i)).length]? else none
      let l := l.drop ys.length
      match g.getD 3 none with
      | none => some ([g], l)
      | some td => (atrGroups k (td.toNat / 16) l).map fun r => (g :: r.1, r.2)

/-- The card after a good answer to reset, with TA1 and the first protocol offered: direct convention, T=1 offered, historical bytes and TCK exact. -/
def Card.atr (c : Card) (l : List Byte) : Option (Card × Option Byte × Bool × Bool) :=
  match atrGroups 8 ((l.getD 1 0).toNat / 16) (l.drop 2) with
  | none => none
  | some (g, r) =>
    let tag := fun (i k : Nat) => (g.getD i []).getD k none
    let offers := g.filterMap fun x => (x.getD 3 none).map fun t => t.toNat % 16
    let ifsc := ((tag 2 0).getD 32).toNat
    if l.getD 0 0 = 0x3B && offers.contains 1 && r.length = (l.getD 1 0).toNat % 16 + 1 && (l.drop 1).foldl (· ^^^ ·) 0 = 0 && 1 ≤ ifsc then
      some ({ c with n := ((tag 0 2).getD 0).toNat, ifsc := min 254 ifsc, crc := ((tag 2 2).getD 0).getLsbD 0 }, tag 0 0, (tag 1 0).isSome
        , offers.headD 0 = 1)
    else none

/-- The answer to a reset: the words that come with nothing sent. -/
def Card.reset (c : Card) : Option (Card × Option Byte × Bool × Bool) :=
  let l := (c.rx.headD []).map cardRx
  let c := { c with rx := c.rx.tail }
  if l.all Option.isSome then c.atr (l.filterMap id) else none

/-- PPS: Fi and Di of TA1 are asked for where the part takes them, and T=1 where it is not the first protocol offered; a card in specific mode (TA2) is asked
nothing (logs 105, 111). -/
def Card.pps (c : Card) (ta1 : Option Byte) (specific first : Bool) : Card :=
  let want := if specific then none else ta1.bind fun b => (cardEtu b).bind fun e => if e = 1488 then none else some (b, e)
  if specific || (want.isNone && first) then c
  else
    let req : List Byte := match want with | some x => [0xFF, 0x11, x.1] | none => [0xFF, 0x01]
    let out := req ++ [req.foldl (· ^^^ ·) 0]
    match c.swap out with
    | (.ok l, c) => if l = out then { c with etu4 := (want.map Prod.snd).getD c.etu4 } else if l = [0xFF, 0x01, 0xFE] then c else { c with dead := true }
    | (_, c) => { c with dead := true }

/-- IFSD 254 is announced (R417). -/
def Card.ifsd (c : Card) : Card :=
  if c.dead then c
  else
    match c.swap (c.block 0xC1 [254]) with
    | (.ok l, c) => if c.unblock l = some (0xE1, [254]) then c else { c with dead := true }
    | (_, c) => { c with dead := true }

/-- Activation: cold reset, one warm reset after a missing or bad answer, then PPS and IFSD. -/
def Card.activate (c : Card) : Card :=
  match (match c.reset with | some x => some x | none => ({ c with rx := c.rx.tail }).reset) with
  | none => { c with dead := true, rx := c.rx.drop 2 }
  | some (c, ta1, specific, first) => (c.pps ta1 specific first).ifsd

/-! ## The applet's commands (R386): extended length, with Le 0 -/

def cardSelect : List Byte := [0x00, 0xA4, 0x04, 0x00, 0x07, 0xF0, 0x4F, 0x44, 0x56, 0x4C, 0x59, 0x01]
def getKey : List Byte := [0x80, 0xC0, 0x00, 0x00, 0x00, 0x00, 0x00]
def storeShare (i : Byte) (l : List Byte) : List Byte := [0x80, 0xC2, i, 0x00, 0x00, BitVec.ofNat 8 (l.length / 256), BitVec.ofNat 8 l.length] ++ l
def releaseShare (i : Byte) (l : List Byte) : List Byte :=
  [0x80, 0xC4, i, 0x00, 0x00, BitVec.ofNat 8 (l.length / 256), BitVec.ofNat 8 l.length] ++ l ++ [0x00, 0x00]

/-! ## The channel's pins and contexts (R417 to R419) -/

/-- The 26 words of the card program (R419). -/
def cardProgram : List (BitVec 16) :=
  [0x7801, 0x0100, 0x0100, 0x0000, 0x6000, 0x4001, 0x9202, 0x1000, 0x0B05, 0x0004, 0x6000, 0x4420, 0x0004] ++
  [0x2200, 0x9204, 0x1000, 0x3001, 0x9202, 0x1000, 0x0D10, 0x5000, 0x2A00, 0x000D, 0x6000, 0x4410, 0x000D]

/-- A WARDEN-owned pin driven to a level (R411). -/
def State.pinDrive (s : State) (i : Nat) (high : Bool) : State :=
  let s := s.updPin i fun x => { x with cfg := (x.cfg &&& ~~~0x3000#32) ||| 0x1000#32 }
  { s with pio := { s.pio with gpout := if high then s.pio.gpout ||| (1#64 <<< i) else s.pio.gpout &&& ~~~(1#64 <<< i)
                               gpoe := s.pio.gpoe ||| (1#64 <<< i) } }

/-- The channel's pins CLK, I/O, RST, VCC enable and presence. -/
def State.cardPin (s : State) (c k : Nat) : Nat := ((s.cardPins c).getD []).getD k 0 % 64

/-- The three contexts stand stopped. -/
def State.cardStop (s : State) (c : Nat) : State :=
  s.each (List.range 3) fun s j => s.updCtx (c / 8) (c % 8 + j) fun x => { x with st := 0, stall := false, stopping := false }

/-- Deactivation of the card of channel `c`: RST low; CLK and I/O taken back as WARDEN-owned pins driven low; VCC off; in that order (R417). -/
def State.cardOff (s : State) (c : Nat) : State :=
  if (s.cardPins c).isNone then s
  else [2, 0, 1, 3].foldl (fun s k => s.pinDrive (s.cardPin c k) false) (s.cardStop c)

/-- The tadpole of the channel is set up where none of its contexts runs: DIV = 1, SLOTS = 8, the card program, and its clock started. -/
def State.cardTadpole (s : State) (c : Nat) : State :=
  s.updTad (c / 8) fun t =>
    if (List.range 8).any fun j => (t.ctx j).st = 1 || (t.ctx j).st = 2 then t
    else { t with div := 1, slots := 3, clk := true, imem := cardProgram.zipIdx.foldl (fun m w => Tbl.set 0 m w.2 w.1) t.imem }

/-- The pins and contexts of an active card: CLK toggling, the transmitter waiting for a word with K1 loaded, and the receiver waiting for a start bit with H
in its transmit register (R418, R419). -/
def State.cardOn (s : State) (c : Nat) (x : Card) : State :=
  let k := c / 8
  let j := c % 8
  let clk := s.cardPin c 0
  let io := s.cardPin c 1
  let k1 : Word := BitVec.ofNat 32 (2 * x.etu4 - 4)
  let h : Word := BitVec.ofNat 32 (x.etu4 - 3)
  let s := (((s.cardTadpole c).pinDrive (s.cardPin c 3) true).pinDrive (s.cardPin c 2) true).updPin (s.cardPin c 4) fun p =>
    { p with cfg := (p.cfg &&& ~~~0x3000#32) ||| 0x1000#32 }
  let s := s.updPin clk fun p => { p with cfg := fields [(12, 2), (9, k), (6, j), (1, 1)], oe := true }
  let s := s.updPin io fun p => { p with cfg := fields [(12, 2), (9, k), (6, j + 1), (4, 1), (3, 1), (1, 1), (0, 1)], out := true, oe := true }
  let s := s.updCtx k j fun t => { t with st := 1, pc := 0, k0 := 0, k1 := 0, ccfg := 0, cpin := fields [(18, 1), (12, clk)] }
  let s := s.updCtx k (j + 1) fun t =>
    { t with st := 1, pc := 4, stall := true, k0 := k1, k1 := k1, ccfg := fields [(8, cardTxlen x.n), (0, 10)], cpin := fields [(6, 1), (0, io)] }
  s.updCtx k (j + 2) fun t =>
    { t with st := 1, pc := 13, stall := true, k0 := k1, k1 := k1, txr := h, ccfg := fields [(16, 10), (0, 23)], cpin2 := fields [(0, io)] }

/-- A command on the card of a channel: the blocks sent go to the I/O pin, a dead card is deactivated, and the data of a response of `len` bytes that ends in
90 00 is answered (R386, R388, R417). -/
def State.cardAsk (s : State) (c : Fin 64) (x : Card) (apdu : List Byte) (len : Nat) : Option (List Byte) × Card × State :=
  let y := if x.dead then x else { x with sent := [] }.apdu apdu
  let s := if x.dead then s else y.sent.foldl (fun s w => s.emit (.card c w)) s
  let good := !y.dead && y.resp.length = len + 2 && y.resp.drop len = [0x90, 0x00]
  (if good then some (y.resp.take len) else none, y, if y.dead then s.cardOff c else s)

/-- The card is activated, the applet selected and its public key asked for. Nothing answers while the front end is off. -/
def State.cardKey (s : State) (c : Fin 64) (rx : List (List Word)) : Option (List Byte) × Card × State :=
  let x := (Card.init (if s.domOn 37 then rx else [])).activate
  let s := x.sent.foldl (fun s w => s.emit (.card c w)) (s.cardOn c x)
  let a := s.cardAsk c x cardSelect 0
  match a.1 with
  | none => (none, a.2.1, if a.2.1.dead then a.2.2.cardOff c else a.2.2)
  | some _ => a.2.2.cardAsk c a.2.1 getKey 97

/-! ## SGPIO (R420) -/

/-- The 17 words of the vendor's SGPIO program. -/
def sgpioProgram : List (BitVec 16) :=
  [0x7001, 0x4002, 0x9202, 0x1000, 0x7201, 0x3001, 0x9202, 0x1000, 0x0D0A, 0x5000, 0x0B00, 0x6000, 0x0000, 0x6000, 0x4420, 0x6000, 0x0000]

/-- Vendor warden firmware sets up and starts the stream on context 0 of tadpole 1 where the configuration block claims the context and pins P16 to P19
(R412, R420; when it does so is log 109). -/
def State.sgpioOn (s : State) : State :=
  let mine := fun (x : Nat × Nat) => match s.claim x.1 x.2 with | some k => k.holder = 0xFFFF | none => false
  if !s.domOn 37 || !([(3, 8), (1, 16), (1, 17), (1, 18), (1, 19)].all mine) then s
  else
    let s := s.updTad 1 fun t => { t with div := 1, slots := 3, clk := true, imem := sgpioProgram.zipIdx.foldl (fun m w => Tbl.set 0 m w.2 w.1) t.imem }
    let pin := fun (s : State) (i low : Nat) => s.updPin i fun p => { p with cfg := fields [(12, 2), (9, 1), (6, 0), (0, low)] }
    let s := pin (pin (pin (pin s 16 3) 17 2) 18 2) 19 0
    let s := s.updCtx 1 0 fun x =>
      { x with ccfg := 13, cpin := fields [(18, 1), (12, 16), (6, 2), (0, 17)], cpin2 := fields [(0, 19)], tx := [0x79] }
    s.tadPrepare 1 0 1

end Sys2Proof.Machine
end

