-- ==== Sys2Proof/Machine/Custody.lean ====
section
/-!
DEFINITION. The custody opcodes of Imdex (R393): custody status, epoch creation, shares on custodian cards, restore, tamper acknowledgement, wake
configuration and the vault's ledger. Each answers SUCCESS with its result code (R395) in byte 0.
-/

namespace Sys2Proof.Machine

/-- The answer of a custody or service opcode: SUCCESS, the result in byte 0, and what follows it (R393, R465). -/
def State.answer (s : State) (p result : Nat) (extra : List Byte) : State := s.respond p 0 0 (BitVec.ofNat 8 result :: extra)

/-- A custody opcode that runs one vault command (R391, R393). -/
def State.custody (s : State) (p op vop : Nat) (needsKey draws : Bool) (f : State → State × Nat) : Res :=
  s.imdexV p op fun s =>
    let s := s.vltRun vop needsKey draws fun s => noData (f s)
    s.answer p s.vault.cmdResult []

/-- The share indices held, bit i - 1 for index i. -/
def Vault.heldMask (v : Vault) : Nat := ((v.shares.map Share.index).eraseDups.map fun i => 2 ^ (i - 1)).sum

/-- CUSTODY_STATUS: five registers of the vault proxy, the indices held and the card faults counted, in that order (log 54). -/
def execCustodyStatus (p : PageId) (s : State) : Res :=
  s.imdexV p 0x0801 fun s =>
    s.answer p 0 ([0x00, 0x04, 0x08, 0x14, 0x40].flatMap (fun o => leBytes 4 (s.vltPeek o).toNat)
      ++ [BitVec.ofNat 8 s.vault.heldMask, BitVec.ofNat 8 s.vault.cardFaults])

/-- CUSTODY_INIT (R384). -/
def execCustodyInit (p : PageId) (m n : U8) (s : State) : Res := s.custody p 0x0802 0x07 true true fun s => s.vCustodyInit m.toNat n.toNat

/-- The claim lets the page use a card channel: its own, or the configuration block's, which is the only holder that R470 allows at boot (log 58). -/
def Claim.serves (x : Claim) (p : Nat) : Bool := x.holder = p || x.holder = 0xFFFF

/-- The caller holds the three contexts and five pins of a channel; otherwise CONFLICT with the holder of the first it lacks, or a free DETAIL where nobody
holds it. A channel that the configuration does not name is BAD_ARG (R356, R393, R418). -/
def State.withChannel (s : State) (p c : Nat) (f : State → State) : State :=
  let need := [(3, c), (3, c + 1), (3, c + 2)] ++ ((s.cardPins c).getD []).map fun i => (1, i)
  match need.find? fun x => match s.claim x.1 x.2 with | some k => !k.serves p | none => true with
  | some x => (match s.claim x.1 x.2 with
    | some k => s.respond p 7 k.holder []
    | none => let d := s.fresh 16; d.2.respond p 7 d.1.toNat [])
  | none => if (s.cardPins c).isNone || 5 < c % 8 then s.answer p 2 [] else f s

/-- SHARE_ISSUE: the card of a channel is activated, and GET KEY and STORE SHARE run on it (R386, R388, R393, R417). The operands hold, in order,
the words that the receiving context hands over at the activation, GET KEY and STORE SHARE, a list for the answer to reset and for each block sent (R419, log 111). -/
def execShareIssue (p : PageId) (i : U8) (c : Fin 64) (start key store : List (List Word)) (s : State) : Res :=
  s.imdexV p 0x0803 fun s => s.withChannel p c fun s =>
    let r := s.cardKey c (start ++ key ++ store)
    match r.1 with
    | none => (r.2.2.cardFault i.toNat).answer p 6 []
    | some card =>
      let s := r.2.2.vltRun 0x09 true true fun s => s.vShareOut i.toNat card
      if s.vault.cmdResult ≠ 0 then s.answer p s.vault.cmdResult []
      else
        let a := s.cardAsk c r.2.1 (storeShare i (Memory.bytes s.vault.res 0 289)) 0
        match a.1 with
        | some _ => (a.2.2.shareIssued i.toNat card).answer p 0 []
        | none => (a.2.2.cardFault i.toNat).answer p 6 []

/-- SHARE_ROTATE: new polynomials for the same secret; the new generation is answered (R384). -/
def execShareRotate (p : PageId) (s : State) : Res :=
  s.imdexV p 0x0804 fun s =>
    let s := s.vltRun 0x08 true true fun s => noData s.vShareRotate
    s.answer p s.vault.cmdResult [BitVec.ofNat 8 ((s.vault.custody.map Custody.gen).getD 0)]

/-- RESTORE_BEGIN (R387). -/
def execRestoreBegin (p : PageId) (s : State) : Res := s.custody p 0x0805 0x0A false false State.vRestoreBegin

/-- RESTORE_ADD: GET KEY and RELEASE SHARE on the card of a channel, and the share brought to the vault; the shares held are answered
(R386 to R388, R417). The operands as in SHARE_ISSUE, with the selection of the applet apart. -/
def execRestoreAdd (p : PageId) (i : U8) (c : Fin 64) (start select key release : List (List Word)) (s : State) : Res :=
  s.imdexV p 0x0806 fun s => s.withChannel p c fun s =>
    let done := fun (s : State) (r : Nat) => s.answer p r [BitVec.ofNat 8 s.vault.shares.length]
    let r := s.cardKey c (start ++ select ++ key ++ release)
    match r.1 with
    | none => done (r.2.2.cardFault i.toNat) 6
    | some card =>
      let s := r.2.2.vltRun 0x0B true true fun s => s.vChallenge i.toNat
      if s.vault.cmdResult ≠ 0 then done s s.vault.cmdResult
      else
        let a := s.cardAsk c r.2.1 (releaseShare i (Memory.bytes s.vault.res 0 209)) 80
        match a.1 with
        | none => done (a.2.2.cardFault i.toNat) 6
        | some blob =>
          let s := a.2.2.vltRun 0x0C true false fun s => noData (s.vShareIn i.toNat card blob)
          done s s.vault.cmdResult

/-- RESTORE_ABORT (R387). -/
def execRestoreAbort (p : PageId) (s : State) : Res :=
  s.custody p 0x0807 0x0D false false fun s => if s.vault.epochst = 4 then (s.updVault Vault.endRestore, 0) else (s, 1)

/-- TAMPER_ACK, with the sensors that have not been quiet for the last 1 s (R374). -/
def execTamperAck (p : PageId) (noisy : BitVec 7) (s : State) : Res := s.custody p 0x0808 0x0E false false fun s => s.vTamperAck noisy

/-- VLT_WAKECFGk written (R380, R390). -/
def State.wakeConfig (s : State) (k : Nat) (v : Word) : State :=
  s.updVault fun x => { x with wakecfg := Tbl.set 0 x.wakecfg k (v &&& 7#32) }

/-- WAKE_CONFIG: EN, POL and LEVEL of a pin (R380). -/
def execWakeConfig (p : PageId) (pin : U8) (en pol level : Bool) (s : State) : Res :=
  s.imdexV p 0x0809 fun s =>
    if 8 ≤ pin.toNat then s.answer p 2 []
    else (s.wakeConfig pin.toNat (fields [(2, b2n en), (1, b2n pol), (0, b2n level)])).answer p 0 []

/-- VLEDGER_READ: bytes of the retained ledger (R368, R393). -/
def execVledgerRead (p : PageId) (off : Word) (len : BitVec 16) (s : State) : Res :=
  s.imdexV p 0x080A fun s =>
    if 2000 < len.toNat || 8192 < off.toNat + len.toNat then s.answer p 2 []
    else
      let b := s.vault.ledgerBytes off.toNat len.toNat
      (s.updVault fun v => v.ledgerSeen off.toNat len.toNat).answer p 0 b

/-- DEVICE_ERASE_STATUS: the floor fuses left (R367). -/
def execDeviceEraseStatus (p : PageId) (s : State) : Res := s.imdexV p 0x080B fun s => s.answer p 0 (leBytes 2 (1024 - s.vault.floorFuses))

end Sys2Proof.Machine
end

