-- ==== Sys2Proof/Machine/Boot.lean ====
section
/-!
DEFINITION. Start-up: the boot ROM's verification of a bundle slot (R458 to R462), the configuration block and factory defaults (R468 to R470), what a
warden restart does to mailboxes and molts (R340), and the loading of the durable store (R149, R463).
-/

namespace Sys2Proof.Machine

/-! ## Verification of a slot (R458, R459) -/

/-- Bytes of a bundle slot. -/
def State.slotBytes (s : State) (b : Bool) (o n : Nat) : List Byte := s.norBytes (slotBase b + o) n

/-- Offsets and lengths of the images obey R458. -/
def imagesOk (woff wlen loff llen : Nat) : Bool :=
  woff % 4096 = 0 && 8192 ≤ woff && 4 ≤ wlen && wlen ≤ 524288 && loff % 4096 = 0 && 4 ≤ llen && llen ≤ 163840
    && woff + wlen ≤ 0x400000 && loff + llen ≤ 0x400000 && (woff + wlen ≤ loff || loff + llen ≤ woff)

/-- An image's stated feature needs are met by a processor: its major version, a minor no higher, and no extension bit that it lacks (R74, R75, R78). -/
def featOk (need0 need1 feat0 feat1 : Nat) : Bool :=
  fld need0 7 4 = fld feat0 7 4 && fld need0 15 8 ≤ fld feat0 15 8 && (need1 &&& feat1) = need1

/-- The warden image and the lane image of a slot. -/
def State.wardenImage (s : State) (b : Bool) : List Byte := s.slotBytes b (s.hdr b 28) (s.hdr b 32)
def State.laneImage (s : State) (b : Bool) : List Byte := s.slotBytes b (s.hdr b 36) (s.hdr b 40)

/-- The first step of R459 that a slot fails, or 0. -/
def State.verifySlot (s : State) (b : Bool) : Nat :=
  let h := s.slotBytes b 0 512
  if s.hdr b 0 ≠ 0x42584454 || s.hdr b 4 ≠ 0x00B00001 || !imagesOk (s.hdr b 28) (s.hdr b 32) (s.hdr b 36) (s.hdr b 40) then 1
  else if !Config.verifies 3 (h ++ s.slotBytes b 512 4627) then 2
  else if !Config.verifies 4 (sha384 h ++ s.slotBytes b 5139 96) then 3
  else if sha384 (s.wardenImage b) ≠ s.slotBytes b 44 48 then 4
  else if sha384 (s.laneImage b) ≠ s.slotBytes b 92 48 then 5
  else if !featOk (s.hdr b 12) (s.hdr b 16) 0x12 0x17 || !featOk (s.hdr b 20) (s.hdr b 24) 0x11 0x1F then 6
  else 0

/-- The header of a slot is erased. -/
def State.slotErased (s : State) (b : Bool) : Bool := (s.slotBytes b 0 512).all fun x => x = 0xFF

/-- The state of a slot that is not booted as start-up leaves it: EMPTY when erased, INVALID when it was checked and failed, and open between INVALID and
VALID when it was not checked (R465; log 55). -/
def State.slotState (s : State) (b checked : Bool) : State :=
  let set := fun (s : State) (x : Nat) => { s with boot := { s.boot with fwState := Tbl.set 0 s.boot.fwState (b2n b) x } }
  if s.slotErased b then set s 0
  else if checked then set s 1
  else match s.choose [1, 2] with | some r => set r.2 r.1 | none => s

/-! ## Configuration (R356, R418, R468 to R470) -/

/-- Group modes taken from a list of 16 words: a mode that CFGERR rejects beside those before it and their enabled slots is skipped; the offsets of the
skipped entries come with the state. -/
def State.bootModes (s : State) (mode : Nat → Nat) (pgen : Nat) : List Nat × State :=
  let s := s.each (List.range 16) fun s g => s.updGroup g fun x => { x with mode := BitVec.ofNat 32 (mode g) &&& 0x000EFFF3 }
  let r := (List.range 16).foldl (fun (a : List Nat × State) g =>
    if a.2.cfgErr g ≠ 0 then (a.1 ++ [12 + 4 * g], a.2.updGroup g fun x => { x with mode := Group.init.mode })
    else (a.1, a.2.updGroup g fun x => { x with en := BitVec.ofNat 2 (fld pgen (2 * g + 1) (2 * g)) })) ([], s)
  (r.1, r.2.each (List.range 16) fun s g => s.updGroup g fun x => { x with en := 0 })

/-- The claims of a configuration block, each unless it overlaps an earlier one. -/
def State.bootClaims (s : State) (b : List Byte) : List Nat × State :=
  (List.range 128).foldl (fun (a : List Nat × State) i =>
    let o := 192 + 8 * i
    let cls := leAt b o 1
    let first := leAt b (o + 1) 1
    let count := leAt b (o + 2) 1
    if cls = 0 then a
    else if !claimRange cls first count || (a.2.claimHeld cls first count).isSome then (a.1 ++ [o], a.2)
    else (a.1, ((List.range count).map (first + ·)).foldl (fun s k => s.setClaim cls k (some { holder := 0xFFFF, label := leAt b (o + 3) 1 })) a.2)) ([], s)

/-- Offsets of the card channels whose contexts or pins are not claimed. -/
def State.bootCards (s : State) (b : List Byte) : List Nat :=
  ((List.range 8).map fun i => 128 + 8 * i).filter fun o =>
    let c := leAt b o 1
    c ≠ 0xFF && ([(3, c), (3, c + 1), (3, c + 2)] ++ (List.range 5).map fun k => (1, leAt b (o + 1 + k) 1)).any fun x => (s.claim x.1 x.2).isNone

/-- A configuration block with the channels at the given offsets unused. -/
def dropCards (b : List Byte) (l : List Nat) : List Byte := l.foldl (fun b o => patch b o [0xFF]) b

/-- Clock and budget settings, committed rails, and the two endpoints. -/
def State.bootValues (s : State) (clk budget : Nat) (rail addr right rate : Nat → Nat) : State :=
  let s := { s with clk := { s.clk with primary := bitOf clk 0, primaryReq := bitOf clk 0, auto := bitOf clk 1 } }
  let s := s.updPwr fun p => { p with budget := budget % 8192, railC := (List.range 16).foldl (fun t i => Tbl.set 900 t i (rail i)) [] }
  [0, 1].foldl (fun s k => s.updEp k fun e => { e with addr := addr k % 128, rights := right k, rate := rate k }) s

/-- A valid block is applied: every entry that can be, with the lowest offset of a skipped one (R470). -/
def State.bootBlock (s : State) (b : List Byte) : State :=
  let m := s.bootModes (fun g => leAt b (12 + 4 * g) 4) (leAt b 76 4)
  let c := m.2.bootClaims b
  let cards := c.2.bootCards b
  let skipped := (m.1 ++ cards ++ c.1).head?
  let s := c.2.bootValues (leAt b 80 2) (leAt b 84 4) (fun i => leAt b (88 + 2 * i) 2) (fun k => leAt b (120 + k) 1) (fun k => leAt b (122 + k) 1)
    (fun k => leAt b (124 + k) 1)
  { s with boot := { s.boot with cfg := dropCards b cards, skipped := skipped, meas3 := sha384 b } }

/-- Factory defaults (R469). -/
def State.bootDefaults (s : State) : State :=
  let s := (s.bootModes (fun g => if g = 0 then 0x000C4103 else if g = 1 then 0x000C4003 else 0x000C0000) 1).2
  let s := s.bootValues 2 7040 (fun _ => 900) (fun k => 0x1A + k) (fun _ => 0) (fun _ => 0)
  { s with boot := { s.boot with cfg := [], skipped := none, meas3 := bvBytes 48 Config.defaultsHash } }

/-! ## WARDEN_BOOT (R340, R459 to R462, R486) -/

/-- The warden enters firmware from the copy that the ROM hashed; what the ROM leaves in the general registers, and where firmware begins, is open
(R459, log 56). -/
def State.enterFirmware (s : State) (b : Bool) : State :=
  let img := s.wardenImage b
  let s := s.updWarden fun w => { w with fw := true, recovery := false, iram := memOf img }
  let s := (List.range 31).foldl (fun s i => let v := s.fresh 32; v.2.updProc 128 fun r => r.setReg (i + 1) v.1) s
  let e := s.fresh 30
  e.2.updProc 128 fun r => { r with pc := e.1 ++ 0#2 }

/-- Recovery mode (R461). -/
def State.enterRecovery (s : State) : State :=
  ({ s with boot := { s.boot with recov := true } }).updWarden fun w => { w with fw := false, recovery := true }

/-- GLB_BOOT as the ROM writes it, with LOCK (R485, R486). -/
def State.writeBoot (s : State) (lock slot recovery defaulted : Bool) : State :=
  { s with glb := { s.glb with boot := fields [(31, b2n lock), (2, b2n slot), (1, b2n recovery), (0, b2n defaulted)] } }

/-- The warden's firmware comes up after a restart: every ACCEPTED request but an erase is answered WARDEN_RESTART, and the molts' windows are
resolved (R340, R206). -/
def State.afterRestart (s : State) : State :=
  let s := (s.pages.filter fun q => q.2.st = 2 && (q.2.answered || fld q.2.req.toNat 15 0 ≠ 0x0105)).foldl (fun s q =>
    (if q.2.answered then s else s.respond q.1 9 0 []).pageDone q.1) s
  (s.updWarden fun w => { w with erasesFirst := true }).moltRestart

/-- The first boot since power-up or part reset: the slot with the higher VERSION is checked first, A on a tie; the first that passes is booted, and the
configuration block or the factory defaults are applied, and firmware reports a NOHOLD it finds and starts the SGPIO stream (R375, R420). Recovery mode follows where neither passes (R459 to R461, R468 to R470, R486). -/
def State.firstBoot (s : State) (norOk cfgOk : Bool) : State :=
  let first : Bool := decide (s.bundleVersion false < s.bundleVersion true)
  let pick : Option Bool := if !norOk then none else if s.verifySlot first = 0 then some first else if s.verifySlot (!first) = 0 then some !first else none
  match pick with
  | none => (((s.slotState false norOk).slotState true norOk).writeBoot false false true false).enterRecovery
  | some b =>
    let block := s.cfgBlock
    let good := cfgOk && cfgValid block
    let s := (s.slotState (!b) (b ≠ first)).writeBoot true b false (!good)
    let img := s.laneImage b
    let s := { s with boot := { s.boot with slotB := b, booted := true, meas1 := s.slotBytes b 44 48, meas2 := s.slotBytes b 92 48
                                            version := BitVec.ofNat 32 (s.bundleVersion b), lane := memOf img, laneLen := img.length } }
    let s := if good then s.bootBlock block else s.bootDefaults
    let s := (s.enterFirmware b).sgpioOn
    if s.vault.nohold then s.emit (.operator 0x82 0) else s

/-- WARDEN_BOOT: the released warden runs its boot ROM. `norOk` and `cfgOk` say whether the SPI NOR answers at the slots and at the configuration block.
A restart verifies the booted slot again and switches no domain (R462). -/
def execWardenBoot (norOk cfgOk : Bool) (s : State) : Res :=
  .next (
    if !s.warden.up || !s.domOn 36 || s.warden.fw || s.warden.recovery then s
    else if s.boot.recov then s.enterRecovery
    else if !s.boot.booted then
      let s := s.firstBoot norOk cfgOk
      s.funcs.foldl State.rdyCheck s
    else if !norOk || s.verifySlot s.boot.slotB ≠ 0 then s.enterRecovery
    else
      let s := (s.enterFirmware s.boot.slotB).afterRestart
      s.funcs.foldl State.rdyCheck s)

/-! ## The durable store (R142, R149, R463) -/

/-- A keyslot is loaded: the stored record where its GEN and STATE match the slot map, else the initial record with the slot map's GEN (R142, R149). -/
def State.loadKeyslot (s : State) (k st gen : Nat) : State :=
  match s.boot.durable.recs.find? fun r => r.1 = k && recGen r.2 = gen && recState r.2 = st with
  | some r => s.putRec k r.2
  | none => s.putRec k (leBytes 4 (2 ^ 28 + gen * 2 ^ 24 + k) ++ leBytes 4 (if st = 2 then 2 ^ 29 else 0) ++ List.replicate 120 0)

/-- The store is loaded in the order of R463, with the keyslot table at multiple `base` of 128 MiB in both stacks. -/
def State.loadStore (s : State) (base : Nat) : State :=
  let d := s.boot.durable
  let s := { s with nss := d.nss, boot := { s.boot with store := 1, tableBase := some (base * 2 ^ 27), touched := [] } }
  let s := d.slotmap.foldl (fun s p => s.loadKeyslot p.1 p.2.1 p.2.2) s
  let s := s.each (List.range 16) fun s t => if s.tileOn t then s.updTile t fun x => { x with ksbase := BitVec.ofNat 32 (256 + base) } else s
  let s := d.ctls.foldl (fun s p =>
    (s.setContract p.1 p.2.admw0 p.2.admw1).updCtl p.1 fun c =>
      { c with tenant := p.2.tenant, attach := p.2.attach, attachAlt := p.2.attachAlt, rateG := p.2.rateG, rateV := p.2.rateV
               burstG := p.2.burstG, burstV := p.2.burstV, tokG := p.2.tokG, tokV := p.2.tokV, tokT := s.now }) s
  let s := d.records.foldl (fun s p => s.updDrive p.1 fun x => { x with record := p.2 }) s
  let s := s.each (List.range 64) fun s n => if s.drvActive n && !s.nsFit n then s.updDrive n fun x => { x with st := 5, reason := 5 }
                                             else if s.drvActive n && !s.identOk n then s.updDrive n fun x => { x with st := 6 } else s
  let s := s.moltRebuild
  let s := s.each [0, 1, 2, 3] fun s q => if s.flt.qquad.getLsbD q then s else s.updQuad q fun x => { x with en := true }
  s.funcs.foldl State.rdyCheck s

/-- STORE_LOAD: the store's version is compared with the vault's; a store one ahead is loaded and its bump issued; any other is refused. A defaulted part
does not read the store (R463, R469). -/
def execStoreLoad (base : Fin 32) (s : State) : Res :=
  .next (
    if !s.fwUp || s.cfgDefaulted || s.boot.store ≠ 0 then s
    else
      let d := s.boot.durable.ver
      let v := s.vault.slotmapVer
      if d = v then s.loadStore base
      else if d = v + 1 then (s.loadStore base).updVault fun v => { v with slotmapVer := v.slotmapVer + 1 }
      else
        let s := { s with boot := { s.boot with store := 2 } }
        s.funcs.foldl State.rdyCheck s)

end Sys2Proof.Machine
end

