-- ==== Sys2Proof/Machine/Service.lean ====
section
/-!
DEFINITION. The firmware, configuration and test opcodes of Imdex (R465 to R467, R471, R475 to R477), part resets that a response announces, and the
adoption of a refused store (R463). Each answers SUCCESS with its result (R467) in byte 0.
-/

namespace Sys2Proof.Machine

/-! ## Firmware slots (R465, R466) -/

/-- The slot that is not booted; in recovery mode, where none is, the one that GLB_BOOT.SLOT does not name (log 55). -/
def State.spareBundle (s : State) : Bool := if s.boot.booted then !s.boot.slotB else true

/-- State of a slot as FW_STATUS reports it. -/
def State.slotReport (s : State) (b : Bool) : Nat :=
  if s.boot.booted && s.boot.slotB = b then 3 else Tbl.get 0 s.boot.fwState (b2n b)

/-- State of the spare slot. -/
def State.setSpare (s : State) (x : Nat) : State :=
  { s with boot := { s.boot with fwState := Tbl.set 0 s.boot.fwState (b2n s.spareBundle) x } }

/-- FW_STATUS: VERSION and state of slot A, then of slot B. -/
def execFwStatus (p : PageId) (s : State) : Res :=
  s.imdex p 0x0701 fun s => s.answer p 0 ([false, true].flatMap fun b => leBytes 4 (s.bundleVersion b) ++ [BitVec.ofNat 8 (s.slotReport b)])

/-- A range of SPI NOR whose erase or programming failed holds open bytes (R467; log 55). -/
def State.norSpoil (s : State) (a n : Nat) : State := let b := s.freshBytes n; (b.2.norErase a n).norPut a b.1

/-- FW_BEGIN: the spare slot is erased and becomes INVALID; its next offset is 0. `ok` says whether the flash erase succeeded. -/
def execFwBegin (p : PageId) (ok : Bool) (s : State) : Res :=
  s.imdex p 0x0702 fun s =>
    let a := slotBase s.spareBundle
    let s := s.setSpare 1
    if ok then
      let s := s.norErase a 0x400000
      { s with boot := { s.boot with fwNext := some 0 } }.answer p 0 []
    else
      let s := s.norSpoil a 0x400000
      { s with boot := { s.boot with fwNext := none } }.answer p 6 []

/-- FW_WRITE: at the next expected offset only; the next offset is answered. -/
def execFwWrite (p : PageId) (off : Word) (data : Bytes) (ok : Bool) (s : State) : Res :=
  s.imdex p 0x0703 fun s =>
    if 2000 < data.length || 0x400000 < off.toNat + data.length then s.badOpen p
    else match s.boot.fwNext with
      | none => s.answer p 1 []
      | some n =>
        if off.toNat ≠ n then s.answer p 2 (leBytes 4 n)
        else if !ok then (s.norSpoil (slotBase s.spareBundle + n) data.length).answer p 6 []
        else
          let s := (s.norPut (slotBase s.spareBundle + n) data).setSpare 1
          { s with boot := { s.boot with fwNext := some (n + data.length) } }.answer p 0 (leBytes 4 (n + data.length))

/-- FW_VERIFY: R459 on the spare slot. -/
def execFwVerify (p : PageId) (s : State) : Res :=
  s.imdex p 0x0704 fun s =>
    let r := s.verifySlot s.spareBundle
    if r = 0 then (s.setSpare 2).answer p 0 [] else (s.setSpare 1).answer p 3 [BitVec.ofNat 8 r]

/-- An erase is PENDING or ACCEPTED, or a POWER_STATE request is ACCEPTED (R466). -/
def State.resetBarred (s : State) : Bool :=
  s.erasePendingPage || s.erasesOpen ≠ 0 || s.pages.any fun q => q.2.st = 2 && !q.2.answered && fld q.2.req.toNat 15 0 = 0x0503

/-- A part reset follows 100 ms after the response, which is written now (R465). -/
def State.announceReset (s : State) (p : Nat) : State :=
  { s with boot := { s.boot with resetDue := some (s.now + 10000000) } }.answer p 0 []

/-- FW_ACTIVATE: the spare slot is VALID with a higher VERSION than the booted one. -/
def execFwActivate (p : PageId) (s : State) : Res :=
  s.imdex p 0x0705 fun s =>
    let b := s.spareBundle
    if s.resetBarred || s.slotReport b ≠ 2 then s.answer p 1 []
    else if s.boot.booted && s.bundleVersion b ≤ s.bundleVersion (!b) then s.answer p 4 []
    else s.announceReset p

/-- FW_INVALIDATE: the header of the spare slot is erased, which leaves it EMPTY or INVALID (log 55). -/
def execFwInvalidate (p : PageId) (ok : Bool) (s : State) : Res :=
  s.imdex p 0x0706 fun s =>
    let s := { s with boot := { s.boot with fwNext := none } }
    if !ok then ((s.norSpoil (slotBase s.spareBundle) 512).setSpare 1).answer p 6 []
    else match s.choose [0, 1] with
      | some r => ((r.2.norErase (slotBase s.spareBundle) 512).setSpare r.1).answer p 0 []
      | none => s

/-- PART_RESET. -/
def execPartReset (p : PageId) (s : State) : Res :=
  s.imdex p 0x0731 fun s => if s.resetBarred then s.answer p 1 [] else s.announceReset p

/-! ## The configuration block (R465, R471) -/

/-- CONFIG_READ: bytes of the block in SPI NOR. -/
def execConfigRead (p : PageId) (off : Word) (len : BitVec 16) (s : State) : Res :=
  s.imdex p 0x0711 fun s =>
    if 2000 < len.toNat || 4096 < off.toNat + len.toNat then s.badOpen p else s.answer p 0 (s.norBytes off.toNat len.toNat)

/-- CONFIG_STAGE: bytes of the staging buffer. -/
def execConfigStage (p : PageId) (off : Word) (data : Bytes) (s : State) : Res :=
  s.imdex p 0x0712 fun s =>
    if 2000 < data.length || 4096 < off.toNat + data.length then s.badOpen p
    else { s with boot := { s.boot with stage := Memory.put s.boot.stage off.toNat data } }.answer p 0 []

/-- CONFIG_COMMIT: the staged block is checked, then erased, programmed and read back; it takes effect at the next power-up or part reset. -/
def execConfigCommit (p : PageId) (ok : Bool) (s : State) : Res :=
  s.imdex p 0x0713 fun s =>
    let b := Memory.bytes s.boot.stage 0 4096
    if !cfgValid b then s.answer p 5 []
    else if !ok then (s.norSpoil 0 4096).answer p 6 []
    else ((s.norErase 0 4096).norPut 0 b).answer p 0 []

/-! ## Test mode (R475 to R477) -/

/-- TEST_CHALLENGE: a new challenge; without the noise source it answers BAD_STATE (R365). -/
def execTestChallenge (p : PageId) (s : State) : Res :=
  s.imdexV p 0x0721 fun s =>
    if !s.vault.noise then s.answer p 1 []
    else
      let c := s.fresh 256
      (c.2.updVault fun v => { v with testChallenge := some c.1 }).answer p 0 (bvBytes 32 c.1)

/-- TEST_STAGE: bytes of the token. -/
def execTestStage (p : PageId) (off : Word) (data : Bytes) (s : State) : Res :=
  s.imdexV p 0x0722 fun s =>
    if 2000 < data.length || 4795 < off.toNat + data.length then s.badOpen p
    else { s with boot := { s.boot with token := Memory.put s.boot.token off.toNat data } }.answer p 0 []

/-- TEST_UNLOCK: the staged token goes to the vault. -/
def execTestUnlock (p : PageId) (s : State) : Res :=
  s.imdexV p 0x0723 fun s =>
    let r := s.vTestUnlock (Memory.bytes s.boot.token 0 4795)
    (s.vltRun 0x10 false false fun _ => ((if r.2 = 8 then 0x0A else if r.2 = 0 then 0 else (Config.vaultResult r.2).toNat, []), r.1)).answer p r.2 []

/-- TEST_CHALLENGE_EXPIRY: 600 s have passed. -/
def execTestChallengeExpiry (s : State) : Res := .next (s.updVault fun v => { v with testChallenge := none })

/-! ## The store -/

/-- STORE_ADOPT: a refused store, while LEDGER_LOST is 1: SLOTMAP_BUMP until the vault's version is the store's, then the load (R463). -/
def execStoreAdopt (p : PageId) (base : Fin 32) (s : State) : Res :=
  s.imdex p 0x0732 fun s =>
    if s.vault.ledgerLost && s.boot.store = 2 then
      ((s.updVault fun v => { v with slotmapVer := s.boot.durable.ver }).loadStore base).answer p 0 []
    else s.answer p 1 []

end Sys2Proof.Machine
end

