-- ==== Sys2Proof/Machine/Tadpole.lean ====
section
/-!
DEFINITION. Tadpoles: one instruction of a context in its slot (R397 to R404), starting and stopping (R407 to R410), FIFOs and flags, tickers (R405,
R406), and the loss of a custodian card (R417).
-/

namespace Sys2Proof.Machine

/-! ## Units -/

/-- The context executes in its slot: RUNNING, its tadpole's clock runs, and the domain is on (R397, R408). -/
def State.tadRuns (s : State) (n c : Nat) : Bool := s.domOn 37 && (s.tad n).clk && (s.tctx n c).st = 1 && c < (s.tad n).slotCount

/-- One instruction of a context: it completes, and PC goes on by one unless the effect set it (R398). -/
def State.tadStep (s : State) (n c : Nat) (f : State → State) : Res := .next (if s.tadRuns n c then f s else s)

/-- The instruction completes with the context changed by `f`. -/
def State.tadNext (s : State) (n c : Nat) (f : TCtx → TCtx) : State :=
  s.updCtx n c fun x => { f x with pc := (x.pc + 1) % 64, stall := false }

/-- The instruction stalls: nothing changes but STALL, and STALLS when a PULL or PUSH begins to wait (R399). -/
def State.tadStall (s : State) (n c : Nat) (counted : Bool) : State :=
  s.updCtx n c fun x => { x with stall := true, stalls := if counted && !x.stall then satAdd x.stalls 1 else x.stalls }

/-- The context enters FAULT with a cause (R404). -/
def State.tadFault (s : State) (n c cause : Nat) : State := s.updCtx n c fun x => { x with st := 3, fcause := cause, stall := false }

/-! ## Pins (R402, R403, R411) -/

/-- The board gives these levels at the balls (the levels outside are what the last command that sampled them stated, log 59). -/
def State.setBalls (s : State) (balls : DWord) : State :=
  s.each (List.range 64) fun s i => s.updPin i fun x => { x with ext := balls.getLsbD i }

/-- The level that a context of tadpole `n` reads: 0 unless some context of the tadpole owns the pin (R403). -/
def State.tadPin (s : State) (n i : Nat) : Bool :=
  let x := s.pio.pin (i % 64)
  x.owner = 2 && x.tad = n && s.pio.level (i % 64)

/-- A context drives a pin: level, direction, or both. A pin it does not own drops the drive, which is counted (R403). -/
def State.tadDrive (s : State) (n c i : Nat) (f : Pin → Pin) : State :=
  let x := s.pio.pin (i % 64)
  if x.owner = 2 && x.tad = n && x.ctx = c then s.updPin (i % 64) f else s.updTad n fun t => { t with deny := satAdd t.deny 1 }

/-- Window fields of PIO_CPIN and PIO_CPIN2 (R415). -/
def TCtx.setCnt (x : TCtx) : Nat := min 5 (fld x.cpin.toNat 20 18)
def TCtx.setBase (x : TCtx) : Nat := fld x.cpin.toNat 17 12
def TCtx.outCnt (x : TCtx) : Nat := min 32 (fld x.cpin.toNat 11 6)
def TCtx.outBase (x : TCtx) : Nat := fld x.cpin.toNat 5 0
def TCtx.probe (x : TCtx) : Nat := fld x.cpin2.toNat 13 8
def TCtx.inBase (x : TCtx) : Nat := fld x.cpin2.toNat 5 0

/-- The IN window as a word (R402). -/
def State.inWindow (s : State) (n c : Nat) : Word :=
  BitVec.ofNat 32 ((List.range 32).map fun i => b2n (s.tadPin n ((s.tctx n c).inBase + i)) * 2 ^ i).sum

/-- The low `k` bits of a value go to the OUT window, as levels or as directions; bits past OUTCNT are discarded (R402). -/
def State.outWindow (s : State) (n c k : Nat) (v : Word) (dirs : Bool) : State :=
  s.each (List.range (min k (s.tctx n c).outCnt)) fun s i =>
    s.tadDrive n c ((s.tctx n c).outBase + i) fun p => if dirs then { p with oe := v.getLsbD i } else { p with out := v.getLsbD i }

/-! ## Instructions (R400 to R404) -/

/-- A bit count threshold: 0 means 32 (R415). -/
def lenOf (v : Nat) : Nat := if v = 0 then 32 else v

/-- The test of a GO (R401). -/
def State.tadTest (s : State) (n c t : Nat) : Bool :=
  let x := s.tctx n c
  match t with
  | 0 => true
  | 1 => x.k0 = 0
  | 2 => x.k1 = 0
  | 3 => x.k0 = x.k1
  | 4 => s.tadPin n x.probe
  | 5 => lenOf (fld x.ccfg.toNat 12 8) ≤ x.txc
  | 6 => lenOf (fld x.ccfg.toNat 20 16) ≤ x.rxc
  | _ => !x.tx.isEmpty

/-- GO: `balls` are the levels the board gives in this cycle. -/
def execGoTadpole (n c test : Fin 8) (neg : Bool) (addr : BitVec 6) (balls : DWord) (s : State) : Res :=
  s.tadStep n c fun s =>
    let s := if test.val = 4 then s.setBalls balls else s
    if s.tadTest n c test != neg then s.updCtx n c fun x => { x with pc := addr.toNat, stall := false } else s.tadNext n c id

/-- CDN: a nonzero counter is counted down and the word executes again. -/
def execCdn (n c : Fin 8) (k : Bool) (s : State) : Res :=
  s.tadStep n c fun s =>
    let x := s.tctx n c
    let v := if k then x.k1 else x.k0
    if v = 0 then s.tadNext n c id else s.updCtx n c fun x => if k then { x with k1 := v - 1, stall := false } else { x with k0 := v - 1, stall := false }

/-- HOLD (R400, R404, R405): SRC 2 takes LVL 1 only; index bits above those that a source names are not used (log 60). -/
def execHold (n c : Fin 8) (lvl : Bool) (src : Fin 4) (index : BitVec 6) (balls : DWord) (s : State) : Res :=
  s.tadStep n c fun s =>
    let x := s.tctx n c
    let i := index.toNat
    let s := if src.val ≤ 1 then s.setBalls balls else s
    let wait := fun (ok : Bool) => if ok then s.tadNext n c id else s.tadStall n c false
    match src.val with
    | 0 => wait (s.tadPin n i = lvl)
    | 1 => wait (s.tadPin n (x.inBase + i % 32) = lvl)
    | 2 =>
      let k := i % 8
      let seen := Tbl.get 0 x.seen k
      if !lvl then s.tadFault n c 1
      else if !bitOf x.ccfg.toNat (24 + k) then s.tadFault n c 2
      else if (Tbl.get Ticker.init s.warden.tickers k).expires.toNat = seen then s.tadStall n c false
      else s.tadNext n c fun x => { x with seen := Tbl.set 0 x.seen k ((seen + 1) % 65536) }
    | _ =>
      if (s.tad n).flags.getLsbD (i % 8) ≠ lvl then s.tadStall n c false
      else if lvl then (s.updTad n fun t => { t with flags := t.flags &&& ~~~(1#8 <<< (i % 8)) }).tadNext n c id
      else s.tadNext n c id

/-- Bits enter RXR: at bit 31 and to the right, or at bit 0 and to the left (R402). -/
def TCtx.shiftIn (x : TCtx) (k : Nat) (v : Word) : TCtx :=
  let v := v &&& BitVec.ofNat 32 (2 ^ k - 1)
  let r := if bitOf x.ccfg.toNat 22 then (x.rxr <<< k) ||| v else (x.rxr >>> k) ||| (v <<< (32 - k))
  { x with rxr := r, rxc := min 32 (x.rxc + k) }

/-- SHIN. -/
def execShin (n c src : Fin 8) (count : BitVec 6) (balls : DWord) (s : State) : Res :=
  s.tadStep n c fun s =>
    let k := count.toNat
    if k = 0 || 32 < k || 6 ≤ src.val then s.tadFault n c 1
    else
      let s := if src.val = 0 then s.setBalls balls else s
      let x := s.tctx n c
      let v : Word := match src.val with | 0 => s.inWindow n c | 1 => x.k0 | 2 => x.k1 | 3 => 0 | 4 => 0xFFFFFFFF | _ => x.txr
      s.tadNext n c fun x => x.shiftIn k v

/-- SHOUT (R402). -/
def execShout (n c dst : Fin 8) (count : BitVec 6) (s : State) : Res :=
  s.tadStep n c fun s =>
    let k := count.toNat
    if k = 0 || 32 < k || 6 ≤ dst.val then s.tadFault n c 1
    else
      let x := s.tctx n c
      let left := bitOf x.ccfg.toNat 21
      let v : Word := if left then x.txr >>> (32 - k) else x.txr &&& BitVec.ofNat 32 (2 ^ k - 1)
      let s := match dst.val with | 0 => s.outWindow n c k v false | 4 => s.outWindow n c k v true | _ => s
      s.tadNext n c fun x =>
        let x := { x with txr := if left then x.txr <<< k else x.txr >>> k, txc := min 32 (x.txc + k) }
        match dst.val with | 1 => { x with k0 := v } | 2 => { x with k1 := v } | 5 => { x with rxr := v } | _ => x

/-- PUSH. -/
def execPush (n c : Fin 8) (s : State) : Res :=
  s.tadStep n c fun s =>
    if 8 ≤ (s.tctx n c).rx.length then s.tadStall n c true
    else s.tadNext n c fun x => { x with rx := x.rx ++ [x.rxr], rxr := 0, rxc := 0 }

/-- PULL. -/
def execPull (n c : Fin 8) (s : State) : Res :=
  s.tadStep n c fun s =>
    match (s.tctx n c).tx with
    | [] => s.tadStall n c true
    | w :: t => s.tadNext n c fun x => { x with tx := t, txr := w, txc := 0 }

/-- PUT: DRIVE, RELEASE or TOGGLE on the SET-window pins of the mask; a mask bit at or above SETCNT is a fault (R400, R404). -/
def execPut (n c : Fin 8) (act : Fin 4) (level : Bool) (mask : BitVec 5) (s : State) : Res :=
  s.tadStep n c fun s =>
    let x := s.tctx n c
    if act.val = 3 || (act.val ≠ 0 && level) then s.tadFault n c 1
    else if 2 ^ x.setCnt ≤ mask.toNat then s.tadFault n c 3
    else
      let s := s.each (setBits 5 mask.toNat) fun s i => s.tadDrive n c (x.setBase + i) fun p =>
        match act.val with | 0 => { p with out := level, oe := true } | 1 => { p with oe := false } | _ => { p with out := !p.out, oe := true }
      s.tadNext n c id

/-- LDK. -/
def execLdk (n c : Fin 8) (k append : Bool) (imm : BitVec 10) (s : State) : Res :=
  s.tadStep n c fun s =>
    s.tadNext n c fun x =>
      let old := if k then x.k1 else x.k0
      let v := if append then (old <<< 10) ||| imm.zeroExtend 32 else imm.zeroExtend 32
      if k then { x with k1 := v } else { x with k0 := v }

/-- A word with its bits in reverse order. -/
def revBits (v : Word) : Word := BitVec.ofNat 32 ((List.range 32).map fun i => b2n (v.getLsbD (31 - i)) * 2 ^ i).sum

/-- XFER. -/
def execXfer (n c dst : Fin 8) (op : Fin 4) (src : Fin 8) (balls : DWord) (s : State) : Res :=
  s.tadStep n c fun s =>
    if op.val = 3 || 5 ≤ dst.val || 6 ≤ src.val then s.tadFault n c 1
    else
      let s := if src.val = 0 then s.setBalls balls else s
      let x := s.tctx n c
      let v : Word := match src.val with | 0 => s.inWindow n c | 1 => x.k0 | 2 => x.k1 | 3 => x.rxr | 4 => x.txr | _ => 0
      let v := match op.val with | 0 => v | 1 => ~~~v | _ => revBits v
      let s := if dst.val = 0 then s.outWindow n c 32 v false else s
      s.tadNext n c fun x =>
        match dst.val with | 1 => { x with k0 := v } | 2 => { x with k1 := v } | 3 => { x with rxr := v, rxc := 0 } | 4 => { x with txr := v, txc := 0 } | _ => x

/-- SIG: a flag is set or cleared, or the service request is raised; FLAG is 0 for OP 2. -/
def execSig (n c : Fin 8) (op : Fin 4) (flag : Fin 8) (s : State) : Res :=
  s.tadStep n c fun s =>
    match op.val with
    | 0 => (s.updTad n fun t => { t with flags := t.flags ||| (1#8 <<< flag.val) }).tadNext n c id
    | 1 => (s.updTad n fun t => { t with flags := t.flags &&& ~~~(1#8 <<< flag.val) }).tadNext n c id
    | 2 => if flag.val ≠ 0 then s.tadFault n c 1 else s.tadNext n c fun x => { x with sreq := true }
    | _ => s.tadFault n c 1

/-- END: the context stops, with PC at the END (log 60), and sets its SREQ bit. -/
def execEndContext (n c : Fin 8) (s : State) : Res := s.tadStep n c fun s => s.updCtx n c fun x => { x with st := 0, stall := false, sreq := true }

/-- The word is one of R400's instructions, with every must-be-zero field 0. -/
def tadLegal (w : BitVec 16) : Bool :=
  let x := w.toNat
  match fld x 15 12 with
  | 0 => fld x 7 6 = 0
  | 1 => fld x 10 0 = 0
  | 2 => fld x 8 6 = 0 && (fld x 10 9 ≠ 2 || bitOf x 11)
  | 3 => fld x 8 6 = 0 && fld x 11 9 < 6 && 1 ≤ fld x 5 0 && fld x 5 0 ≤ 32
  | 4 => fld x 8 6 = 0 && fld x 11 9 < 6 && 1 ≤ fld x 5 0 && fld x 5 0 ≤ 32
  | 5 => fld x 11 0 = 0
  | 6 => fld x 11 0 = 0
  | 7 => fld x 8 5 = 0 && fld x 11 10 ≠ 3 && (fld x 11 10 = 0 || !bitOf x 9)
  | 8 => true
  | 9 => fld x 6 3 = 0 && fld x 11 9 < 5 && fld x 8 7 ≠ 3 && fld x 2 0 < 6
  | 10 => fld x 9 3 = 0 && fld x 11 10 ≠ 3 && (fld x 11 10 ≠ 2 || fld x 2 0 = 0)
  | 11 => fld x 11 0 = 0
  | _ => false

/-- ILLEGAL_TADPOLE_WORD: the context meets a word that R400 does not define, or one with a nonzero must-be-zero field (R404). -/
def execIllegalTadpoleWord (n c : Fin 8) (word : BitVec 16) (s : State) : Res :=
  s.tadStep n c fun s => if tadLegal word then s else s.tadFault n c 1

/-! ## Starting and stopping (R407 to R409) -/

/-- An operation on the PIO front end, which is off with its domain. -/
def State.pioOp (s : State) (f : State → State) : Res := .next (if s.domOn 37 then f s else s)

def execRun (n c : Fin 8) (s : State) : Res := s.pioOp fun s => s.tadPrepare n c 1
def execArm (n c : Fin 8) (s : State) : Res := s.pioOp fun s => s.tadPrepare n c 2

/-- STOP: at the context's next slot, which comes only while the clock runs; pins and PC stay (R407, R410). -/
def State.tadStop (s : State) (n c : Nat) : State :=
  s.updCtx n c fun x =>
    if x.st ≠ 1 && x.st ≠ 2 then x else if (s.tad n).clk then { x with st := 0, stall := false, stopping := false } else { x with stopping := true }
def execStop (n c : Fin 8) (s : State) : Res := s.pioOp fun s => s.tadStop n c

/-- FLUSH: both FIFOs are emptied; a stalled PULL goes on stalling (R254, R407). -/
def State.tadFlush (s : State) (n c : Nat) : State := s.updCtx n c fun x => { x with tx := [], rx := [] }
def execPioFlush (n c : Fin 8) (s : State) : Res := s.pioOp fun s => s.tadFlush n c

/-- Every tadpole of a PIO_SYNC mask changed by `f`; MASK keeps what was written (R408, R416). -/
def State.tadSync (s : State) (mask : BitVec 8) (f : Tadpole → Tadpole) : State :=
  let s := { s with pio := { s.pio with syncMask := mask } }
  s.each (setBits 8 mask.toNat) fun s n => s.updTad n f

/-- START: ARMED contexts of the selected tadpoles whose clock runs start. -/
def State.syncStart (s : State) (mask : BitVec 8) : State :=
  s.tadSync mask fun t => if t.clk then { t with ctxs := Tbl.mapv TCtx.init t.ctxs fun x => if x.st = 2 then { x with st := 1 } else x } else t
/-- STOPCLK: the clocks stop. -/
def State.syncStopclk (s : State) (mask : BitVec 8) : State := s.tadSync mask fun t => { t with clk := false }
/-- RESTART: every selected clock runs, and contexts go on from where they stood; a STOP that waited for a slot takes effect (R407, R408). -/
def State.syncRestart (s : State) (mask : BitVec 8) : State :=
  s.tadSync mask fun t =>
    { t with clk := true, ctxs := Tbl.mapv TCtx.init t.ctxs fun x => if x.stopping then { x with st := 0, stall := false, stopping := false } else x }

def execStart (mask : U8) (s : State) : Res := s.pioOp fun s => s.syncStart mask
def execStopclk (mask : U8) (s : State) : Res := s.pioOp fun s => s.syncStopclk mask
def execRestart (mask : U8) (s : State) : Res := s.pioOp fun s => s.syncRestart mask

/-! ## FIFOs and flags (R250, R414, R415) -/

/-- PIO_TXn_c: one word, discarded with OVF when no credit is held. -/
def State.tadTx (s : State) (n c : Nat) (w : Word) : State :=
  s.updCtx n c fun x => if 8 ≤ x.tx.length then { x with ovf := true } else { x with tx := x.tx ++ [w] }
def execPioTxWrite (n c : Fin 8) (data : Word) (s : State) : Res := s.pioOp fun s => s.tadTx n c data

/-- PIO_RXn_c: one word is removed; an empty FIFO sets UNF and reads 0. -/
def State.tadRx (s : State) (n c : Nat) : Word × State :=
  match (s.tctx n c).rx with
  | [] => (0, s.updCtx n c fun x => { x with unf := true })
  | w :: t => (w, s.updCtx n c fun x => { x with rx := t })
def execPioRxRead (n c : Fin 8) (s : State) : Res := s.pioOp fun s => (s.tadRx n c).2

/-- PIO_FLAGSETn: flags are set. -/
def State.tadFlagset (s : State) (n : Nat) (v : BitVec 8) : State := s.updTad n fun t => { t with flags := t.flags ||| v }
def execFlagset (n : Fin 8) (value : U8) (s : State) : Res := s.pioOp fun s => s.tadFlagset n value

/-! ## Tickers (R405, R406) -/

def State.ticker (s : State) (k : Nat) : Ticker := Tbl.get Ticker.init s.warden.tickers k
def State.updTicker (s : State) (k : Nat) (f : Ticker → Ticker) : State :=
  s.updWarden fun w => { w with tickers := Tbl.upd Ticker.init w.tickers k f }

/-- ICU_TKCTLk is written; EN going from 0 to 1 loads RELOAD. -/
def State.tickCtl (s : State) (k : Nat) (v : Word) : State :=
  s.updTicker k fun t => { t with ctl := v &&& 0xE00000FF, count := if v.getLsbD 31 && !t.ctl.getLsbD 31 then t.reload.toNat else t.count }

/-- TICKER_ENABLE: the control word of a ticker. -/
def execTickerEnable (k : Fin 8) (value : Word) (s : State) : Res := .next (if s.domOn 36 then s.tickCtl k value else s)

/-- TICKER_EXPIRY: an enabled ticker reaches 0: it reloads, counts the expiry, clears EN when ONESHOT, and sets its source. -/
def execTickerExpiry (k : Fin 8) (s : State) : Res :=
  .next (
    if !s.domOn 36 || !(s.ticker k).ctl.getLsbD 31 then s
    else
      (s.updTicker k fun t =>
        { t with count := t.reload.toNat, expires := t.expires + 1, ctl := if t.ctl.getLsbD 29 then t.ctl &&& 0x7FFFFFFF else t.ctl }).raise (128 + k))

/-! ## Custodian cards (R417) -/

/-- CARD_PRESENCE_LOSS: the presence pin of channel `c` reads "absent" and the card is deactivated (R417). -/
def execCardPresenceLoss (c : Fin 64) (s : State) : Res := .next (if s.fwUp && s.domOn 37 then s.cardOff c else s)

end Sys2Proof.Machine
end

