-- ==== Sys2Proof/Machine/Lamps.lean ====
section
/-!
DEFINITION. Lamp sinks: verdicts, probes, and what a write of their settings does (R421 to R426).
-/

namespace Sys2Proof.Machine

def State.sink (s : State) (j : Nat) : Sink := s.pio.sink j
def State.updSink (s : State) (j : Nat) (f : Sink → Sink) : State := { s with pio := { s.pio with sinks := Tbl.upd Sink.init s.pio.sinks j f } }

/-- A sink gets a STATUS; a change sets its CHG bit and raises LAMP (R422). -/
def State.sinkStatus (s : State) (j st : Nat) : State :=
  if (s.sink j).status = st then s
  else
    let s := s.updSink j fun x => { x with status := st }
    { s with pio := { s.pio with chg := s.pio.chg ||| (1#32 <<< j) } }.raise 144

def Sink.en (x : Sink) : Bool := x.ctrl.getLsbD 30
/-- ISET in mA, and VSHORT in volts, as they act (R422). -/
def Sink.iset (x : Sink) : Nat := min 30 (max 2 (fld x.ctrl.toNat 12 8))
def Sink.vshort (x : Sink) : Nat := min 40 (fld x.ctrl.toNat 21 16)

/-- The verdict for a pin voltage in 0.2 V units and a current in 0.1 mA units: 4 SHORT, 3 OPEN, 2 GOOD (R423). -/
def Sink.verdict (x : Sink) (vpin cur : Nat) : Nat :=
  if x.vshort ≠ 0 && 5 * x.vshort < vpin then 4 else if 2 * cur < 10 * x.iset then 3 else 2

/-- A verdict is taken: SHORT at once, with the sink turned off; GOOD or OPEN after two identical ones (R423). -/
def State.lampVerdict (s : State) (j vpin cur : Nat) : State :=
  let v := (s.sink j).verdict vpin cur
  let same := (s.sink j).last = v
  let s := s.updSink j fun x => { x with vpin := vpin, last := v, shortoff := x.shortoff || v = 4 }
  if v = 4 || same then s.sinkStatus j v else s

/-- The sink lights: enabled, not held off after a short, and its domain on. -/
def State.sinkLit (s : State) (j : Nat) : Bool := s.domOn 37 && (s.sink j).en && !(s.sink j).shortoff

/-- LAMP_VERDICT: 40 µs into an on-time at ISET. -/
def execLampVerdict (j : Fin 32) (vpin : U8) (cur : BitVec 16) (s : State) : Res :=
  .next (if s.sinkLit j then s.lampVerdict j vpin.toNat cur.toNat else s)

/-- LAMP_PROBE: a probe pulse of a sink with PROBE = 1 gives a verdict (R425). -/
def execLampProbe (j : Fin 32) (vpin : U8) (cur : BitVec 16) (s : State) : Res :=
  .next (if s.sinkLit j && (s.sink j).ctrl.getLsbD 31 then s.lampVerdict j vpin.toNat cur.toNat else s)

/-- LAMP_UNMEASURED_TIMEOUT: 2.1 s have passed with no verdict (R424). -/
def execLampUnmeasuredTimeout (j : Fin 32) (s : State) : Res := .next (if s.domOn 37 && (s.sink j).en then s.sinkStatus j 1 else s)

/-- Measurement starts anew: UNMEASURED while EN = 1 (R424, R426). -/
def State.sinkAnew (s : State) (j : Nat) : State :=
  (s.updSink j fun x => { x with last := 0 }).sinkStatus j (if (s.sink j).en then 1 else 0)

/-- SHORTOFF_RELEASE: IND_STATj.SHORTOFF is written 1 (R422, R424). -/
def State.shortoffRelease (s : State) (j : Nat) : State :=
  if (s.sink j).shortoff then (s.updSink j fun x => { x with shortoff := false }).sinkAnew j else s
def execShortoffRelease (j : Fin 32) (s : State) : Res := .next (if s.domOn 37 then s.shortoffRelease j else s)

/-- IND_CTRLj is written: EN, or a change of ISET, VSHORT, PERIOD or BLINK, starts measurement anew (R424). -/
def State.indCtrl (s : State) (j : Nat) (v : Word) : State :=
  let v := v &&& 0xFC3F1F00#32
  let old := (s.sink j).ctrl
  let s := s.updSink j fun x => { x with ctrl := v }
  if (old ^^^ v) &&& 0x7FFFFFFF#32 = 0 then s else s.sinkAnew j

/-- IND_PWMj is written (R424). -/
def State.indPwm (s : State) (j : Nat) (v : Word) : State :=
  let v := v &&& 0x3FF#32
  if (s.sink j).pwm = v then s else (s.updSink j fun x => { x with pwm := v }).sinkAnew j

end Sys2Proof.Machine
end

