-- ==== Sys2Proof/Machine/Regs.lean ====
section
/-!
DEFINITION. Reads of registers with the effects they have: a LO read latches the HI half (R9), and reads that take something (R135, R227, R391,
R415); and which power domain answers for a register (R429).
-/

namespace Sys2Proof.Machine

/-! ## 64-bit pairs (R9) -/

/-- A read in a block of 64-bit pairs whose low registers `lo` names: a low read latches the high half, and the next read of the high register
returns it. A high read with no half latched, a second one among them, returns the present high half (DESIGN CHOICE, log 74). -/
def latched (lo : Nat → Bool) (l : Tbl (Option Word)) (peek : Nat → Word) (o : Nat) : Word × Tbl (Option Word) :=
  if lo o then (peek o, Tbl.set none l (o + 4) (some (peek (o + 4))))
  else if 4 ≤ o && lo (o - 4) then
    (match Tbl.get none l o with | some v => (v, Tbl.set none l o none) | none => (peek o, l))
  else (peek o, l)

/-- Low registers of the ENGn_ pairs: DEADLINE, DMPRP1, DMPRP2, MOLTFP. -/
def engLo (o : Nat) : Bool := o = 0x018 || o = 0x108 || o = 0x110 || o = 0x1C8
/-- Low registers of the gate pairs of a QDn_ block: QDn_GLO and QDn_GHI. -/
def quadLo (o : Nat) : Bool := 0x1000 ≤ o && o < 0x1800 && (o % 0x20 = 0x08 || o % 0x20 = 0x10)

/-- ENGn_ registers that a lane processor does not reach (R47, R87, R130). -/
def wardenOnly (o : Nat) : Bool := o = 0x020 || o = 0x028 || o = 0x030 || (0x040 ≤ o && o < 0x050) || o = 0x138

/-- A read of an ENGn_ register, by the engine's lane processor or by the warden. -/
def State.engRead (s : State) (lane : Bool) (e o : Nat) : Word × State :=
  if lane && wardenOnly o then (0, s)
  else if lane && o = 0x12C then s.dmDoneRead e
  else if o = 0x198 then s.slotGet e
  else if o = 0x1DC then s.spGntRead e
  else
    let r := latched engLo (s.eng e).latch (s.engPeek e) o
    (r.1, s.updEng e fun g => { g with latch := r.2 })

/-- A read of the register at a warden address. -/
def State.regRead (s : State) (lane : Bool) (a : Nat) : Word × State :=
  if 0x1000000 ≤ a && a < 0x1400000 then s.engRead lane ((a - 0x1000000) / 0x8000) (a % 0x8000)
  else if 0x500000 ≤ a && a < 0x540000 then
    let q := (a - 0x500000) / 0x10000
    let r := latched quadLo (s.quad q).latch (s.quadPeek q) (a % 0x10000)
    (r.1, s.updQuad q fun x => { x with latch := r.2 })
  else if a = 0x200074 then s.ledgerData none
  else if 0x200000 ≤ a && a < 0x202000 then
    let r := latched (fun o => o = 0x80) s.vault.latch s.vltPeek (a - 0x200000)
    (r.1, s.updVault fun v => { v with latch := r.2 })
  else if 0x400000 ≤ a && a < 0x404000 && 0x400 ≤ a % 0x800 && a % 0x800 < 0x600 && a % 0x40 = 0x18 then
    s.tadRx ((a - 0x400000) / 0x800) ((a % 0x800 - 0x400) / 0x40)
  else
    let r := latched (fun o => o = 0x50 || (0x921000 ≤ o && o < 0x921000 + 1030 * 16 && o % 16 = 8)) s.warden.latch s.peek a
    (r.1, s.updWarden fun w => { w with latch := r.2 })

/-! ## The domain that holds a register (R329, R429, R480) -/

/-- The die of the ends of queue q: an engine's queue, a dispatcher's or port's, a fault queue's (R257). -/
def State.queueDom (s : State) (q : Nat) : Nat :=
  if q < 512 then tileOf (q % 128)
  else if q < 1536 then 32 + s.funcQuad (q - 512) / 2
  else if q < 1540 then 32 + s.portQuad (q - 1536) / 2
  else if q = 1541 then 33 else 36

/-- The domain whose power a register block needs: tiles 0 to 15, die fabrics 32 and 33, the warden 36, and for the tadpoles 37 (log 62). -/
def State.regDom (s : State) (a : Nat) : Nat :=
  if 0x300000 ≤ a && a < 0x310000 then (a - 0x300000) / 0x1000
  else if 0x400000 ≤ a && a < 0x404000 then 37
  else if 0x500000 ≤ a && a < 0x540000 then 32 + (a - 0x500000) / 0x20000
  else if 0x600000 ≤ a && a < 0x608000 then s.queueDom ((a - 0x600000) / 16)
  else if 0x700000 ≤ a && a < 0x701000 then 32 + (a - 0x700000) / 0x800
  else if 0x800000 ≤ a && a < 0x900000 then 32 + (a - 0x800000) / 0x80000
  else if 0x1000000 ≤ a && a < 0x1400000 then tileOf ((a - 0x1000000) / 0x8000)
  else 36

/-- The block of a warden address answers: its domain is powered. -/
def State.regOn (s : State) (a : Nat) : Bool := s.domOn (s.regDom a)

end Sys2Proof.Machine
end

