-- ==== Sys2Proof/Machine/RegWrite.lean ====
section
/-!
DEFINITION. Writes of registers, block by block in the warden's address map (R478), each field under its access type (R11, R488 to R490): what is
stored, what a W1C or CNT write does, and which operation a W1S write starts.
-/

namespace Sys2Proof.Machine

/-- The low bits of a number as an index below a power of two. -/
def idx (n x : Nat) (h : 0 < n) : Fin n := ⟨x % n, Nat.mod_lt x h⟩

/-! ## ENGn_ (R48, R87 to R92, R110, R130 to R133, R140, R226 to R228) -/

/-- ENGn_DEADLINE_HI: the whole deadline is applied, and ARM = 0 clears DEADLINE (R91). -/
def State.deadlineHi (s : State) (e : Nat) (v : Word) : State :=
  s.updEng e fun g =>
    let d := BitVec.ofNat 64 (g.dlLo.toNat + 2 ^ 32 * fld v.toNat 30 0)
    { g with deadline := d, dlArm := v.getLsbD 31, dlHit := g.dlHit && v.getLsbD 31 && d.toNat ≤ s.now }

/-- ENGn_WDBSET.RING: every write of 1 counts once (R90). -/
def State.wdbRing (s : State) (e : Nat) : State := s.updEng e fun g => { g with wdbCnt := g.wdbCnt + 1 }

/-- ENGn_CTRL.HALT written: 1 asks for a halt at the next halt point, 0 runs from ENGn_HALTPC (R92, R94). -/
def State.haltWrite (s : State) (e : Nat) (on : Bool) : State := if on then s.updEng e fun g => { g with halt := true } else s.engineRelease e

/-- Writable bits of a staging register (R131, R132). -/
def stageMask (o : Nat) : Word :=
  if o = 0x100 then 0x3FFF71FF else if o = 0x104 then 0xF9FFFFFF else if o = 0x118 || o = 0x11C then 0x001FFFFF
  else if o = 0x120 then 0x071FFFFF else 0xFFFFFFFF

/-- ENGn_MOLTPOST with GO: the post of its KIND (R227). -/
def State.moltPostReg (s : State) (e : Nat) (v : Word) : State :=
  let m : MoltId := idx 64 v.toNat (by decide)
  let g : EngId := idx 128 e (by decide)
  match fld v.toNat 30 28 with
  | 1 => resState (execMoltpostClaim g m s) s
  | 2 => resState (execMoltpostFingerprint g m (pair64 (s.eng e).moltFpLo (s.eng e).moltFpHi) s) s
  | 3 => resState (execMoltpostDone g m s) s
  | 4 => resState (execMoltpostResolvedNew g m s) s
  | 5 => resState (execMoltpostResolvedOld g m s) s
  | 6 => resState (execMoltpostFailed g m s) s
  | _ => s

/-- The registers of commands, slots, completions, molts and spill blocks (R226, R227). -/
def State.engCmdWrite (s : State) (e o : Nat) (v : Word) : State :=
  let go := v.getLsbD 31
  match o with
  | 0x148 => if v.getLsbD 0 then s.cmdPop e else s
  | 0x14C => if go then s.cmdDefer e v else s.updEng e fun g => { g with cmdDefer := v &&& 0x1FF }
  | 0x190 => s.updEng e fun g => { g with cplDw0 := v }
  | 0x194 => if go then s.cplPostReg e v else s.updEng e fun g => { g with cplPost := v &&& 0x7FFE01FF }
  | 0x19C => if go then s.slotCls e v else s.updEng e fun g => { g with slotCls := v &&& 0x700001FF }
  | 0x1A4 => if v.getLsbD 0 then s.dcqPop e else s
  | 0x1A8 => s.updEng e fun g => { g with errCls := g.errCls && !v.getLsbD 1, errDef := g.errDef && !v.getLsbD 0 }
  | 0x1C4 => if v.getLsbD 0 then s.moltPop e else s
  | 0x1C8 => s.updEng e fun g => { g with moltFpLo := v }
  | 0x1CC => s.updEng e fun g => { g with moltFpHi := v }
  | 0x1D0 =>
    let s := s.updEng e fun g => { g with moltPostR := v &&& 0x7000003F }
    if go then s.moltPostReg e v else s
  | 0x1D8 => if go then s.spReqReg e v else s.updEng e fun g => { g with spReq := v &&& 0xFF07 }
  | 0x1E0 => if go then s.spRetReg e v else s.updEng e fun g => { g with spRet := v &&& 0x1FF }
  | _ => s

/-- The registers of execution and of the data mover (R87, R130). -/
def State.engWrite (s : State) (lane : Bool) (e o : Nat) (v : Word) : State :=
  if lane && wardenOnly o then s
  else match o with
  | 0x000 => s.updEng e fun g => { g with evRate := g.evRate && !v.getLsbD 9, evPurge := g.evPurge && !v.getLsbD 8 }
  | 0x004 => s.updEng e fun g => { g with even := v.truncate 12 }
  | 0x00C => s.updEng e fun g => { g with xferAck := v.truncate 16 }
  | 0x014 => s.updEng e fun g => { g with wdbAck := v.truncate 16 }
  | 0x018 => s.updEng e fun g => { g with dlLo := v }
  | 0x01C => s.deadlineHi e v
  | 0x028 => s.updEng e fun g => { g with haltpc := v &&& ~~~3#32 }
  | 0x02C => if lane then s else s.updEng e fun g => { g with ipar := (v >>> 16).truncate 16, dsbe := v.truncate 16 }
  | 0x030 => if v.getLsbD 0 then s.wdbRing e else s
  | 0x124 => if v.getLsbD 0 then s.goReg e else s
  | 0x130 => if v.getLsbD 31 then s.dmRel e (fld v.toNat 8 0) else s.updEng e fun g => { g with relSlot := fld v.toNat 8 0 }
  | 0x138 => if v.getLsbD 0 then s.cutest e else s
  | _ =>
    if 0x040 ≤ o && o < 0x050 then s.updEng e fun g => { g with dwin := Tbl.set 0 g.dwin ((o - 0x40) / 4) (v &&& 0x71F) }
    else if 0x100 ≤ o && o ≤ 0x120 then s.updEng e fun g => { g with stage := Tbl.set 0 g.stage o (v &&& stageMask o) }
    else s.engCmdWrite e o v

/-! ## TILEn_ (R167 to R172, R311) -/

def State.tileWrite (s : State) (t o : Nat) (v : Word) : State :=
  match o with
  | 0x000 => s.updTile t fun x => { x with ksbase := v &&& 0x11F }
  | 0x004 =>
    let s := (s.updTile t fun x => { x with lowwater := fld v.toNat 8 4 }).pinTry t
    if v.getLsbD 0 then s.wbflush t else s
  | 0x00C =>
    let s := if v.getLsbD 30 then s.updTile t fun x => { x with purgeOvf := false } else s
    if v.getLsbD 31 then s.kcpurge t (fld v.toNat 29 28) (fld v.toNat 19 0) true
    else s.updTile t fun x => { x with purgeScope := fld v.toNat 29 28, purgeKey := fld v.toNat 19 0 }
  | 0x010 =>
    if v.getLsbD 31 then s.kcpin t (v.getLsbD 30) (fld v.toNat 19 0) (fld v.toNat 23 20)
    else s.updTile t fun x => { x with pinOp := v.getLsbD 30, pinGen := fld v.toNat 23 20, pinSlot := fld v.toNat 19 0 }
  | 0x014 => s.updTile t fun x =>
      { x with errUlimit := x.errUlimit && !v.getLsbD 2, errDram := x.errDram && !v.getLsbD 1, errUnwrap := x.errUnwrap && !v.getLsbD 0 }
  | 0x020 => s.updTile t fun x => { x with kcHit := v }
  | 0x024 => s.updTile t fun x => { x with kcMiss := v }
  | 0x028 => s.updTile t fun x => { x with kcWait := v }
  | 0x02C => s.updTile t fun x => { x with wbAged := v }
  | 0x040 => s.updTile t fun x => { x with dering := v &&& 0x1FF000 }
  | _ => s

/-! ## QDn_ (R231, R490) -/

/-- QDn_SCALE: the four fields, or their shadow while they are overridden. -/
def State.scaleWrite (s : State) (q : Nat) (v : Word) : State :=
  if s.pwr.overridden then s.updQuad q fun x => { x with scaleReq := v }
  else (List.range 4).foldl (fun s k => s.setScale (4 * q + k) (fld v.toNat (8 * k + 7) (8 * k))) (s.updQuad q fun x => { x with scaleReq := v })

/-- A 64-bit register with its low or high word replaced. -/
def putHalf (x : DWord) (hi : Bool) (v : Word) : DWord :=
  if hi then BitVec.ofNat 64 (x.toNat % 2 ^ 32 + v.toNat * 2 ^ 32) else BitVec.ofNat 64 (x.toNat / 2 ^ 32 * 2 ^ 32 + v.toNat)

/-- QDn_GCTRL: ERR is cleared, then OPEN, then CLOSE (R231). -/
def State.gateWrite (s : State) (q m : Nat) (v : Word) : State :=
  let s := if v.getLsbD 26 then s.updQuad q fun x => x.setGate m { x.gate m with err := false } else s
  let s := if v.getLsbD 30 then s.gateOpen q m else s
  if v.getLsbD 31 then s.gateClose q m ((s.quad q).gate m).loR.toNat ((s.quad q).gate m).hiR.toNat else s

def State.quadWrite (s : State) (q o : Nat) (v : Word) : State :=
  if 0x1000 ≤ o && o < 0x1800 then
    let m := (o - 0x1000) / 0x20
    let upd := fun (f : Gate → Gate) => s.updQuad q fun x => x.setGate m (f (x.gate m))
    match o % 0x20 with
    | 0x00 => upd fun g => { g with en := v.getLsbD 31, nsx := fld v.toNat 15 0 }
    | 0x04 => s.gateWrite q m v
    | 0x08 => upd fun g => { g with loR := putHalf g.loR false v }
    | 0x0C => upd fun g => { g with loR := putHalf g.loR true v }
    | 0x10 => upd fun g => { g with hiR := putHalf g.hiR false v }
    | 0x14 => upd fun g => { g with hiR := putHalf g.hiR true v }
    | _ => s
  else
    match o with
    | 0x00 => s.updQuad q fun x => { x with en := v.getLsbD 31, elimit := fld v.toNat 12 0 }
    | 0x08 => s.scaleWrite q v
    | 0x10 =>
      let f := fld v.toNat 9 0
      let s := s.updQuad q fun x => { x with admFunc := f }
      let s := if v.getLsbD 31 then s.admWrite q f (s.quad q).admw0 (s.quad q).admw1 else s
      if v.getLsbD 30 then s.admRead q f else s
    | 0x14 => s.updQuad q fun x => { x with admw0 := v }
    | 0x18 => s.updQuad q fun x => { x with admw1 := v &&& 0xFFF01FFF }
    | _ => s

/-! ## QCn_ (R258) -/

def State.queueWrite (s : State) (n o : Nat) (v : Word) : State :=
  let q := s.queue n
  if 1543 ≤ n then s
  else match o with
  | 0x0 =>
    let s := if v.getLsbD 31 then s.queueFlush n else s
    s.queueEnable n (v.getLsbD 30)
  | 0x4 => s.updQueue n fun q =>
      { q with flushed := q.flushed && !v.getLsbD 31, ovf := q.ovf && !v.getLsbD 30, merr := q.merr && !v.getLsbD 29, rewinds := (v >>> 16).truncate 8 }
  | 0x8 => if 512 ≤ n && n < 1536 && !q.en then s.setQueue n { q with ring := v &&& 0xFFFFFE01 } else s
  | 0xC => if 512 ≤ n && n < 1536 && !q.en then s.setQueue n { q with rsize := v &&& 0xFFFF } else s
  | _ => s

/-! ## DRVn_, FLT_ (R318, R324, R326, R490) -/

/-- DRVn_STAT.STATE: 0, 4 and 7 are discarded, and a write during an override is parked; a drive that leaves ACTIVE ends its commands (R313, R318, R490;
log 94). -/
def State.drvStateWrite (s : State) (d st : Nat) : State :=
  if st = 0 || st = 4 || st = 7 then s
  else
    let was := (s.drive d).st
    let s := s.updDrive d fun x => if x.overridden then { x with stReq := st, parked := true } else { x with st := st }
    if was = 2 && st ≠ 2 then (s.failDrive d 3 (if st = 3 then stInternal else stNotReady) false).moltsCheck else if was ≠ 2 && st = 2 then s.moltsCheck else s

/-- DRVn_QCFG.DEPTH as stored: the nearest listed depth below the value, at least 16. -/
def depthOf (v : Nat) : Nat := if v < 32 then 16 else 2 ^ min 10 (Nat.log2 v)

def State.driveWrite (s : State) (d o : Nat) (v : Word) : State :=
  match o with
  | 0x00 => s.drvStateWrite d (fld v.toNat 2 0)
  | 0x04 =>
    let s := if v.getLsbD 1 then s.drvRelease d else s
    if v.getLsbD 0 then s.quarantine d else s
  | 0x08 => s.updDrive d fun x => { x with cto := v &&& 0xFFFF }
  | 0x0C => s.updDrive d fun x => { x with depth := depthOf (fld v.toNat 11 0) }
  | 0x10 => s.updDrive d fun x => { x with vcnt := v }
  | 0x14 => s.updDrive d fun x => { x with aen := x.aen && !v.getLsbD 31 }
  | 0x18 => s.updDrive d fun x => { x with resets := v }
  | _ => s

def State.fltWrite (s : State) (o : Nat) (v : Word) : State :=
  if 0x100 ≤ o && o < 0x200 then
    let i := (o - 0x100) / 16
    let x := s.fltEntry i
    s.setFltEntry i (match o % 16 with
      | 0 => { x with w0 := v &&& 0xFE7FFFFF } | 4 => { x with w1 := v } | 8 => { x with w2 := v } | _ => { x with w3 := v })
  else if o = 0 then { s with flt := { s.flt with overwrites := (v >>> 16).truncate 16 } }
  else if 0x10 ≤ o && o < 0x20 then s.each (List.range 32) fun s i => s.setMask 1 (8 * (o - 0x10) + i) (v.getLsbD i)
  else if o = 0x20 then s.each (List.range 16) fun s i => s.setMask 2 i (v.getLsbD i)
  else if o = 0x24 then s.each (List.range 4) fun s i => s.setMask 3 i (v.getLsbD i)
  else s

/-! ## PGn_, CLK_ (R297, R298, R300, R301) -/

/-- PGn_CTRL: PERST, then EN, then RETRAIN of each slot. -/
def State.groupCtrl (s : State) (g : Nat) (v : Word) : State :=
  s.each [0, 1] fun s k =>
    let s := if (s.group g).perst.getLsbD k = v.getLsbD (2 + k) then s else s.perstDown g k (v.getLsbD (2 + k))
    let s := s.slotEnable g k (v.getLsbD k)
    if v.getLsbD (4 + k) then s.retrain g k else s

def State.groupWrite (s : State) (g o : Nat) (v : Word) : State :=
  match o with
  | 0x00 => s.modeWrite g v
  | 0x04 => s.groupCtrl g v
  | 0x08 => s.updGroup g fun x => { x with modeErr := x.modeErr && !v.getLsbD 8 }
  | 0x20 => s.updGroup g fun x => { x with dcto := v &&& 0xFFFF }
  | _ => if 0x40 ≤ o && o < 0x60 then s.updGroup g fun x => { x with vcnt := Tbl.set 0 x.vcnt ((o - 0x40) / 4) v } else s

/-- CLK_CTRL: AUTO, PRIMARY or its shadow while a switch runs, then FORCE; a change of PRIMARY may bring a switch (R293, R301). -/
def State.clkCtrl (s : State) (v : Word) : State :=
  let c := s.clk
  let c := { c with auto := v.getLsbD 2, primaryReq := v.getLsbD 0, primary := if c.switching then c.primary else v.getLsbD 0 }
  let s := { s with clk := c }
  (if v.getLsbD 1 then s.clkForce else s).clkAuto

def State.clkWrite (s : State) (o : Nat) (v : Word) : State :=
  match o with
  | 0x0 => s.clkCtrl v
  | 0x8 => { s with clk := { s.clk with swcnt := v } }
  | _ => s

/-! ## PWR_ (R438) -/

/-- PWR_TTGTt: the regulator retargets from the present voltage, which is open while the rail slews (R433, log 5). -/
def State.ttgtWrite (s : State) (t : Nat) (v : Word) : State :=
  let r := s.fresh 10
  r.2.ttgt t (fld v.toNat 9 0) r.1.toNat

def State.pwrWrite (s : State) (o : Nat) (v : Word) : State :=
  if 0x100 ≤ o && o < 0x200 then (if o % 16 = 0 then s.ttgtWrite ((o - 0x100) / 16) v else s)
  else
    match o with
    | 0x00 =>
      let s := s.updPwr fun p => { p with sren := v.getLsbD 8, state := fld v.toNat 1 0 }
      if v.getLsbD 31 then s.stage5 false else s
    | 0x04 => s.updPwr fun p => { p with orderErr := p.orderErr && !v.getLsbD 31 }
    | 0x0C =>
      let s := s.updPwr fun p => { p with entries := (v >>> 16).truncate 16 }
      if v.getLsbD 8 then s.tdClr else s
    | 0x10 => grantHeld 16 (s.updPwr fun p => { p with budget := fld v.toNat 12 0 })
    | 0x20 => s.domWrite false v
    | 0x24 => s.domWrite true v
    | _ => s

/-! ## WRD_, ICU_, MBX_ (R333, R335, R337, R343, R348, R406, R483) -/

/-- A protection region's registers, which ignore writes once LOCK is 1. -/
def State.regionWrite (s : State) (k o : Nat) (v : Word) : State :=
  let r := Tbl.get Region.init s.warden.regions k
  if r.attr.getLsbD 31 then s
  else
    let r := match o with
      | 0 => { r with base := v &&& 0xFFFFF000 } | 4 => { r with limit := v &&& 0xFFFFF000 } | 8 => { r with attr := v &&& 0x8000007F } | _ => r
    s.updWarden fun w => { w with regions := Tbl.set Region.init w.regions k r }

def State.wrdWrite (s : State) (o : Nat) (v : Word) : State :=
  match o with
  | 0x00 => s.croak (v.truncate 16)
  | 0x04 => if s.warden.croakCfg.getLsbD 31 then s else s.updWarden fun w => { w with croakCfg := v &&& 0x8000FFFF }
  | 0x10 => s.updWarden fun w => { w with busValid := w.busValid && !v.getLsbD 31, busCount := v.truncate 16 }
  | 0x18 => s.updWarden fun w => { w with iecc := (v >>> 16).truncate 16, dsbe := v.truncate 16 }
  | _ =>
    if 0x40 ≤ o && o < 0x60 then s.updWarden fun w => { w with wdw := Tbl.set 0 w.wdw ((o - 0x40) / 4) (v &&& 0x31F) }
    else if 0x100 ≤ o && o < 0x200 then s.regionWrite ((o - 0x100) / 16) (o % 16) v
    else s

/-- ICU_PENDk: pending edges are cleared, and asynchronous edges counted so far acknowledged. -/
def State.icuClear (s : State) (k : Nat) (v : Word) : State :=
  s.updWarden fun w =>
    { w with pend := w.pend &&& ~~~(v.zeroExtend 256 <<< (32 * k))
             acked := if k = 5 then (setBits 8 v.toNat).foldl (fun t j => Tbl.set 0 t j (Tbl.get 0 w.arrived j)) w.acked else w.acked }

def State.icuWrite (s : State) (o : Nat) (v : Word) : State :=
  if o < 0x20 then s.icuClear (o / 4) v
  else if o < 0x40 then
    let k := (o - 0x20) / 4
    s.updWarden fun w => { w with enable := (w.enable &&& ~~~((0xFFFFFFFF#256) <<< (32 * k))) ||| (v.zeroExtend 256 <<< (32 * k)) }
  else if o = 0x44 then s.icuSwset (v.truncate 8)
  else if 0x100 ≤ o && o < 0x180 then
    let k := (o - 0x100) / 16
    match o % 16 with | 0 => s.tickCtl k v | 4 => s.updTicker k fun t => { t with reload := v } | _ => s
  else s

/-- MBX_PCMDp: ACCEPT, DONE and RESET, each in the states it names. -/
def State.pageCmd (s : State) (p : Nat) (v : Word) : State :=
  let s := if v.getLsbD 0 then s.pageAccept p else s
  let s := if v.getLsbD 1 then s.mbxDone p else s
  if v.getLsbD 2 then s.pageReset p else s

def State.mbxWrite (s : State) (o : Nat) (v : Word) : State :=
  if o ≤ 0x80 then s.updWarden fun w => { w with dbsum := (setBits 32 v.toNat).foldl (fun t i => Tbl.set false t (8 * o + i) false) w.dbsum }
  else if 0x1000 ≤ o && o < 0x1000 + 1030 * 16 then
    let p := (o - 0x1000) / 16
    match o % 16 with
    | 0x0 => s.updPage p fun g => { g with overrun := g.overrun && !v.getLsbD 31 }
    | 0x4 => s.pageCmd p v
    | _ => s
  else s

/-! ## VLT_ (R390 to R392) -/

/-- VLT_CMD.GO: the command runs with what it takes from VLT_ARG (R391, R392, log 15). -/
def State.vltGo (s : State) (op : Nat) : State :=
  let arg := fun i => Config.vaultArg op i (Memory.bytes s.vault.arg 0 2048)
  let num := fun i => ofLe (arg i)
  let func : FuncId := idx 1024 (num 0) (by decide)
  let slot : BitVec 20 := BitVec.ofNat 20 (num 2)
  let nsx : BitVec 16 := BitVec.ofNat 16 (num 4)
  let alt : Option (Fin 1024) := if num 6 = 0 then none else some (idx 1024 (num 6 - 1) (by decide))
  let go := fun (r : State → Res) => if s.vault.cmdBusy then s else resState (r s) s
  match op with
  | 0x01 => go (execVltNonce func)
  | 0x02 => go (execVltImport func (idx 4 (num 1) (by decide)) slot (idx 16 (num 3) (by decide)) nsx (idx 64 (num 5) (by decide)) alt
      (arg 7) (arg 8) (arg 9))
  | 0x03 => go (execVltGenerate func (idx 4 (num 1) (by decide)) slot (idx 16 (num 3) (by decide)) nsx (idx 64 (num 5) (by decide)) alt)
  | 0x04 => go (execVltSign (idx 2 (num 0) (by decide)) (arg 1))
  | 0x05 => go execVltDeviceErase
  | 0x06 => go execVltSlotmapBump
  | 0x07 => go (execVltCustodyInit (BitVec.ofNat 8 (num 0)) (BitVec.ofNat 8 (num 1)))
  | 0x08 => go execVltShareRotate
  | 0x09 => go (execVltShareOut (BitVec.ofNat 8 (num 0)) (arg 1))
  | 0x0A => go execVltRestoreBegin
  | 0x0B => go (execVltChallenge (BitVec.ofNat 8 (num 0)))
  | 0x0C => go (execVltShareIn (BitVec.ofNat 8 (num 0)) (arg 1) (arg 2))
  | 0x0D => go execVltRestoreAbort
  | 0x0E =>
    let n := s.fresh 7
    if s.vault.cmdBusy then s else resState (execVltTamperAck n.1 n.2) s
  | 0x0F => go execVltWardenReset
  | 0x10 => go (execVltTestUnlock (arg 0))
  | _ => if s.vault.cmdBusy then s else s.vltRun op false false fun s => (((Config.vaultResult (0x200 + op)).toNat, []), s)

/-- VLT_ERASEREG: OVF is cleared, SLOT taken, then WITHDRAW, then REGISTER (R391). -/
def State.eraseRegWrite (s : State) (v : Word) : State :=
  let s := s.updVault fun x => { x with regOvf := x.regOvf && !v.getLsbD 2, regSlot := v.getLsbD 8 }
  let s := if v.getLsbD 30 then s.eraseWithdraw (b2n (v.getLsbD 8)) else s
  if v.getLsbD 31 then s.eraseRegister.1 else s

def State.vltWrite (s : State) (o : Nat) (v : Word) : State :=
  match o with
  | 0x00 => s.updVault fun x => { x with ledgerLost := x.ledgerLost && !v.getLsbD 10, brownout := x.brownout && !v.getLsbD 7 }
  | 0x10 => if s.vault.tcfg.getLsbD 31 then s else s.updVault fun x => { x with tcfg := v &&& 0x80000003 }
  | 0x14 => s.updVault fun x => { x with brownouts := (v >>> 8).truncate 8 }
  | 0x50 => s.eraseRegWrite v
  | 0x60 =>
    if v.getLsbD 31 && s.vault.cmdBusy then s
    else
      let s := s.updVault fun x => { x with cmd := fld v.toNat 7 0 }
      if v.getLsbD 31 then s.vltGo (fld v.toNat 7 0) else s
  | 0x70 => s.updVault fun x => { x with laddr := fld v.toNat 12 2 }
  | 0x74 => (s.ledgerData (some v)).2
  | _ =>
    if 0x20 ≤ o && o < 0x40 then s.wakeConfig ((o - 0x20) / 4) v
    else if 0x1000 ≤ o && o < 0x1800 then s.updVault fun x => { x with arg := Memory.putNum x.arg (o - 0x1000) 4 v.toNat }
    else s

/-! ## PIO_, IND_ (R407 to R409, R414 to R416, R422) -/

/-- Some context of the tadpole is RUNNING or ARMED. -/
def Tadpole.busy (t : Tadpole) : Bool := (List.range 8).any fun c => (t.ctx c).st = 1 || (t.ctx c).st = 2

/-- A context register that only a STOPPED or faulted context takes (R409). -/
def State.ctxConfig (s : State) (n c : Nat) (f : TCtx → TCtx) : State :=
  if (s.tctx n c).st = 0 || (s.tctx n c).st = 3 then s.updCtx n c f else s.tadCfgErr n

/-- PIO_CCTLn_c: FLUSH, STOP, then RUN, then ARM. -/
def State.ctxCtl (s : State) (n c : Nat) (v : Word) : State :=
  let s := if v.getLsbD 3 then s.tadFlush n c else s
  let s := if v.getLsbD 1 then s.tadStop n c else s
  let s := if v.getLsbD 0 then s.tadPrepare n c 1 else s
  if v.getLsbD 2 then s.tadPrepare n c 2 else s

def State.ctxWrite (s : State) (n c o : Nat) (v : Word) : State :=
  match o with
  | 0x00 => s.ctxConfig n c fun x => { x with ccfg := v &&& 0xFF7F1F3F }
  | 0x04 => s.ctxConfig n c fun x => { x with cpin := v &&& 0x1FFFFF }
  | 0x08 => s.ctxConfig n c fun x => { x with cpin2 := v &&& 0x3F3F }
  | 0x0C => s.ctxCtl n c v
  | 0x10 => s.updCtx n c fun x => { x with stalls := v.truncate 16 }
  | 0x14 => s.tadTx n c v
  | 0x1C => s.updCtx n c fun x => { x with ovf := x.ovf && !v.getLsbD 31, unf := x.unf && !v.getLsbD 30 }
  | _ => s

def State.tadWrite (s : State) (n o : Nat) (v : Word) : State :=
  let t := s.tad n
  if 0x100 ≤ o && o < 0x200 then
    (if t.busy then s.updTad n fun t => { t with imErr := true } else s.updTad n fun t => { t with imem := Tbl.set 0 t.imem ((o - 0x100) / 4) (v.truncate 16) })
  else if 0x400 ≤ o && o < 0x600 then s.ctxWrite n ((o - 0x400) / 0x40) (o % 0x40) v
  else
    match o with
    | 0x00 => if t.busy || t.clk then s.tadCfgErr n else s.updTad n fun t => { t with slots := fld v.toNat 17 16, div := fld v.toNat 15 8 }
    | 0x04 => s.updTad n fun t => { t with cfgErr := t.cfgErr && !v.getLsbD 31, imErr := t.imErr && !v.getLsbD 30, deny := (v >>> 16).truncate 8 }
    | 0x08 => s.each (setBits 8 (fld v.toNat 23 16)) fun s c => s.updCtx n c fun x => { x with sreq := false }
    | 0x0C => s.updTad n fun t => { t with srven := v }
    | 0x10 => s.updTad n fun t => { t with flags := w1c t.flags (v.truncate 8) }
    | 0x14 => s.tadFlagset n (v.truncate 8)
    | _ => s

/-- PIO_SYNC: START, RESTART and STOPCLK on the tadpoles of MASK (R408). -/
def State.syncWrite (s : State) (v : Word) : State :=
  let m : BitVec 8 := v.truncate 8
  let s := { s with pio := { s.pio with syncMask := m } }
  let s := if v.getLsbD 8 then s.syncStart m else s
  let s := if v.getLsbD 9 then s.syncRestart m else s
  if v.getLsbD 10 then s.syncStopclk m else s

def State.pioWrite (s : State) (o : Nat) (v : Word) : State :=
  if o < 0x4000 then s.tadWrite (o / 0x800) (o % 0x800) v
  else if 0x4100 ≤ o && o < 0x4200 then s.updPin ((o - 0x4100) / 4) fun x => { x with cfg := v &&& 0x3FFB }
  else if 0x8000 ≤ o && o < 0x8200 then
    let j := (o - 0x8000) / 16
    match o % 16 with
    | 0 => s.indCtrl j v
    | 4 => s.indPwm j v
    | 8 => if v.getLsbD 15 then s.shortoffRelease j else s
    | _ => s
  else
    match o with
    | 0x4000 => if s.domOn 37 then s.syncWrite v else s
    | 0x4200 => { s with pio := { s.pio with gpout := putHalf s.pio.gpout false v } }
    | 0x4204 => { s with pio := { s.pio with gpout := putHalf s.pio.gpout true v } }
    | 0x4208 => { s with pio := { s.pio with gpoe := putHalf s.pio.gpoe false v } }
    | 0x420C => { s with pio := { s.pio with gpoe := putHalf s.pio.gpoe true v } }
    | 0x8200 => { s with pio := { s.pio with chg := w1c s.pio.chg v } }
    | _ => s

/-! ## GLB_ (R485 to R487) -/

def State.glbWrite (s : State) (o : Nat) (v : Word) : State :=
  let g := s.glb
  match o with
  | 0x0C => { s with glb := { g with pcisub := v } }
  | 0x40 => if g.boot.getLsbD 31 then s else { s with glb := { g with boot := v &&& 0x80000007 } }
  | 0x44 => { s with glb := { g with rstcause := w1c g.rstcause v } }
  | 0x48 => if v.getLsbD 31 then s.partrst (fld v.toNat 15 0) else s
  | 0x60 => { s with glb := { g with trip := (v >>> 24).truncate 8, hyst := (v >>> 16).truncate 8 } }.therm g.tj
  | _ => if 0x70 ≤ o && o < 0x80 then { s with glb := { g with scratch := Tbl.set 0 g.scratch ((o - 0x70) / 4) v } } else s

/-! ## The whole map (R10, R478) -/

/-- The value `v` reaches the register at a warden address, but for ENGn_CTRL; a write to an unmapped address of a block's window is discarded (R10). -/
def State.regWrite (s : State) (lane : Bool) (a : Nat) (v : Word) : State :=
  if a < 0x4000 then s.glbWrite a v
  else if a < 0x10000 then s.clkWrite (a - 0x4000) v
  else if 0x100000 ≤ a && a < 0x110000 then s.pwrWrite (a - 0x100000) v
  else if 0x200000 ≤ a && a < 0x202000 then s.vltWrite (a - 0x200000) v
  else if 0x300000 ≤ a && a < 0x310000 then s.tileWrite ((a - 0x300000) / 0x1000) (a % 0x1000) v
  else if 0x400000 ≤ a && a < 0x410000 then s.pioWrite (a - 0x400000) v
  else if 0x500000 ≤ a && a < 0x540000 then s.quadWrite ((a - 0x500000) / 0x10000) (a % 0x10000) v
  else if 0x600000 ≤ a && a < 0x608000 then s.queueWrite ((a - 0x600000) / 16) (a % 16) v
  else if 0x700000 ≤ a && a < 0x701000 then s.driveWrite ((a - 0x700000) / 0x40) (a % 0x40) v
  else if 0x701000 ≤ a && a < 0x702000 then s.fltWrite (a - 0x701000) v
  else if 0x800000 ≤ a && a < 0x900000 then s.groupWrite ((a - 0x800000) / 0x10000) (a % 0x10000) v
  else if 0x900000 ≤ a && a < 0x901000 then s.wrdWrite (a - 0x900000) v
  else if 0x910000 ≤ a && a < 0x911000 then s.icuWrite (a - 0x910000) v
  else if 0x920000 ≤ a && a < 0x928000 then s.mbxWrite (a - 0x920000) v
  else if 0x1000000 ≤ a && a < 0x1400000 then s.engWrite lane ((a - 0x1000000) / 0x8000) (a % 0x8000) v
  else s

/-- The warden address of an offset in the ENGn_ window of engine `e` (R47). -/
def engAddr (e o : Nat) : Nat := 0x1000000 + e * 0x8000 + o

end Sys2Proof.Machine
end

