-- ==== Sys2Proof/Machine/MemInstr.lean ====
section
/-!
DEFINITION. Loads, stores and atomics (R46 to R53, R67, R80, R81, R328): what issue checks, where an access goes, and what completes it.
-/

namespace Sys2Proof.Machine

/-! ## Places -/

/-- The places of the parts of an access, up to the first that faults, and the address of that one (R49, R50). -/
def State.locs (s : State) (p : Nat) (k : Acc) : List (Word × Nat) → List (Loc × Nat) × Option Word
  | [] => ([], none)
  | (a, n) :: t =>
    match s.locOf p k a n with
    | none => ([], some a)
    | some l => let r := s.locs p k t; ((l, n) :: r.1, r.2)

/-- The unit that holds a location answers: its domain is powered (R329, R429). -/
def State.locOn (s : State) (l : Loc) : Bool :=
  match l.space with
  | 0 | 1 => s.tileOn (tileOf l.unit)
  | 2 => s.tileOn l.unit
  | 3 => s.domOn (34 + l.off / 2 ^ 32)
  | 7 => s.domOn 36
  | 8 => s.domOn (32 + l.unit / 8)
  | 9 => s.regOn l.off
  | _ => true

/-- A word of instruction RAM is about to change: until its processor refetches, it may give its old content (R57). -/
def State.markStale (s : State) (l : Loc) : State :=
  let w := l.off / 4 * 4
  let mark := fun (t : Tbl (Option Word)) (k : Nat) =>
    if (Tbl.get none t k).isSome then t else Tbl.set none t k (some (BitVec.ofNat 32 (ofLe (s.locBytes { l with off := w } 4))))
  if l.space = 0 then
    (if (s.eng l.unit).run = 2 then s
     else s.updEng l.unit fun g => { g with proc := { g.proc with stale := mark g.proc.stale w } })
  else if l.space = 4 then s.updWarden fun x => { x with proc := { x.proc with stale := mark x.proc.stale (0x11000000 + w) } }
  else s

/-- Bytes reach a memory: a changed instruction word is marked, and a store to scratch may free a place of a drive-error ring (R57, R311). -/
def State.storeBytes (s : State) (l : Loc) (bs : List Byte) : State :=
  let s := (s.markStale l).locPut l bs
  if l.space = 2 then s.each (enginesOf l.unit) fun s e => deFlush 16 s e else s

/-! ## Loads (R46, R49, R50, R81) -/

/-- A loaded number as gd receives it. -/
def extend (size : Nat) (sext : Bool) (n : Nat) : Word :=
  if sext then (BitVec.ofNat (8 * size) n).signExtend 32 else BitVec.ofNat 32 n

/-- A load whose parts are all allowed: through the warden's register port; in the ENGn_ window, once every earlier access has completed; else the
granted access reads at once and its data returns later. A full unit holds it. -/
def State.loadFrom (s : State) (p gd : Nat) (a : Word) (size : Nat) (sext : Bool) (ls : List (Loc × Nat)) : State :=
  let r := s.proc p
  if p = 128 && ls.any fun x => x.1.viaPort then
    (if 16 ≤ r.port.length then s
     else s.setProc p (Proc.retire { r.setBusy gd with port := r.port ++ [{ write := false, parts := ls, addr := a, value := 0, gd := gd, sext := sext }] }))
  else match ls with
  | [] => s
  | (l, _) :: _ =>
    if l.space = 10 then
      (if !r.loads.isEmpty || !r.stores.isEmpty then s
       else
         let v := s.regRead true (engAddr p l.off)
         v.2.writeReg p gd v.1)
    else if 4 ≤ r.loads.length || !s.locOn l then s
    else
      let v := extend size sext (ofLe (ls.flatMap fun x => s.ownBytes p x.1 x.2))
      s.setProc p (Proc.retire { r.setBusy gd with loads := r.loads ++ [{ gd := gd, value := v, loc := l }] })

/-- A load instruction. -/
def State.loadOp (s : State) (p op gd gs : Nat) (imm : Imm) (size : Nat) (sext : Bool) : Res :=
  s.issue p { word := encImm op gd gs imm, uses := [gd, gs] } fun s =>
    let a := effAddr ((s.proc p).reg gs) imm
    let x := s.locs p 0 (parts a size)
    match x.2 with
    | some bad => s.takeException p 0x04 bad
    | none => s.loadFrom p gd a size sext x.1

/-- LB (R41, R46). -/
def execLb (p : Pid) (gd gs : Reg) (imm : Imm) (s : State) : Res := s.loadOp p 0x10 gd gs imm 1 true
/-- LH (R41, R46). -/
def execLh (p : Pid) (gd gs : Reg) (imm : Imm) (s : State) : Res := s.loadOp p 0x11 gd gs imm 2 true
/-- LW (R41, R46). -/
def execLw (p : Pid) (gd gs : Reg) (imm : Imm) (s : State) : Res := s.loadOp p 0x12 gd gs imm 4 false
/-- LBU (R41, R46). -/
def execLbu (p : Pid) (gd gs : Reg) (imm : Imm) (s : State) : Res := s.loadOp p 0x14 gd gs imm 1 false
/-- LHU (R41, R46). -/
def execLhu (p : Pid) (gd gs : Reg) (imm : Imm) (s : State) : Res := s.loadOp p 0x15 gd gs imm 2 false

/-! ## Stores (R46, R49, R50, R53, R67, R80, R81) -/

/-- The parts of a store with the bytes of the value that each takes, lower address first. -/
def storeParts (v : Word) : Nat → List (Loc × Nat) → List Store
  | _, [] => []
  | o, (l, n) :: t => { loc := l, size := n, value := v >>> (8 * o) } :: storeParts v (o + n) t

/-- The parts of a store that are allowed enter: the register port, the ENGn_ window, or the store buffer with room for `need` entries. The answer
is none while the store waits. -/
def State.storeTo (s : State) (p need : Nat) (a v : Word) (ls : List (Loc × Nat)) : Option State :=
  let r := s.proc p
  if p = 128 && ls.any fun x => x.1.viaPort then
    (if 16 ≤ r.port.length then none
     else some (s.setProc p { r with port := r.port ++ [{ write := true, parts := ls, addr := a, value := v, gd := 0, sext := false }] }))
  else match ls with
  | [] => some s
  | (l, _) :: _ =>
    if l.space = 10 then
      (if !r.loads.isEmpty || !r.stores.isEmpty then none else some (s.regWrite true (engAddr p l.off) v))
    else if 8 < r.stores.length + need then none
    else some (s.setProc p { r with stores := r.stores ++ storeParts v 0 ls })

/-- A store instruction: it waits for outstanding HABS (R67); if its second part faults, the first has entered (R50). -/
def State.storeOp (s : State) (p op gd gs : Nat) (imm : Imm) (size : Nat) : Res :=
  s.issue p { word := encImm op gd gs imm, uses := [gd, gs] } fun s =>
    let r := s.proc p
    let a := effAddr (r.reg gs) imm
    let ps := parts a size
    let x := s.locs p 1 ps
    match x.1, x.2 with
    | [], some bad => s.takeException p 0x05 bad
    | ls, bad =>
      if !r.hash.queue.isEmpty then s
      else match s.storeTo p ps.length a (r.reg gd) ls with
        | none => s
        | some t => match bad with | some b => t.takeException p 0x05 b | none => t.updProc p Proc.retire

/-- SB (R41, R46). -/
def execSb (p : Pid) (gd gs : Reg) (imm : Imm) (s : State) : Res := s.storeOp p 0x18 gd gs imm 1
/-- SH (R41, R46). -/
def execSh (p : Pid) (gd gs : Reg) (imm : Imm) (s : State) : Res := s.storeOp p 0x19 gd gs imm 2
/-- SW (R41, R46). -/
def execSw (p : Pid) (gd gs : Reg) (imm : Imm) (s : State) : Res := s.storeOp p 0x1A gd gs imm 4

/-! ## Atomics (R51, R53) -/

/-- An OP-A instruction whose new value is `f old gt gd`: its alignment and region are checked, it waits for every earlier access as a FENCE would,
and the word is read and written as one operation; gd receives the old value when the data returns. -/
def State.atomicOp (s : State) (p func gd gs gt : Nat) (f : Word → Word → Word → Word) : Res :=
  s.issue p { word := encReg 0x1C gd gs gt func, uses := [gd, gs, gt] } fun s =>
    let r := s.proc p
    let a := r.reg gs
    if a.toNat % 4 ≠ 0 then s.takeException p 0x06 a
    else match s.locOf p 3 a 4 with
      | none => s.takeException p 0x07 a
      | some l =>
        if !r.loads.isEmpty || !r.stores.isEmpty || !r.port.isEmpty || !r.hash.queue.isEmpty then s
        else
          let old := BitVec.ofNat 32 (ofLe (s.locBytes l 4))
          let s := s.storeBytes l (leBytes 4 (f old (r.reg gt) (r.reg gd)).toNat)
          s.updProc p fun r => Proc.retire { r.setBusy gd with loads := r.loads ++ [{ gd := gd, value := old, loc := l }] }

/-- ATSWP. -/
def execAtswp (p : Pid) (gd gs gt : Reg) (s : State) : Res := s.atomicOp p 0 gd gs gt fun _ t _ => t
/-- ATADD. -/
def execAtadd (p : Pid) (gd gs gt : Reg) (s : State) : Res := s.atomicOp p 1 gd gs gt fun old t _ => old + t
/-- ATAND. -/
def execAtand (p : Pid) (gd gs gt : Reg) (s : State) : Res := s.atomicOp p 2 gd gs gt fun old t _ => old &&& t
/-- ATOR. -/
def execAtor (p : Pid) (gd gs gt : Reg) (s : State) : Res := s.atomicOp p 3 gd gs gt fun old t _ => old ||| t
/-- ATXOR. -/
def execAtxor (p : Pid) (gd gs gt : Reg) (s : State) : Res := s.atomicOp p 4 gd gs gt fun old t _ => old ^^^ t
/-- ATWRAP: the next index of a ring whose last is gt. -/
def execAtwrap (p : Pid) (gd gs gt : Reg) (s : State) : Res := s.atomicOp p 5 gd gs gt fun old t _ => if t.toNat ≤ old.toNat then 0 else old + 1
/-- ATDSAT: gt taken from the word, never below zero. -/
def execAtdsat (p : Pid) (gd gs gt : Reg) (s : State) : Res := s.atomicOp p 6 gd gs gt fun old t _ => if t.toNat ≤ old.toNat then old - t else 0
/-- ATCAS: gt if the word equals gd on entry. -/
def execAtcas (p : Pid) (gd gs gt : Reg) (s : State) : Res := s.atomicOp p 7 gd gs gt fun old t d => if old = d then t else old

end Sys2Proof.Machine
end

