-- ==== Sys2Proof/Machine/EngineCtl.lean ====
section
/-!
DEFINITION. The control of an engine by the warden (R90 to R94, R319), writes of registers that reach their home (R11), and the completion of loads and
stores (R53, R68, R109, R328 to R330, R481).
-/

namespace Sys2Proof.Machine

/-! ## STEP (R92, R94) -/

/-- The meaning of a decoded Sialven instruction. -/
def runInstr (i : Instr) (s : State) : Res :=
  match i with
  | .add p gd gs gt => execAdd p gd gs gt s
  | .sub p gd gs gt => execSub p gd gs gt s
  | .and p gd gs gt => execAnd p gd gs gt s
  | .or p gd gs gt => execOr p gd gs gt s
  | .xor p gd gs gt => execXor p gd gs gt s
  | .sll p gd gs gt => execSll p gd gs gt s
  | .srl p gd gs gt => execSrl p gd gs gt s
  | .sra p gd gs gt => execSra p gd gs gt s
  | .cmp p gd gs gt => execCmp p gd gs gt s
  | .cmpu p gd gs gt => execCmpu p gd gs gt s
  | .slli p gd gs sh => execSlli p gd gs sh s
  | .srli p gd gs sh => execSrli p gd gs sh s
  | .srai p gd gs sh => execSrai p gd gs sh s
  | .mul p gd gs gt => execMul p gd gs gt s
  | .mulhs p gd gs gt => execMulhs p gd gs gt s
  | .mulhu p gd gs gt => execMulhu p gd gs gt s
  | .macc p gd gs gt => execMacc p gd gs gt s
  | .div p gd gs gt => execDiv p gd gs gt s
  | .divu p gd gs gt => execDivu p gd gs gt s
  | .mod p gd gs gt => execMod p gd gs gt s
  | .modu p gd gs gt => execModu p gd gs gt s
  | .crc32c p gd gs gt size => execCrc32c p gd gs gt size s
  | .bfx p gd gs pos wm1 => execBfx p gd gs pos wm1 s
  | .bfi p gd gs pos wm1 => execBfi p gd gs pos wm1 s
  | .clz p gd gs => execClz p gd gs s
  | .ctz p gd gs => execCtz p gd gs s
  | .popc p gd gs => execPopc p gd gs s
  | .bswap p gd gs => execBswap p gd gs s
  | .rotl p gd gs gt => execRotl p gd gs gt s
  | .rotr p gd gs gt => execRotr p gd gs gt s
  | .andn p gd gs gt => execAndn p gd gs gt s
  | .min p gd gs gt => execMin p gd gs gt s
  | .max p gd gs gt => execMax p gd gs gt s
  | .minu p gd gs gt => execMinu p gd gs gt s
  | .maxu p gd gs gt => execMaxu p gd gs gt s
  | .kload p gd gs ctx _ => kloadIssue p gd gs ctx s
  | .kwait p gd ctx => execKwait p gd ctx s
  | .krel p ctx => execKrel p ctx s
  | .kset p gs ctx sel => execKset p gs ctx sel s
  | .kget p gd ctx sel => execKget p gd ctx sel s
  | .hinit p alg => execHinit p alg s
  | .habs p gs gt => execHabs p gs gt s
  | .hfin p gd => execHfin p gd s
  | .hget p gd idx => execHget p gd idx s
  | .atswp p gd gs gt => execAtswp p gd gs gt s
  | .atadd p gd gs gt => execAtadd p gd gs gt s
  | .atand p gd gs gt => execAtand p gd gs gt s
  | .ator p gd gs gt => execAtor p gd gs gt s
  | .atxor p gd gs gt => execAtxor p gd gs gt s
  | .atwrap p gd gs gt => execAtwrap p gd gs gt s
  | .atdsat p gd gs gt => execAtdsat p gd gs gt s
  | .atcas p gd gs gt => execAtcas p gd gs gt s
  | .setmode p gs => execSetmode p gs s
  | .trap p code => execTrap p code s
  | .eret p => execEret p s
  | .evwait p => execEvwait p s
  | .fence p => execFence p s
  | .flushi p => execFlushi p s
  | .breakpoint p => execBreakpoint p s
  | .lexit p => execLexit p s
  | .addi p gd gs imm => execAddi p gd gs imm s
  | .andi p gd gs imm => execAndi p gd gs imm s
  | .ori p gd gs imm => execOri p gd gs imm s
  | .xori p gd gs imm => execXori p gd gs imm s
  | .orhi p gd gs imm => execOrhi p gd gs imm s
  | .addhi p gd gs imm => execAddhi p gd gs imm s
  | .cmpi p gd gs imm => execCmpi p gd gs imm s
  | .adrw p gd imm => execAdrw p gd imm s
  | .loop p gs len => execLoop p gs len s
  | .loopi p count len => execLoopi p count len s
  | .cmpui p gd gs imm => execCmpui p gd gs imm s
  | .lb p gd gs imm => execLb p gd gs imm s
  | .lh p gd gs imm => execLh p gd gs imm s
  | .lw p gd gs imm => execLw p gd gs imm s
  | .lbu p gd gs imm => execLbu p gd gs imm s
  | .lhu p gd gs imm => execLhu p gd gs imm s
  | .sb p gd gs imm => execSb p gd gs imm s
  | .sh p gd gs imm => execSh p gd gs imm s
  | .sw p gd gs imm => execSw p gd gs imm s
  | .beq p ga gb off => execBeq p ga gb off s
  | .bne p ga gb off => execBne p ga gb off s
  | .blt p ga gb off => execBlt p ga gb off s
  | .bge p ga gb off => execBge p ga gb off s
  | .bltu p ga gb off => execBltu p ga gb off s
  | .bgeu p ga gb off => execBgeu p ga gb off s
  | .j p off => execJ p off s
  | .jal p off => execJal p off s
  | .jalr p gd gs imm => execJalr p gd gs imm s
  | .crd p gd num => execCrd p gd num s
  | .cwr p num gs => execCwr p num gs s
  | _ => .next s

/-- The instruction at the PC of lane processor `e`, fetched and run; an illegal word takes its exception (R40). -/
def State.fetchRun (s : State) (e : Nat) : State :=
  let p : Pid := idx 129 e (by decide)
  let pc := (s.proc e).pc
  if !s.fetchOk e pc then s.takeException e 0x03 pc
  else
    let w := s.instrWord e pc
    match decodeSialven p w.1 with
    | some i => resState (runInstr i w.2) w.2
    | none => w.2.takeException e 0x01 w.1

/-- Instructions of lane processor `e` up to the next boundary that is a halt point: a branch runs with its delay slot, a SETMODE with its shadow
(R92, R94). An instruction that cannot complete is abandoned. -/
def runToHaltPoint : Nat → State → Nat → State
  | 0, s, _ => s
  | n + 1, s, e =>
    let t := s.fetchRun e
    let r := t.proc e
    if (r.delay.isSome || r.shadow.isSome) && t.running e && r ≠ s.proc e then runToHaltPoint n t e else t

/-- ENGn_CTRL.STEP: an engine halted with HALT = 1 runs one instruction from ENGn_HALTPC with an empty fetch buffer, and halts again (R92 to R94). It
takes no interrupt (DESIGN CHOICE, log 80). -/
def State.engineStep (s : State) (e : Nat) : State :=
  let g := s.eng e
  if g.run ≠ 2 || !g.halt || !s.tileOn (tileOf e) then s
  else
    let s := s.updEng e fun g => { g with run := 0, hcause := 0, proc := { g.proc with pc := g.haltpc, stale := [] } }
    let t := runToHaltPoint 4 s e
    t.updEng e fun g => if g.run = 0 then g.halted 1 else g

def execStepEngine (e : EngId) (s : State) : Res := .next (s.engineStep e)

/-! ## Reset, halt and release (R92 to R94, R139, R319) -/

/-- The lane processor can be stopped here: outside a SETMODE shadow. A branch whose delay slot has not completed is abandoned with it (R80, R94). -/
def Proc.atHaltPoint (r : Proc) : Bool := r.shadow.isNone && match r.delay with | some d => d.shadowOf.isNone | none => true

/-- ENGn_CTRL written: RESET, or HALT and then STEP (R92). -/
def State.ctrlWrite (s : State) (e : Nat) (v : Word) : State :=
  if v.getLsbD 2 then s.engineReset e
  else
    let s := s.haltWrite e (v.getLsbD 0)
    if v.getLsbD 1 then s.engineStep e else s

def execEngineReset (e : EngId) (s : State) : Res := .next (if s.engOn e then s.engineReset e else s)
def execHalt (e : EngId) (s : State) : Res := .next (if s.engOn e then s.haltWrite e true else s)
def execEngineRelease (e : EngId) (s : State) : Res := .next (if s.engOn e then s.haltWrite e false else s)

/-- HALT_POINT: a running engine with HALT = 1 reaches a halt point: uncommitted work is abandoned and it becomes HALTED (R93, R94). -/
def execHaltPoint (e : EngId) (s : State) : Res :=
  .next (
    let g := s.eng e
    if s.engOn e && g.run = 0 && g.halt && g.proc.atHaltPoint then s.updEng e fun g => g.halted 1 else s)

/-- ENG_HALT_LATE: an engine is not HALTED 10 µs after HALT = 1 (R319). -/
def execEngHaltLate (e : EngId) (s : State) : Res :=
  .next (
    let g := s.eng e
    if s.engOn e && g.run = 0 && g.halt then s.faultEvent (dieOfTile (tileOf e)) 0x05 e g.proc.epc else s)

def execWdbsetRing (e : EngId) (s : State) : Res := .next (if s.engOn e then s.wdbRing e else s)
def execDeadlineArm (e : EngId) (value : Word) (s : State) : Res := .next (if s.engOn e then s.deadlineHi e value else s)

/-- DEADLINE_REACHED: TIME has reached an armed deadline (R91). -/
def execDeadlineReached (e : EngId) (s : State) : Res :=
  .next (if s.engOn e && (s.eng e).dlArm && (s.eng e).deadline.toNat ≤ s.now then s.updEng e fun g => { g with dlHit := true } else s)

/-! ## Register writes (R11, R329) -/

/-- The warden's write reaches the register at a warden address. -/
def State.regPut (s : State) (a : Nat) (v : Word) : State :=
  if 0x1000000 ≤ a && a < 0x1400000 && a % 0x8000 = 0x020 then s.ctrlWrite ((a - 0x1000000) / 0x8000) v else s.regWrite false a v

/-- REGISTER_WRITE: a write by processor `p` reaches the register at `addr` of the warden map, or for a lane processor at that offset of its own
ENGn_ window. An access to a block whose domain is off is ended by the port (R329). -/
def execRegisterWrite (p : Pid) (addr value : Word) (s : State) : Res :=
  .next (
    let a := addr.toNat
    if p.val ≠ 128 then (if s.tileOn (tileOf p) && a < 0x8000 && a % 4 = 0 then s.regWrite true (engAddr p a) value else s)
    else if !s.warden.up || !s.domOn 36 || !isRegBlock a || isCfgWindow a || a % 4 ≠ 0 then s
    else if s.regOn a then s.regPut a value
    else s.busError { write := true, parts := [(⟨9, 0, a⟩, 4)], addr := addr, value := value, gd := 0, sext := false })


/-! ## Completion of loads and stores -/

/-- The block of a register or memory location, for the order of the register port: each TILEn_, QDn_, QCn_, DRVn_, PGn_ and ENGn_ is one, so that
no access to D0 waits for one to D1 (R34, R328, R480, R493). -/
def Loc.block (l : Loc) : Nat :=
  let a := l.off
  match l.space with
  | 0 | 1 => 256 + l.unit
  | 2 => 512 + l.unit
  | 7 => 8
  | 8 => 48 + l.unit
  | 9 =>
    if a < 0x10000 then 0 else if a < 0x110000 then 1 else if a < 0x202000 then 2
    else if a < 0x310000 then 16 + (a - 0x300000) / 0x1000
    else if a < 0x410000 then 3 else if a < 0x540000 then 40 + (a - 0x500000) / 0x10000
    else if a < 0x608000 then 1024 + (a - 0x600000) / 0x10 else if a < 0x701000 then 4096 + (a - 0x700000) / 0x40 else if a < 0x702000 then 5
    else if a < 0x900000 then 48 + (a - 0x800000) / 0x10000
    else if a < 0x901000 then 6 else if a < 0x911000 then 7 else if a < 0x928000 then 8
    else 128 + (a - 0x1000000) / 0x8000
  | _ => 9

def PortAcc.blocks (x : PortAcc) : List Nat := x.parts.map fun q => q.1.block

/-- The register port's access at place `k`, if it can be performed now: no earlier one to its block waits, and its blocks answer (R328, R329). -/
def State.portReady (s : State) (k : Nat) : Option PortAcc :=
  let l := s.warden.proc.port
  match l[k]? with
  | none => none
  | some x =>
    if (l.take k).any (fun y => y.blocks.any x.blocks.contains) || x.parts.any (fun q => !s.locOn q.1) then none else some x

/-- An uncorrectable error in data of a committed access: a lane engine halts with ECC_FATAL and keeps the scoreboard bit (R109); the warden
restarts (R330). -/
def State.eccFatal (s : State) (p : Nat) : State :=
  if p = 128 then s.wardenRestart 2
  else (s.updEng p fun g => g.halted 3).faultEvent (dieOfTile (tileOf p)) 0x02 p (s.proc p).epc

/-- A corrected single-bit error is counted where the spec counts it: data RAM, and the warden's own memories (R109, R110, R330, R481). -/
def State.eccCount (s : State) (l : Loc) : State :=
  if l.space = 1 then s.updEng l.unit fun g => { g with dsbe := satAdd g.dsbe 1 }
  else if l.space = 4 then s.updWarden fun w => { w with iecc := satAdd w.iecc 1 }
  else if l.space = 5 then s.updWarden fun w => { w with dsbe := satAdd w.dsbe 1 }
  else s

/-- Memories with a check code that an access can find broken: data RAM, scratch, buffer DRAM, and the warden's memories. -/
def Loc.coded (l : Loc) : Bool := 1 ≤ l.space && l.space ≤ 5

/-- The number that a part of a port load reads: a register with the effects of its read, the drive's answer to a configuration read, which is
open, or the bytes of a memory. -/
def State.portRead (s : State) (l : Loc) (n : Nat) : Nat × State :=
  if l.space = 9 then let r := s.regRead false l.off; (r.1.toNat, r.2)
  else if l.space = 8 then
    let r := s.fresh (8 * n)
    (r.1.toNat, r.2.emit (.driveConfig (4 * l.unit + l.off / 0x1000) (l.off % 0x1000) n none))
  else (ofLe (s.locBytes l n), s)

/-- The parts of a port load, lower address first. -/
def State.portReads (s : State) : List (Loc × Nat) → Nat × State
  | [] => (0, s)
  | (l, n) :: t =>
    let r := s.portRead l n
    let q := r.2.portReads t
    (r.1 + 2 ^ (8 * n) * q.1, q.2)

/-- Bytes of a load by its parts. -/
def PortAcc.size (x : PortAcc) : Nat := (x.parts.map Prod.snd).sum

/-- The warden's load at place `k` of the register port returns. -/
def State.portLoad (s : State) (k : Nat) (ecc : Nat) : State :=
  match s.portReady k with
  | none => s
  | some x =>
    if x.write then s
    else
      let s := s.updWarden fun w => { w with proc := { w.proc with port := w.proc.port.eraseIdx k } }
      let r := s.portReads x.parts
      let coded := (x.parts.find? fun q => q.1.coded).map Prod.fst
      let write := fun (s : State) (v : Word) => s.updWarden fun w => { w with proc := (w.proc.setReg x.gd v).clearBusy x.gd }
      match coded with
      | some l =>
        if ecc = 2 then (if l.space = 1 then (write s 0xFFFFFFFF).busError x else s.wardenRestart 2)
        else write (if ecc = 1 then r.2.eccCount l else r.2) (extend x.size x.sext r.1)
      | none => write r.2 (extend x.size x.sext r.1)

/-- LOAD_DATA_RETURN: the data of outstanding load `k` returns, or of the register port's load `k`; `ecc` says whether its check code found no error, a
corrected one, or an uncorrectable one (R68, R109, R328, R330, R481). -/
def execLoadDataReturn (p : Pid) (port : Bool) (k : Fin 16) (ecc : Fin 3) (s : State) : Res :=
  .next (
    if port then (if p.val = 128 then s.portLoad k ecc else s)
    else match (s.proc p).loads[k.val]? with
      | none => s
      | some x =>
        let s := s.updProc p fun r => { r with loads := r.loads.eraseIdx k }
        if ecc.val = 2 && x.loc.coded then s.eccFatal p
        else (if ecc.val = 1 then s.eccCount x.loc else s).updProc p fun r => (r.setReg x.gd x.value).clearBusy x.gd)

/-- HABS_COMPLETE: the oldest outstanding absorb finishes reading its range into the hash, engine halted or not (R67, R94); the words are those of
this moment (DESIGN CHOICE, log 78). `ecc` says what its reads' check codes found, as for a load (R109, R330). -/
def execHabsComplete (p : Pid) (s : State) (ecc : Fin 3 := 0) : Res :=
  .next (
    match (s.proc p).hash.queue with
    | [] => s
    | a :: q =>
      if ecc.val = 2 then s.eccFatal p
      else (if ecc.val = 1 then s.eccCount a.loc else s).updProc p fun r =>
        { r with hash := { r.hash with queue := q, data := r.hash.data ++ s.ownBytes p a.loc a.len } })

/-- A part of a port store is performed. -/
def State.portWrite (s : State) (l : Loc) (n : Nat) (v : Word) : State :=
  if l.space = 9 then s.regPut l.off v
  else if l.space = 8 then s.emit (.driveConfig (4 * l.unit + l.off / 0x1000) (l.off % 0x1000) n (some v))
  else s.storeBytes l (leBytes n v.toNat)

/-- Stores to one word become visible in order (R53). -/
def Store.word (x : Store) : Nat × Nat × Nat := (x.loc.space, x.loc.unit, x.loc.off / 4)

/-- STORE_PERFORM: buffered store `k` is performed, or the register port's store `k` (R53, R81, R328). -/
def execStorePerform (p : Pid) (port : Bool) (k : Fin 16) (s : State) : Res :=
  .next (
    if port then
      (if p.val ≠ 128 then s
       else match s.portReady k with
         | none => s
         | some x =>
           if !x.write then s
           else
             let s := s.updWarden fun w => { w with proc := { w.proc with port := w.proc.port.eraseIdx k } }
             (storeParts x.value 0 x.parts).foldl (fun s y => s.portWrite y.loc y.size y.value) s)
    else match (s.proc p).stores[k.val]? with
      | none => s
      | some x =>
        if ((s.proc p).stores.take k.val).any (fun y => y.word = x.word) || !s.locOn x.loc then s
        else (s.updProc p fun r => { r with stores := r.stores.eraseIdx k.val }).storeBytes x.loc (leBytes x.size x.value.toNat))

end Sys2Proof.Machine
end

