-- ==== Sys2Proof/Machine/Pins.lean ====
section
/-!
DEFINITION. Events at the part's slow pins: SMBus errors and SPI NOR accesses (R336), and the test access port (R495).
-/

namespace Sys2Proof.Machine

/-- SMBUS_BUS_ERROR: a bus error or lost arbitration on SMBus k. -/
def execSmbusBusError (k : Fin 2) (s : State) : Res := .next (s.raise (145 + k))

/-- SPI_ACCESS_COMPLETE. -/
def execSpiAccessComplete (s : State) : Res := .next (s.raise 147)

/-- TAP_INSTRUCTION: 0 BYPASS, 1 IDCODE, 2 any other, which acts as BYPASS unless a test mode is open; what it does then is open. -/
def execTapInstruction (kind : Fin 3) (s : State) : Res :=
  .next (
    if kind.val = 1 then s.emit (.tap 0x121289A7)
    else if kind.val = 2 && s.vault.testOpen then let v := s.fresh 32; v.2.emit (.tap v.1)
    else s.emit (.tap 0))

end Sys2Proof.Machine
end

