-- ==== Sys2Proof/Machine/Dispatch.lean ====
section
/-!
DEFINITION. The one match from a command to its meaning; each arm is one direct call.
-/

namespace Sys2Proof.Machine

def exec (i : Instr) (s : State) : Host.Outcome State Fault Refusal :=
  match i with
  | .addi p gd gs imm => Sys2Proof.Machine.execAddi p gd gs imm s
  | .andi p gd gs imm => Sys2Proof.Machine.execAndi p gd gs imm s
  | .ori p gd gs imm => Sys2Proof.Machine.execOri p gd gs imm s
  | .xori p gd gs imm => Sys2Proof.Machine.execXori p gd gs imm s
  | .orhi p gd gs imm => Sys2Proof.Machine.execOrhi p gd gs imm s
  | .addhi p gd gs imm => Sys2Proof.Machine.execAddhi p gd gs imm s
  | .cmpi p gd gs imm => Sys2Proof.Machine.execCmpi p gd gs imm s
  | .cmpui p gd gs imm => Sys2Proof.Machine.execCmpui p gd gs imm s
  | .adrw p gd imm => Sys2Proof.Machine.execAdrw p gd imm s
  | .add p gd gs gt => Sys2Proof.Machine.execAdd p gd gs gt s
  | .sub p gd gs gt => Sys2Proof.Machine.execSub p gd gs gt s
  | .and p gd gs gt => Sys2Proof.Machine.execAnd p gd gs gt s
  | .or p gd gs gt => Sys2Proof.Machine.execOr p gd gs gt s
  | .xor p gd gs gt => Sys2Proof.Machine.execXor p gd gs gt s
  | .sll p gd gs gt => Sys2Proof.Machine.execSll p gd gs gt s
  | .srl p gd gs gt => Sys2Proof.Machine.execSrl p gd gs gt s
  | .sra p gd gs gt => Sys2Proof.Machine.execSra p gd gs gt s
  | .cmp p gd gs gt => Sys2Proof.Machine.execCmp p gd gs gt s
  | .cmpu p gd gs gt => Sys2Proof.Machine.execCmpu p gd gs gt s
  | .slli p gd gs sh => Sys2Proof.Machine.execSlli p gd gs sh s
  | .srli p gd gs sh => Sys2Proof.Machine.execSrli p gd gs sh s
  | .srai p gd gs sh => Sys2Proof.Machine.execSrai p gd gs sh s
  | .mul p gd gs gt => Sys2Proof.Machine.execMul p gd gs gt s
  | .mulhs p gd gs gt => Sys2Proof.Machine.execMulhs p gd gs gt s
  | .mulhu p gd gs gt => Sys2Proof.Machine.execMulhu p gd gs gt s
  | .macc p gd gs gt => Sys2Proof.Machine.execMacc p gd gs gt s
  | .div p gd gs gt => Sys2Proof.Machine.execDiv p gd gs gt s
  | .divu p gd gs gt => Sys2Proof.Machine.execDivu p gd gs gt s
  | .mod p gd gs gt => Sys2Proof.Machine.execMod p gd gs gt s
  | .modu p gd gs gt => Sys2Proof.Machine.execModu p gd gs gt s
  | .clz p gd gs => Sys2Proof.Machine.execClz p gd gs s
  | .ctz p gd gs => Sys2Proof.Machine.execCtz p gd gs s
  | .popc p gd gs => Sys2Proof.Machine.execPopc p gd gs s
  | .bswap p gd gs => Sys2Proof.Machine.execBswap p gd gs s
  | .rotl p gd gs gt => Sys2Proof.Machine.execRotl p gd gs gt s
  | .rotr p gd gs gt => Sys2Proof.Machine.execRotr p gd gs gt s
  | .andn p gd gs gt => Sys2Proof.Machine.execAndn p gd gs gt s
  | .min p gd gs gt => Sys2Proof.Machine.execMin p gd gs gt s
  | .max p gd gs gt => Sys2Proof.Machine.execMax p gd gs gt s
  | .minu p gd gs gt => Sys2Proof.Machine.execMinu p gd gs gt s
  | .maxu p gd gs gt => Sys2Proof.Machine.execMaxu p gd gs gt s
  | .crc32c p gd gs gt size => Sys2Proof.Machine.execCrc32c p gd gs gt size s
  | .bfx p gd gs pos wm1 => Sys2Proof.Machine.execBfx p gd gs pos wm1 s
  | .bfi p gd gs pos wm1 => Sys2Proof.Machine.execBfi p gd gs pos wm1 s
  | .lb p gd gs imm => Sys2Proof.Machine.execLb p gd gs imm s
  | .lh p gd gs imm => Sys2Proof.Machine.execLh p gd gs imm s
  | .lw p gd gs imm => Sys2Proof.Machine.execLw p gd gs imm s
  | .lbu p gd gs imm => Sys2Proof.Machine.execLbu p gd gs imm s
  | .lhu p gd gs imm => Sys2Proof.Machine.execLhu p gd gs imm s
  | .sb p gd gs imm => Sys2Proof.Machine.execSb p gd gs imm s
  | .sh p gd gs imm => Sys2Proof.Machine.execSh p gd gs imm s
  | .sw p gd gs imm => Sys2Proof.Machine.execSw p gd gs imm s
  | .atswp p gd gs gt => Sys2Proof.Machine.execAtswp p gd gs gt s
  | .atadd p gd gs gt => Sys2Proof.Machine.execAtadd p gd gs gt s
  | .atand p gd gs gt => Sys2Proof.Machine.execAtand p gd gs gt s
  | .ator p gd gs gt => Sys2Proof.Machine.execAtor p gd gs gt s
  | .atxor p gd gs gt => Sys2Proof.Machine.execAtxor p gd gs gt s
  | .atwrap p gd gs gt => Sys2Proof.Machine.execAtwrap p gd gs gt s
  | .atdsat p gd gs gt => Sys2Proof.Machine.execAtdsat p gd gs gt s
  | .atcas p gd gs gt => Sys2Proof.Machine.execAtcas p gd gs gt s
  | .beq p ga gb off => Sys2Proof.Machine.execBeq p ga gb off s
  | .bne p ga gb off => Sys2Proof.Machine.execBne p ga gb off s
  | .blt p ga gb off => Sys2Proof.Machine.execBlt p ga gb off s
  | .bge p ga gb off => Sys2Proof.Machine.execBge p ga gb off s
  | .bltu p ga gb off => Sys2Proof.Machine.execBltu p ga gb off s
  | .bgeu p ga gb off => Sys2Proof.Machine.execBgeu p ga gb off s
  | .j p off => Sys2Proof.Machine.execJ p off s
  | .jal p off => Sys2Proof.Machine.execJal p off s
  | .jalr p gd gs imm => Sys2Proof.Machine.execJalr p gd gs imm s
  | .crd p gd num => Sys2Proof.Machine.execCrd p gd num s
  | .cwr p num gs => Sys2Proof.Machine.execCwr p num gs s
  | .loop p gs len => Sys2Proof.Machine.execLoop p gs len s
  | .loopi p count len => Sys2Proof.Machine.execLoopi p count len s
  | .lexit p => Sys2Proof.Machine.execLexit p s
  | .kload p gd gs ctx rival => Sys2Proof.Machine.execKload p gd gs ctx s rival
  | .kwait p gd ctx => Sys2Proof.Machine.execKwait p gd ctx s
  | .krel p ctx => Sys2Proof.Machine.execKrel p ctx s
  | .kset p gs ctx sel => Sys2Proof.Machine.execKset p gs ctx sel s
  | .kget p gd ctx sel => Sys2Proof.Machine.execKget p gd ctx sel s
  | .hinit p alg => Sys2Proof.Machine.execHinit p alg s
  | .habs p gs gt => Sys2Proof.Machine.execHabs p gs gt s
  | .hfin p gd => Sys2Proof.Machine.execHfin p gd s
  | .hget p gd idx => Sys2Proof.Machine.execHget p gd idx s
  | .setmode p gs => Sys2Proof.Machine.execSetmode p gs s
  | .eret p => Sys2Proof.Machine.execEret p s
  | .trap p code => Sys2Proof.Machine.execTrap p code s
  | .evwait p => Sys2Proof.Machine.execEvwait p s
  | .fence p => Sys2Proof.Machine.execFence p s
  | .flushi p => Sys2Proof.Machine.execFlushi p s
  | .breakpoint p => Sys2Proof.Machine.execBreakpoint p s
  | .loadDataReturn p port k ecc => Sys2Proof.Machine.execLoadDataReturn p port k ecc s
  | .storePerform p port k => Sys2Proof.Machine.execStorePerform p port k s
  | .kloadResolve e ctx => Sys2Proof.Machine.execKloadResolve e ctx s
  | .habsComplete p ecc => Sys2Proof.Machine.execHabsComplete p s ecc
  | .evwaitResume p => Sys2Proof.Machine.execEvwaitResume p s
  | .interruptAccept p => Sys2Proof.Machine.execInterruptAccept p s
  | .engineReset e => Sys2Proof.Machine.execEngineReset e s
  | .stepEngine e => Sys2Proof.Machine.execStepEngine e s
  | .halt e => Sys2Proof.Machine.execHalt e s
  | .engineRelease e => Sys2Proof.Machine.execEngineRelease e s
  | .haltPoint e => Sys2Proof.Machine.execHaltPoint e s
  | .engHaltLate e => Sys2Proof.Machine.execEngHaltLate e s
  | .wdbsetRing e => Sys2Proof.Machine.execWdbsetRing e s
  | .deadlineArm e value => Sys2Proof.Machine.execDeadlineArm e value s
  | .deadlineReached e => Sys2Proof.Machine.execDeadlineReached e s
  | .dmgo e => Sys2Proof.Machine.execDmgo e s
  | .dmrel e slot => Sys2Proof.Machine.execDmrel e slot s
  | .dmdoneRead e => Sys2Proof.Machine.execDmdoneRead e s
  | .cutestRun e => Sys2Proof.Machine.execCutestRun e s
  | .selftestEnd e result => Sys2Proof.Machine.execSelftestEnd e result s
  | .cuStageTimeout e => Sys2Proof.Machine.execCuStageTimeout e s
  | .tagPassComplete e slot lba data err => Sys2Proof.Machine.execTagPassComplete e slot lba data err s
  | .hostDataReturn e slot offset data err => Sys2Proof.Machine.execHostDataReturn e slot offset data err s
  | .driveMemRead drive addr len err => Sys2Proof.Machine.execDriveMemRead drive addr len err s
  | .driveMemWrite drive addr data err => Sys2Proof.Machine.execDriveMemWrite drive addr data s err
  | .keyFillComplete t slot err => Sys2Proof.Machine.execKeyFillComplete t slot err s
  | .evict t => Sys2Proof.Machine.execEvict t s
  | .keyWaitGrant t => Sys2Proof.Machine.execKeyWaitGrant t s
  | .keyDelivery t err => Sys2Proof.Machine.execKeyDelivery t s err
  | .purgeLine => Sys2Proof.Machine.execPurgeLine s
  | .kcpurgeGo t scope key done => Sys2Proof.Machine.execKcpurgeGo t scope key done s
  | .kcpinPin t slot gen => Sys2Proof.Machine.execKcpinPin t slot gen s
  | .kcpinUnpin t slot => Sys2Proof.Machine.execKcpinUnpin t slot s
  | .kcctrlWbflush t => Sys2Proof.Machine.execKcctrlWbflush t s
  | .writebackItem t => Sys2Proof.Machine.execWritebackItem t s
  | .deltaAgeExpiry t slot => Sys2Proof.Machine.execDeltaAgeExpiry t slot s
  | .writebackPromote t => Sys2Proof.Machine.execWritebackPromote t s
  | .spreq e value rival => Sys2Proof.Machine.execSpreq e value s rival
  | .spillGrant t => Sys2Proof.Machine.execSpillGrant t s
  | .spgntRead e => Sys2Proof.Machine.execSpgntRead e s
  | .spret e value => Sys2Proof.Machine.execSpret e value s
  | .cmdpop e => Sys2Proof.Machine.execCmdpop e s
  | .cmddefer e value => Sys2Proof.Machine.execCmddefer e value s
  | .cplpost e value => Sys2Proof.Machine.execCplpost e value s
  | .slotget e => Sys2Proof.Machine.execSlotget e s
  | .slotcls e value => Sys2Proof.Machine.execSlotcls e value s
  | .dcqpop e => Sys2Proof.Machine.execDcqpop e s
  | .moltpop e => Sys2Proof.Machine.execMoltpop e s
  | .moltpostClaim e m => Sys2Proof.Machine.execMoltpostClaim e m s
  | .moltpostFingerprint e m fp => Sys2Proof.Machine.execMoltpostFingerprint e m fp s
  | .moltpostDone e m => Sys2Proof.Machine.execMoltpostDone e m s
  | .moltpostResolvedNew e m => Sys2Proof.Machine.execMoltpostResolvedNew e m s
  | .moltpostResolvedOld e m => Sys2Proof.Machine.execMoltpostResolvedOld e m s
  | .moltpostFailed e m => Sys2Proof.Machine.execMoltpostFailed e m s
  | .moltRetryTimer m => Sys2Proof.Machine.execMoltRetryTimer m s
  | .moltAgingPromote m => Sys2Proof.Machine.execMoltAgingPromote m s
  | .sqDoorbell f index value => Sys2Proof.Machine.execSqDoorbell f index value s
  | .sqEntryFetch q sqe err => Sys2Proof.Machine.execSqEntryFetch q sqe err s
  | .spillService q err => Sys2Proof.Machine.execSpillService q s err
  | .gateClose q m => Sys2Proof.Machine.execGateClose q m s
  | .gateOpen q m => Sys2Proof.Machine.execGateOpen q m s
  | .gateDrained q m => Sys2Proof.Machine.execGateDrained q m s
  | .gateDrainTimeout q m => Sys2Proof.Machine.execGateDrainTimeout q m s
  | .admidxWr q f => Sys2Proof.Machine.execAdmidxWr q f s
  | .admidxRd q f => Sys2Proof.Machine.execAdmidxRd q f s
  | .ledgerCopy q => Sys2Proof.Machine.execLedgerCopy q s
  | .cqFullTimeout f => Sys2Proof.Machine.execCqFullTimeout f s
  | .deleteIoSq f => Sys2Proof.Machine.execDeleteIoSq f s
  | .createIoSq f => Sys2Proof.Machine.execCreateIoSq f s
  | .getLogPage f => Sys2Proof.Machine.execGetLogPage f s
  | .deleteIoCq f => Sys2Proof.Machine.execDeleteIoCq f s
  | .createIoCq f => Sys2Proof.Machine.execCreateIoCq f s
  | .nvmeIdentify f => Sys2Proof.Machine.execNvmeIdentify f s
  | .abort f => Sys2Proof.Machine.execAbort f s
  | .setFeatures f data => Sys2Proof.Machine.execSetFeatures f data s
  | .getFeatures f => Sys2Proof.Machine.execGetFeatures f s
  | .asyncEventRequest f => Sys2Proof.Machine.execAsyncEventRequest f s
  | .formatNvm f late => Sys2Proof.Machine.execFormatNvm f late s
  | .sanitize f late => Sys2Proof.Machine.execSanitize f late s
  | .flush e slot => Sys2Proof.Machine.execFlush e slot s
  | .write e slot => Sys2Proof.Machine.execWrite e slot s
  | .read e slot => Sys2Proof.Machine.execRead e slot s
  | .datasetManagement e slot ranges => Sys2Proof.Machine.execDatasetManagement e slot ranges s
  | .ccEnable f asqs acqs asq acq => Sys2Proof.Machine.execCcEnable f asqs acqs asq acq s
  | .controllerReset f => Sys2Proof.Machine.execControllerReset f s
  | .functionLevelReset f => Sys2Proof.Machine.execFunctionLevelReset f s
  | .vfEnableChange u enable num => Sys2Proof.Machine.execVfEnableChange u enable num s
  | .inboundTlp port linkB tlp => Sys2Proof.Machine.execInboundTlp port linkB tlp s
  | .completionTimeout req => Sys2Proof.Machine.execCompletionTimeout req s
  | .l1Entry link sub latency => Sys2Proof.Machine.execL1Entry link sub s latency
  | .l1Exit link => Sys2Proof.Machine.execL1Exit link s
  | .d3hotEntry f => Sys2Proof.Machine.execD3hotEntry f s
  | .d0Return f => Sys2Proof.Machine.execD0Return f s
  | .pmeTurnOff u => Sys2Proof.Machine.execPmeTurnOff u s
  | .perstUpstream u assert => Sys2Proof.Machine.execPerstUpstream u assert s
  | .hotReset u => Sys2Proof.Machine.execHotReset u s
  | .dlDown u => Sys2Proof.Machine.execDlDown u s
  | .coalesceTimerExpiry f v => Sys2Proof.Machine.execCoalesceTimerExpiry f v s
  | .msixUnmask f v => Sys2Proof.Machine.execMsixUnmask f v s
  | .refclkLoss oot => Sys2Proof.Machine.execRefclkLoss oot s
  | .refclkQualified b => Sys2Proof.Machine.execRefclkQualified b s
  | .relockComplete => Sys2Proof.Machine.execRelockComplete s
  | .clkForce => Sys2Proof.Machine.execClkForce s
  | .slotEnable g k en => Sys2Proof.Machine.execSlotEnable g k en s
  | .retrain g k => Sys2Proof.Machine.execRetrain g k s
  | .perstDownstream g k on => Sys2Proof.Machine.execPerstDownstream g k on s
  | .driveLinkUp drive rate width cto => Sys2Proof.Machine.execDriveLinkUp drive s rate width cto
  | .driveReady drive ident fail => Sys2Proof.Machine.execDriveReady drive ident fail s
  | .driveAdminPoll drive kind e slot => Sys2Proof.Machine.execDriveAdminPoll drive kind e slot s
  | .driveCompletion drive sqid sqhd cid dw0 sct sc dnr beyond cq => Sys2Proof.Machine.execDriveCompletion drive sqid sqhd cid dw0 sct sc dnr beyond s cq
  | .driveInterruptLanding drive t data => Sys2Proof.Machine.execDriveInterruptLanding drive t data s
  | .shortTransferCheck e slot => Sys2Proof.Machine.execShortTransferCheck e slot s
  | .driveCmdTimeout e slot => Sys2Proof.Machine.execDriveCmdTimeout e slot s
  | .driveAbortTimeout e slot => Sys2Proof.Machine.execDriveAbortTimeout e slot s
  | .cstsPoll drive cfs => Sys2Proof.Machine.execCstsPoll drive cfs s
  | .driveResetComplete drive ok => Sys2Proof.Machine.execDriveResetComplete drive ok s
  | .drvnQuar drive => Sys2Proof.Machine.execDrvnQuar drive s
  | .drvnRelease drive => Sys2Proof.Machine.execDrvnRelease drive s
  | .driveLinkDown drive => Sys2Proof.Machine.execDriveLinkDown drive s
  | .dielinkDown => Sys2Proof.Machine.execDielinkDown s
  | .dielinkRetrain ok => Sys2Proof.Machine.execDielinkRetrain ok s
  | .faultEventRead die => Sys2Proof.Machine.execFaultEventRead die s
  | .recoveryDrainDone entry fails code => Sys2Proof.Machine.execRecoveryDrainDone entry fails code s
  | .queueFlush q => Sys2Proof.Machine.execQueueFlush q s
  | .queueEnable q en => Sys2Proof.Machine.execQueueEnable q en s
  | .queueMiddleBurst f up err => Sys2Proof.Machine.execQueueMiddleBurst f up err s
  | .regAccessTimeout index => Sys2Proof.Machine.execRegAccessTimeout index s
  | .croak seq => Sys2Proof.Machine.execCroak seq s
  | .croakMiss => Sys2Proof.Machine.execCroakMiss s
  | .icuSwset value => Sys2Proof.Machine.execIcuSwset value s
  | .mbxDoorbell p => Sys2Proof.Machine.execMbxDoorbell p s
  | .mbxHdataAccess p write => Sys2Proof.Machine.execMbxHdataAccess p write s
  | .mbxAccept p => Sys2Proof.Machine.execMbxAccept p s
  | .mbxDone p => Sys2Proof.Machine.execMbxDone p s
  | .mbxPageReset p => Sys2Proof.Machine.execMbxPageReset p s
  | .mctpMessage k inner => Sys2Proof.Machine.execMctpMessage k inner s
  | .mctpAssemblyTimeout k src tag => Sys2Proof.Machine.execMctpAssemblyTimeout k src tag s
  | .spdmRequest at_ kind msg => Sys2Proof.Machine.execSpdmRequest at_ kind msg s
  | .identify p => Sys2Proof.Machine.execIdentify p s
  | .status p => Sys2Proof.Machine.execStatus p s
  | .attest p nonce => Sys2Proof.Machine.execAttest p nonce s
  | .certRead p slot off len => Sys2Proof.Machine.execCertRead p slot off len s
  | .importKeyGet p => Sys2Proof.Machine.execImportKeyGet p s
  | .nonceGet p => Sys2Proof.Machine.execNonceGet p s
  | .keyImport p nsid band mode target nonce ct sealed spare => Sys2Proof.Machine.execKeyImport p nsid band mode target nonce ct sealed spare s
  | .keyGenerate p nsid band mode target spare => Sys2Proof.Machine.execKeyGenerate p nsid band mode target spare s
  | .eraseBand p band f nsid late => Sys2Proof.Machine.execEraseBand p band f nsid late s
  | .eraseNamespace p f nsid late => Sys2Proof.Machine.execEraseNamespace p f nsid late s
  | .eraseController p f late => Sys2Proof.Machine.execEraseController p f late s
  | .eraseDevice p => Sys2Proof.Machine.execEraseDevice p s
  | .erasePurgeEscalation index => Sys2Proof.Machine.execErasePurgeEscalation index s
  | .ledgerRead p f => Sys2Proof.Machine.execLedgerRead p f s
  | .rateSet p f gRate gBurst vRate vBurst => Sys2Proof.Machine.execRateSet p f gRate gBurst vRate vBurst s
  | .moltStart p nsid band => Sys2Proof.Machine.execMoltStart p nsid band s
  | .moltPause p m => Sys2Proof.Machine.execMoltPause p m s
  | .moltResume p m => Sys2Proof.Machine.execMoltResume p m s
  | .moltCancel p m => Sys2Proof.Machine.execMoltCancel p m s
  | .moltStatus p m => Sys2Proof.Machine.execMoltStatus p m s
  | .tenantSet p f commit elastic quota lat home => Sys2Proof.Machine.execTenantSet p f commit elastic quota lat home s
  | .tenantDelete p f => Sys2Proof.Machine.execTenantDelete p f s
  | .nsCreate p nsze lbads nbands => Sys2Proof.Machine.execNsCreate p nsze lbads nbands s
  | .nsExtents p nsx first recs commit => Sys2Proof.Machine.execNsExtents p nsx first recs commit s
  | .nsBands p nsx starts => Sys2Proof.Machine.execNsBands p nsx starts s
  | .nsAttach p f nsid nsx alt => Sys2Proof.Machine.execNsAttach p f nsid nsx alt s
  | .nsDetach p f nsid nsx => Sys2Proof.Machine.execNsDetach p f nsid nsx s
  | .nsDelete p nsx => Sys2Proof.Machine.execNsDelete p nsx s
  | .railCommit p t mv => Sys2Proof.Machine.execRailCommit p t mv s
  | .ideRequire p who stream => Sys2Proof.Machine.execIdeRequire p who stream s
  | .groupMode p g value => Sys2Proof.Machine.execGroupMode p g value s
  | .driveAssign p d => Sys2Proof.Machine.execDriveAssign p d s
  | .driveRelease p d => Sys2Proof.Machine.execDriveRelease p d s
  | .driveReset p d => Sys2Proof.Machine.execDriveReset p d s
  | .driveStatus p d => Sys2Proof.Machine.execDriveStatus p d s
  | .faultRead p => Sys2Proof.Machine.execFaultRead p s
  | .faultClear p level index => Sys2Proof.Machine.execFaultClear p level index s
  | .powerStateActive p flags rsv => Sys2Proof.Machine.execPowerStateActive p flags rsv s
  | .powerStateBasking p flags rsv stop => Sys2Proof.Machine.execPowerStateBasking p flags rsv stop s
  | .powerStateBrumation p flags rsv stop => Sys2Proof.Machine.execPowerStateBrumation p flags rsv stop s
  | .capsuleCapture p => Sys2Proof.Machine.execCapsuleCapture p s
  | .capsuleRead p off len => Sys2Proof.Machine.execCapsuleRead p off len s
  | .claim p cls first count label => Sys2Proof.Machine.execClaim p cls first count label s
  | .release p cls first count => Sys2Proof.Machine.execRelease p cls first count s
  | .owners p cls => Sys2Proof.Machine.execOwners p cls s
  | .fwStatus p => Sys2Proof.Machine.execFwStatus p s
  | .fwBegin p ok => Sys2Proof.Machine.execFwBegin p ok s
  | .fwWrite p off data ok => Sys2Proof.Machine.execFwWrite p off data ok s
  | .fwVerify p => Sys2Proof.Machine.execFwVerify p s
  | .fwActivate p => Sys2Proof.Machine.execFwActivate p s
  | .fwInvalidate p ok => Sys2Proof.Machine.execFwInvalidate p ok s
  | .configRead p off len => Sys2Proof.Machine.execConfigRead p off len s
  | .configStage p off data => Sys2Proof.Machine.execConfigStage p off data s
  | .configCommit p ok => Sys2Proof.Machine.execConfigCommit p ok s
  | .testChallenge p => Sys2Proof.Machine.execTestChallenge p s
  | .testStage p off data => Sys2Proof.Machine.execTestStage p off data s
  | .testUnlock p => Sys2Proof.Machine.execTestUnlock p s
  | .testChallengeExpiry => Sys2Proof.Machine.execTestChallengeExpiry s
  | .partReset p => Sys2Proof.Machine.execPartReset p s
  | .storeAdopt p base => Sys2Proof.Machine.execStoreAdopt p base s
  | .custodyStatus p => Sys2Proof.Machine.execCustodyStatus p s
  | .custodyInit p m n => Sys2Proof.Machine.execCustodyInit p m n s
  | .shareIssue p index c start key store => Sys2Proof.Machine.execShareIssue p index c start key store s
  | .shareRotate p => Sys2Proof.Machine.execShareRotate p s
  | .restoreBegin p => Sys2Proof.Machine.execRestoreBegin p s
  | .restoreAdd p index c start select key release => Sys2Proof.Machine.execRestoreAdd p index c start select key release s
  | .restoreAbort p => Sys2Proof.Machine.execRestoreAbort p s
  | .tamperAck p noisy => Sys2Proof.Machine.execTamperAck p noisy s
  | .wakeConfig p pin en pol level => Sys2Proof.Machine.execWakeConfig p pin en pol level s
  | .vledgerRead p off len => Sys2Proof.Machine.execVledgerRead p off len s
  | .deviceEraseStatus p => Sys2Proof.Machine.execDeviceEraseStatus p s
  | .eraseregRegister => Sys2Proof.Machine.execEraseregRegister s
  | .eraseregWithdraw slot => Sys2Proof.Machine.execEraseregWithdraw slot s
  | .eraseBackstop slot => Sys2Proof.Machine.execEraseBackstop slot s
  | .vltNonce f => Sys2Proof.Machine.execVltNonce f s
  | .vltImport f mode slot gen nsx band alt aad ct sealed => Sys2Proof.Machine.execVltImport f mode slot gen nsx band alt aad ct sealed s
  | .vltGenerate f mode slot gen nsx band alt => Sys2Proof.Machine.execVltGenerate f mode slot gen nsx band alt s
  | .vltSign slot digest => Sys2Proof.Machine.execVltSign slot digest s
  | .vltDeviceErase => Sys2Proof.Machine.execVltDeviceErase s
  | .vltSlotmapBump => Sys2Proof.Machine.execVltSlotmapBump s
  | .vltCustodyInit m n => Sys2Proof.Machine.execVltCustodyInit m n s
  | .vltShareRotate => Sys2Proof.Machine.execVltShareRotate s
  | .vltShareOut index card => Sys2Proof.Machine.execVltShareOut index card s
  | .vltRestoreBegin => Sys2Proof.Machine.execVltRestoreBegin s
  | .vltChallenge index => Sys2Proof.Machine.execVltChallenge index s
  | .vltShareIn index card blob => Sys2Proof.Machine.execVltShareIn index card blob s
  | .vltRestoreAbort => Sys2Proof.Machine.execVltRestoreAbort s
  | .vltTamperAck noisy => Sys2Proof.Machine.execVltTamperAck noisy s
  | .vltWardenReset => Sys2Proof.Machine.execVltWardenReset s
  | .vltTestUnlock token => Sys2Proof.Machine.execVltTestUnlock token s
  | .ledgerDataAccess write => Sys2Proof.Machine.execLedgerDataAccess write s
  | .tamperTrip sensors first => Sys2Proof.Machine.execTamperTrip sensors first s
  | .vholdGlitchArm => Sys2Proof.Machine.execVholdGlitchArm s
  | .brownout => Sys2Proof.Machine.execBrownout s
  | .brownoutRecovery => Sys2Proof.Machine.execBrownoutRecovery s
  | .vholdLow mv => Sys2Proof.Machine.execVholdLow mv s
  | .vaultCoreStart lost pufFail noiseOk bad => Sys2Proof.Machine.execVaultCoreStart lost pufFail noiseOk bad s
  | .wake first mask levels => Sys2Proof.Machine.execWake first mask levels s
  | .nonceExpiry f => Sys2Proof.Machine.execNonceExpiry f s
  | .restoreTimeout => Sys2Proof.Machine.execRestoreTimeout s
  | .powerUp mv iin => Sys2Proof.Machine.execPowerUp mv iin s
  | .partRstPin => Sys2Proof.Machine.execPartRstPin s
  | .partrst key => Sys2Proof.Machine.execPartrst key s
  | .wardenBoot norOk cfgOk => Sys2Proof.Machine.execWardenBoot norOk cfgOk s
  | .storeLoad base => Sys2Proof.Machine.execStoreLoad base s
  | .tailDropEntry mv iin => Sys2Proof.Machine.execTailDropEntry mv iin s
  | .tailDropExit mv iin volts => Sys2Proof.Machine.execTailDropExit mv iin volts s
  | .vinCollapse mv iin => Sys2Proof.Machine.execVinCollapse mv iin s
  | .thermalClip tj => Sys2Proof.Machine.execThermalClip tj s
  | .thermalClipEnd tj volts => Sys2Proof.Machine.execThermalClipEnd tj volts s
  | .thermalShutdown tj => Sys2Proof.Machine.execThermalShutdown tj s
  | .thermThreshold tj => Sys2Proof.Machine.execThermThreshold tj s
  | .domreqWrite hi value => Sys2Proof.Machine.execDomreqWrite hi value s
  | .domainSwitchComplete index => Sys2Proof.Machine.execDomainSwitchComplete index s
  | .railTargetWrite t target mv => Sys2Proof.Machine.execRailTargetWrite t target mv s
  | .railSettled t mv => Sys2Proof.Machine.execRailSettled t mv s
  | .budgetWrite value => Sys2Proof.Machine.execBudgetWrite value s
  | .brumate => Sys2Proof.Machine.execBrumate s
  | .tdstatClr => Sys2Proof.Machine.execTdstatClr s
  | .dramSelfRefresh ch mode => Sys2Proof.Machine.execDramSelfRefresh ch mode s
  | .goTadpole n c test neg addr balls => Sys2Proof.Machine.execGoTadpole n c test neg addr balls s
  | .cdn n c k => Sys2Proof.Machine.execCdn n c k s
  | .hold n c lvl src index balls => Sys2Proof.Machine.execHold n c lvl src index balls s
  | .shin n c src count balls => Sys2Proof.Machine.execShin n c src count balls s
  | .shout n c dst count => Sys2Proof.Machine.execShout n c dst count s
  | .push n c => Sys2Proof.Machine.execPush n c s
  | .pull n c => Sys2Proof.Machine.execPull n c s
  | .put n c act level mask => Sys2Proof.Machine.execPut n c act level mask s
  | .ldk n c k append imm => Sys2Proof.Machine.execLdk n c k append imm s
  | .xfer n c dst op src balls => Sys2Proof.Machine.execXfer n c dst op src balls s
  | .sig n c op flag => Sys2Proof.Machine.execSig n c op flag s
  | .endContext n c => Sys2Proof.Machine.execEndContext n c s
  | .run n c => Sys2Proof.Machine.execRun n c s
  | .arm n c => Sys2Proof.Machine.execArm n c s
  | .stop n c => Sys2Proof.Machine.execStop n c s
  | .pioFlush n c => Sys2Proof.Machine.execPioFlush n c s
  | .start mask => Sys2Proof.Machine.execStart mask s
  | .stopclk mask => Sys2Proof.Machine.execStopclk mask s
  | .restart mask => Sys2Proof.Machine.execRestart mask s
  | .pioTxWrite n c data => Sys2Proof.Machine.execPioTxWrite n c data s
  | .pioRxRead n c => Sys2Proof.Machine.execPioRxRead n c s
  | .flagset n value => Sys2Proof.Machine.execFlagset n value s
  | .tickerEnable k value => Sys2Proof.Machine.execTickerEnable k value s
  | .tickerExpiry k => Sys2Proof.Machine.execTickerExpiry k s
  | .cardPresenceLoss c => Sys2Proof.Machine.execCardPresenceLoss c s
  | .lampVerdict j vpin cur => Sys2Proof.Machine.execLampVerdict j vpin cur s
  | .lampProbe j vpin cur => Sys2Proof.Machine.execLampProbe j vpin cur s
  | .lampUnmeasuredTimeout j => Sys2Proof.Machine.execLampUnmeasuredTimeout j s
  | .shortoffRelease j => Sys2Proof.Machine.execShortoffRelease j s
  | .registerWrite p addr value => Sys2Proof.Machine.execRegisterWrite p addr value s
  | .illegal p word parity => Sys2Proof.Machine.execIllegal p word parity s
  | .illegalTadpoleWord n c word => Sys2Proof.Machine.execIllegalTadpoleWord n c word s
  | .rekeyMoved e slot err => Sys2Proof.Machine.execRekeyMoved e slot err s
  | .refclkQualifying b => Sys2Proof.Machine.execRefclkQualifying b s
  | .refclkStandbyLoss oot => Sys2Proof.Machine.execRefclkStandbyLoss oot s
  | .switchbackLimitExpiry => Sys2Proof.Machine.execSwitchbackLimitExpiry s
  | .upstreamLinkUp u rate width => Sys2Proof.Machine.execUpstreamLinkUp u rate width s
  | .clkreqEdge u high => Sys2Proof.Machine.execClkreqEdge u high s
  | .ccShnChange f shn => Sys2Proof.Machine.execCcShnChange f shn s
  | .replayTimerExpiry port linkB => Sys2Proof.Machine.execReplayTimerExpiry port linkB s
  | .mctpPacket k pec dest src tag som eom seq data => Sys2Proof.Machine.execMctpPacket k pec dest src tag som eom seq data s
  | .smbusBusError k => Sys2Proof.Machine.execSmbusBusError k s
  | .spiAccessComplete => Sys2Proof.Machine.execSpiAccessComplete s
  | .vholdGlitchDisarm => Sys2Proof.Machine.execVholdGlitchDisarm s
  | .nohold mv => Sys2Proof.Machine.execNohold mv s
  | .tapInstruction kind => Sys2Proof.Machine.execTapInstruction kind s

end Sys2Proof.Machine
end

