-- ==== Sys2Proof/Machine/Idle.lean ====
section
/-!
DEFINITION. Time when no command waits: one 10 ns tick of the package timebase and its share of VTIME, and a part reset that falls due (log 2).
-/

namespace Sys2Proof.Machine

/-- 32,768 VTIME ticks in 10^8 ticks of 10 ns (R73, R368): the accumulator holds what is left over. -/
def State.vtick (s : State) : State :=
  if 100000000 ≤ s.vacc + 32768 then { s with vacc := s.vacc + 32768 - 100000000, vtime := s.vtime + 1 } else { s with vacc := s.vacc + 32768 }

/-- Running firmware takes the head of the vault event queue, which has no command of its own (R257, R370, log 2). -/
def State.vaultRead (s : State) : State :=
  if s.fwUp && (s.queue 1542).en then s.updVault fun v => { v with events := v.events.tail } else s

/-- A tick: VTIME runs always, TIME while the management domain is powered, and a part reset that a response announced takes place when it is due
(R73, R368, R465). -/
def State.tick (s : State) : State :=
  let s := s.vtick.vaultRead
  let s := if s.domOn 38 then { s with time := s.time + 1 } else s
  match s.boot.resetDue with
  | some t => if t ≤ s.now then s.partReset 2 else s
  | none => s

end Sys2Proof.Machine
end

