-- ==== Sys2Proof/WellFormed.lean ====
section
/-!
DEFINITION. Which commands a sender can send: the lengths of byte strings and lists that the spec fixes for an operand whose type does not.
The meanings are total, and take an ill-formed command too; nothing they do with one is claimed of the part.
-/

namespace Sys2Proof

/-- The record of a drive's Identify data has fields of the width the drive reports them in. -/
def DrvId.wellFormed (d : DrvId) : Bool :=
  d.serial < 2 ^ 160 && d.model < 2 ^ 320 && d.sqs ≤ 65536 && d.cqs ≤ 65536 && d.mqes ≤ 65536 && d.mdts < 256 && d.nn < 2 ^ 32
    && d.nss.all fun x => x.1 < 2 ^ 32 && x.2.nguid < 2 ^ 128

/-- A command's operands are of the lengths that the spec gives them. -/
def Instr.wellFormed : Instr → Bool
  | .hostDataReturn _ _ offset data _ => offset + data.length ≤ 2 ^ 24
  | .tagPassComplete _ _ _ data _ => data.length ≤ 4096
  | .driveMemRead _ _ len _ => 1 ≤ len && len ≤ 4096
  | .driveMemWrite _ _ data _ => 1 ≤ data.length && data.length ≤ 512
  | .sqEntryFetch _ sqe _ => sqe.length = 64
  | .setFeatures _ data => data.length ≤ 4096
  | .datasetManagement _ _ ranges => ranges.length % 16 = 0 && ranges.length ≤ 4096
  | .driveReady _ ident _ => ident.wellFormed
  | .recoveryDrainDone _ fails _ => fails.all fun e => e < 128
  | .mctpMessage _ inner => inner.length ≤ 2053
  | .mctpPacket _ _ _ _ _ _ _ _ data => data.length ≤ 64
  | .attest _ nonce => nonce.length = 32
  | .keyImport _ _ _ _ _ nonce ct sealed _ => nonce.length = 16 && ct.length = 1568 && sealed.length = 80
  | .nsExtents _ _ _ recs _ => recs.length ≤ 60
  | .nsBands _ _ starts => starts.length ≤ 64
  | .fwWrite _ _ data _ => data.length ≤ 2000
  | .configStage _ _ data => data.length ≤ 2000
  | .testStage _ _ data => data.length ≤ 2000
  | .vltImport _ _ _ _ _ _ _ aad ct sealed => aad.length = 24 && ct.length = 1568 && sealed.length = 80
  | .vltSign _ digest => digest.length = 48
  | .vltShareOut _ card => card.length = 97
  | .vltShareIn _ card blob => card.length = 97 && blob.length = 80
  | .vltTestUnlock token => token.length = 4795
  | .tailDropExit _ _ volts => volts.length ≤ 16
  | .thermalClipEnd _ volts => volts.length ≤ 16
  | _ => true

end Sys2Proof
end

