-- ==== Sys2Proof/Safety.lean ====
section
/-!
DEFINITION. The terms in which claims are stated: when a processor can issue, what completing an instruction may change, what the part never
holds outside an epoch, and what a good state of the whole part is.
-/

namespace Sys2Proof.Machine

/-! ## Issue -/

/-- Processor `p` can issue an instruction that names the registers `rs`: it runs, its PC may be fetched from (R49, R332), and no register
named has its scoreboard bit set (R83). -/
structure CanIssue (s : State) (p : Nat) (rs : List Nat) : Prop where
  runs : s.running p = true
  fetch : s.fetchOk p (s.proc p).pc = true
  free : rs.any (s.proc p).isBusy = false

/-- The link register that completing this instruction writes, with its value, when the instruction stands in the delay slot of a JAL or
JALR (R82). -/
def Proc.linkAt (r : Proc) (n : Nat) : Option Word :=
  match r.delay with
  | some d => if d.link = some n then some (d.branch + 8) else none
  | none => none

/-- What completing one instruction never writes but by the instruction's own effect: the exception registers, the loop bounds, the latched
halves, the scoreboard, the access buffers, the hash unit, the suspension and the stale words. -/
structure KeepsRest (r q : Proc) : Prop where
  epc : q.epc = r.epc
  ecause : q.ecause = r.ecause
  eval : q.eval = r.eval
  escratch : q.escratch = r.escratch
  estat : q.estat = r.estat
  evec : q.evec = r.evec
  lstart0 : q.lstart0 = r.lstart0
  lend0 : q.lend0 = r.lend0
  lstart1 : q.lstart1 = r.lstart1
  lend1 : q.lend1 = r.lend1
  instretHi : q.instretHi = r.instretHi
  timeHi : q.timeHi = r.timeHi
  busy : q.busy = r.busy
  loads : q.loads = r.loads
  stores : q.stores = r.stores
  port : q.port = r.port
  waiting : q.waiting = r.waiting
  hash : q.hash = r.hash
  stale : q.stale = r.stale

/-- MODE after an instruction completes: the mode that a SETMODE's shadow puts in force, once the shadow has run (R71). -/
def Proc.modeAfter (r : Proc) : BitVec 2 := if r.delay.isSome then r.mode else r.shadow.getD r.mode

/-- The instruction at PC of `p` completed, gd receiving `v` (none: it writes no register), and nothing else happened: the other registers
stand, but for a link register whose delay slot this was; MODE changes only as a SETMODE asked; loop counts change only while a level is
active; every other register of the processor, every other unit and every byte of memory stand. -/
structure Completes (s t : State) (p gd : Nat) (v : Option Word) : Prop where
  only : t = s.setProc p (t.proc p)
  regs : ∀ n, (t.proc p).reg n =
    if n = 0 then 0 else match (s.proc p).linkAt n with
      | some x => x
      | none => match v with
        | some x => if n = gd then x else (s.proc p).reg n
        | none => (s.proc p).reg n
  mode : (t.proc p).mode = (s.proc p).modeAfter
  loops : (s.proc p).lstat = 0 →
    (t.proc p).lstat = 0 ∧ (t.proc p).lcount0 = (s.proc p).lcount0 ∧ (t.proc p).lcount1 = (s.proc p).lcount1
  rest : KeepsRest (s.proc p) (t.proc p)
  memory : ∀ l : Loc, t.locByte l = s.locByte l

/-- Command `c` completes on `s` as `Completes` says. -/
def State.yields (s : State) (c : Instr) (p gd : Nat) (v : Word) : Prop := ∃ t, exec c s = .next t ∧ Completes s t p gd (some v)

/-! ## Accesses -/

/-- The five loads with their width and extension (R41). -/
def loadForms : List ((Pid → Reg → Reg → Imm → Instr) × Nat × Bool) :=
  [(Instr.lb, 1, true), (Instr.lh, 2, true), (Instr.lw, 4, false), (Instr.lbu, 1, false), (Instr.lhu, 2, false)]

/-- The three stores with their width (R41). -/
def storeForms : List ((Pid → Reg → Reg → Imm → Instr) × Nat) := [(Instr.sb, 1), (Instr.sh, 2), (Instr.sw, 4)]

/-- The eight atomics with the new value of the word from its old value, gt and gd (R51). -/
def atomicForms : List ((Pid → Reg → Reg → Reg → Instr) × (Word → Word → Word → Word)) :=
  [(Instr.atswp, fun _ t _ => t), (Instr.atadd, fun o t _ => o + t), (Instr.atand, fun o t _ => o &&& t), (Instr.ator, fun o t _ => o ||| t),
   (Instr.atxor, fun o t _ => o ^^^ t), (Instr.atwrap, fun o t _ => if t ≤ o then 0 else o + 1),
   (Instr.atdsat, fun o t _ => if t ≤ o then o - t else 0), (Instr.atcas, fun o t d => if o = d then t else o)]

/-- The byte at `m` lies in the `n` bytes from location `l`; the buffer DRAM and the warden's memories have no unit number. -/
def Loc.covers (l : Loc) (n : Nat) (m : Loc) : Prop :=
  m.space = l.space ∧ (m.unit = l.unit ∨ (3 ≤ l.space ∧ l.space ≤ 5)) ∧ l.off ≤ m.off ∧ m.off < l.off + n

/-- The location is a byte of a memory that stores change: no ROM, no register, no hole (R15, R47, R478). -/
def Loc.writable (l : Loc) : Bool := l.space ≤ 5 || l.space = 7

/-- Every register of a processor but a pending link register stands. -/
def SameRegs (s t : State) (p : Nat) : Prop :=
  ∀ n, (t.proc p).reg n = if n = 0 then 0 else ((s.proc p).linkAt n).getD ((s.proc p).reg n)

/-- No byte of any memory changes. -/
def SameMemory (s t : State) : Prop := ∀ l : Loc, t.locByte l = s.locByte l

/-! ## Control registers -/

/-- The writable word-wide control registers: number, field, and the bits that are not reserved (R72, R102). -/
def crFields : List (Nat × (Proc → Word) × Word) :=
  [(0x001, Proc.epc, 0xFFFFFFFF), (0x002, Proc.ecause, 0xFFFFFFFF), (0x003, Proc.eval, 0xFFFFFFFF), (0x004, Proc.estat, 0xBF),
   (0x005, Proc.escratch, 0xFFFFFFFF), (0x006, Proc.evec, 0xFFFFFFC0), (0x010, Proc.lstart0, 0xFFFFFFFF), (0x011, Proc.lend0, 0xFFFFFFFF),
   (0x012, Proc.lcount0, 0xFFFFFFFF), (0x014, Proc.lstart1, 0xFFFFFFFF), (0x015, Proc.lend1, 0xFFFFFFFF), (0x016, Proc.lcount1, 0xFFFFFFFF)]

/-! ## Admin commands -/

/-- The entry `w` stands first among the admin entries of controller `f`, firmware runs, the entry breaks none of the rules that hold for every
admin command (R242), and its completion can be written at once (R216, R225). -/
structure AdminReady (s : State) (f : Nat) (w : List Word) : Prop where
  up : s.fwUp = true
  front : (s.quad (s.funcQuad f)).admin.find? (fun x => x.1 = f) = some (f, w)
  good : adminBad w = false
  live : ((s.ctl f).sq 0).live = true
  home : ((s.ctl f).sq 0).cq = 0
  room : ((s.ctl f).cq 0).full = false
  none : (s.ctl f).waitCpl = []
  send : s.canSend f = true

/-- The completion entry of admin entry `w` was written with this dword 0 and status. -/
def AdminAnswer (u : State) (f : Nat) (w : List Word) (dw0 : Word) (sct sc : Nat) (dnr : Bool) : Prop :=
  .completion f 0 { sqid := 0, cid := cidOf w, dw0 := dw0, sct := sct, sc := sc, dnr := dnr, crd := 0, src := none } ∈ u.out

/-- The data of admin entry `w` was returned to where the entry points. -/
def AdminReturns (u : State) (f : Nat) (w : List Word) (data : List Byte) : Prop :=
  .adminData f (cidOf w) (pair64 (w.getD 6 0) (w.getD 7 0)) (pair64 (w.getD 8 0) (w.getD 9 0)) data ∈ u.out

/-! ## Mailbox requests -/

/-- The page after its accepted request was answered: the response stands in the response area and is remembered (R349, R351). -/
def Page.answer (g : Page) (status detail : Nat) (payload : List Byte) : Page :=
  { g with area := Memory.put g.area 0x800 (respBytes g.req g.seq status detail payload), answered := true
           mem := some (g.seq, g.req, respBytes g.req g.seq status detail payload) }

/-- The page's request has this opcode, is accepted and unanswered, the warden serves the page, and no reset discards its response (R346, R347). -/
structure ImdexReady (s : State) (p op : Nat) : Prop where
  ready : s.mbxReady p op = true
  kept : (s.page p).discard = false

/-- A request of page `p` that names controller `f` acts on controller `c`: a tenant names 0 and stands for itself, an operator page names a
controller of its port (R354). -/
def ActsOn (p f c : Nat) : Prop := (p < 1024 ∧ f = 0 ∧ c = p) ∨ (1024 ≤ p ∧ p < 1028 ∧ f = c ∧ c < 1024 ∧ portOf c = p - 1024)

/-- Command `c` answers the request of page `p` and does nothing else. -/
def State.onlyAnswers (s : State) (c : Instr) (p status detail : Nat) (payload : List Byte) : Prop :=
  exec c s = .next (s.setPage p ((s.page p).answer status detail payload))

/-! ## Good states -/

/-- A processor's PC is word aligned, its EVEC bits [5:0] read 0, and a branch whose delay slot is next stood at an aligned address (R38, R54, R72). -/
structure Proc.Aligned (r : Proc) : Prop where
  pc : r.pc.toNat % 4 = 0
  evec : r.evec.toNat % 64 = 0
  branch : ∀ d, r.delay = some d → d.branch.toNat % 4 = 0

/-- Every processor is aligned, and every engine goes on from an aligned address when it is released (R38, R92). -/
structure State.PcInv (s : State) : Prop where
  warden : s.warden.proc.Aligned
  lanes : ∀ e, (s.eng e).proc.Aligned
  release : ∀ e, (s.eng e).haltpc.toNat % 4 = 0

/-- The vault's epoch: a VALID one lies at or above the floor, none is held in any other state, a restore in progress began without one, and no more
fuses are blown than there are (R364 to R367, R377, R387). -/
structure Vault.Sound (v : Vault) : Prop where
  floor : v.epochst = 1 → v.floorFuses + 1 ≤ v.epoch
  held : v.epochst ≠ 1 → v.secret = 0 ∧ v.wk = none
  restore : v.epochst = 4 → v.before = 2 ∨ v.before = 3
  floorFuses : v.floorFuses ≤ 1024
  testFuses : v.testFuses ≤ 16

end Sys2Proof.Machine
end

