-- ==== Sys2Proof/Certificates/Slice0/Obligations.lean ====
section
/-!
DEFINITION. The statements for the provers: what each family of commands does, and what every step keeps.
-/

open Sys2Proof Sys2Proof.Machine

/-- Every register-to-register function of OP, OP-M (but the divisions) and OP-B with two sources completes with the stated result in gd and changes
nothing else. Rests on R43, R42. -/
def Obligations.RegisterOpsComplete : Prop :=
  ∀ (s : State) (p : Pid) (gd gs gt : Reg), CanIssue s p [gd, gs, gt] →
    let a := (s.proc p).reg gs
    let b := (s.proc p).reg gt
    let d := (s.proc p).reg gd
    s.yields (.add p gd gs gt) p gd (a + b)
    ∧ s.yields (.sub p gd gs gt) p gd (a - b)
    ∧ s.yields (.and p gd gs gt) p gd (a &&& b)
    ∧ s.yields (.or p gd gs gt) p gd (a ||| b)
    ∧ s.yields (.xor p gd gs gt) p gd (a ^^^ b)
    ∧ s.yields (.sll p gd gs gt) p gd (a <<< (b.toNat % 32))
    ∧ s.yields (.srl p gd gs gt) p gd (a >>> (b.toNat % 32))
    ∧ s.yields (.sra p gd gs gt) p gd (a.sshiftRight (b.toNat % 32))
    ∧ s.yields (.cmp p gd gs gt) p gd (if a.slt b then -1 else if a = b then 0 else 1)
    ∧ s.yields (.cmpu p gd gs gt) p gd (if a < b then -1 else if a = b then 0 else 1)
    ∧ s.yields (.mul p gd gs gt) p gd (a * b)
    ∧ s.yields (.mulhs p gd gs gt) p gd ((a.signExtend 64 * b.signExtend 64).extractLsb' 32 32)
    ∧ s.yields (.mulhu p gd gs gt) p gd ((a.zeroExtend 64 * b.zeroExtend 64).extractLsb' 32 32)
    ∧ s.yields (.macc p gd gs gt) p gd (d + a * b)
    ∧ s.yields (.rotl p gd gs gt) p gd (a.rotateLeft (b.toNat % 32))
    ∧ s.yields (.rotr p gd gs gt) p gd (a.rotateRight (b.toNat % 32))
    ∧ s.yields (.andn p gd gs gt) p gd (a &&& ~~~b)
    ∧ s.yields (.min p gd gs gt) p gd (if a.slt b then a else b)
    ∧ s.yields (.max p gd gs gt) p gd (if a.slt b then b else a)
    ∧ s.yields (.minu p gd gs gt) p gd (if a < b then a else b)
    ∧ s.yields (.maxu p gd gs gt) p gd (if a < b then b else a)

/-- The divisions complete, with the quotient and remainder of R44 in every case. The counts, the byte reversal, the CRC and the bit-field functions
complete, each result said bit by bit. Rests on R44 with the division rows of R43; R43, R45. -/
def Obligations.DivisionAndBitOpsComplete : Prop :=
  (∀ (s : State) (p : Pid) (gd gs gt : Reg), CanIssue s p [gd, gs, gt] →
    let a := (s.proc p).reg gs
    let b := (s.proc p).reg gt
    (∃ q, s.yields (.div p gd gs gt) p gd q ∧ ∃ r, s.yields (.mod p gd gs gt) p gd r
      ∧ (b = 0 → 0 ≤ a.toInt → q = 0x7FFFFFFF ∧ r = a) ∧ (b = 0 → a.toInt < 0 → q = 0x80000000 ∧ r = a)
      ∧ (a = 0x80000000 → b = 0xFFFFFFFF → q = 0x7FFFFFFF ∧ r = 0)
      ∧ (b ≠ 0 → ¬(a = 0x80000000 ∧ b = 0xFFFFFFFF) → q = a.sdiv b ∧ r = a.srem b ∧ q * b + r = a))
    ∧ ∃ q, s.yields (.divu p gd gs gt) p gd q ∧ ∃ r, s.yields (.modu p gd gs gt) p gd r
      ∧ (b = 0 → q = 0xFFFFFFFF ∧ r = a) ∧ (b ≠ 0 → q = a / b ∧ r = a % b ∧ q * b + r = a))
  ∧ (∀ (s : State) (p : Pid) (gd gs gt : Reg) (pos wm1 : U5) (size : Fin 3),
    let a := (s.proc p).reg gs
    let b := (s.proc p).reg gt
    let d := (s.proc p).reg gd
    (CanIssue s p [gd, gs] →
      (∃ n : Nat, s.yields (.clz p gd gs) p gd (BitVec.ofNat 32 n) ∧ n ≤ 32 ∧ (∀ i < n, a.getLsbD (31 - i) = false)
        ∧ (n < 32 → a.getLsbD (31 - n) = true))
      ∧ (∃ n : Nat, s.yields (.ctz p gd gs) p gd (BitVec.ofNat 32 n) ∧ n ≤ 32 ∧ (∀ i < n, a.getLsbD i = false) ∧ (n < 32 → a.getLsbD n = true))
      ∧ (∃ n : Nat, s.yields (.popc p gd gs) p gd (BitVec.ofNat 32 n) ∧ n = ((List.range 32).filter fun i => a.getLsbD i).length)
      ∧ (∃ v, s.yields (.bswap p gd gs) p gd v ∧ ∀ i < 4, v.extractLsb' (8 * i) 8 = a.extractLsb' (8 * (3 - i)) 8)
      ∧ (pos.toNat + wm1.toNat + 1 ≤ 32 →
        (∃ v, s.yields (.bfx p gd gs pos wm1) p gd v
          ∧ ∀ i < 32, v.getLsbD i = if i < wm1.toNat + 1 then a.getLsbD (pos.toNat + i) else false)
        ∧ ∃ v, s.yields (.bfi p gd gs pos wm1) p gd v
          ∧ ∀ i < 32, v.getLsbD i = if pos.toNat ≤ i ∧ i < pos.toNat + wm1.toNat + 1 then a.getLsbD (i - pos.toNat) else d.getLsbD i))
    ∧ (CanIssue s p [gd, gs, gt] → s.yields (.crc32c p gd gs gt size) p gd
        (((leBytes 4 b.toNat).take (2 ^ size.val)).foldl
          (fun c x => (List.range 8).foldl (fun c _ => if c.getLsbD 0 then (c >>> 1) ^^^ 0x82F63B78 else c >>> 1) (c ^^^ x.zeroExtend 32)) a)))

/-- The instructions with an immediate complete with the stated result; ADRW counts from its own address. Rests on R41, R42, R43. -/
def Obligations.ImmediateOpsComplete : Prop :=
  ∀ (s : State) (p : Pid) (gd gs : Reg) (imm : Imm) (sh : U5),
    let a := (s.proc p).reg gs
    (CanIssue s p [gd, gs] →
      s.yields (.addi p gd gs imm) p gd (a + imm.signExtend 32)
      ∧ s.yields (.andi p gd gs imm) p gd (a &&& imm.zeroExtend 32)
      ∧ s.yields (.ori p gd gs imm) p gd (a ||| imm.zeroExtend 32)
      ∧ s.yields (.xori p gd gs imm) p gd (a ^^^ imm.zeroExtend 32)
      ∧ s.yields (.orhi p gd gs imm) p gd (a ||| (imm.zeroExtend 32 <<< 16))
      ∧ s.yields (.addhi p gd gs imm) p gd (a + (imm.zeroExtend 32 <<< 16))
      ∧ s.yields (.cmpi p gd gs imm) p gd (if a.slt (imm.signExtend 32) then -1 else if a = imm.signExtend 32 then 0 else 1)
      ∧ s.yields (.cmpui p gd gs imm) p gd (if a < imm.zeroExtend 32 then -1 else if a = imm.zeroExtend 32 then 0 else 1)
      ∧ s.yields (.slli p gd gs sh) p gd (a <<< sh.toNat)
      ∧ s.yields (.srli p gd gs sh) p gd (a >>> sh.toNat)
      ∧ s.yields (.srai p gd gs sh) p gd (a.sshiftRight sh.toNat))
    ∧ (CanIssue s p [gd] → s.yields (.adrw p gd imm) p gd ((s.proc p).pc + 4 * imm.signExtend 32))

/-- A load whose parts all lie in memory that answers completes: it holds gd on the scoreboard and puts into the load unit the little-endian bytes read,
with sign or zero extension; through the warden's register port it takes a place of the port; a word of the processor's own ENGn_ window is read at
once. Nothing else changes. An access whose next part faults raises the fault with the address of that part and gets no further: a load and an atomic
change nothing else; a store has entered the part before. A misaligned atomic raises ATOMIC_ALIGN, and one to a place without atomics ATOMIC_FAULT.
Rests on R41, R46, R50, R81; R46, R49, R50, R51, R67, R99. -/
def Obligations.LoadsIssueOrFault : Prop :=
  (∀ (s : State) (p : Pid) (gd gs : Reg) (imm : Imm), CanIssue s p [gd, gs] → ∀ f ∈ loadForms,
    let a := (s.proc p).reg gs + imm.signExtend 32
    ∀ l n ls, s.locs p 0 (parts a f.2.1) = ((l, n) :: ls, none) →
      let bytes := ((l, n) :: ls).flatMap fun x => s.ownBytes p x.1 x.2
      let v := if f.2.2 then (BitVec.ofNat (8 * f.2.1) (ofLe bytes)).signExtend 32 else BitVec.ofNat 32 (ofLe bytes)
      (l.space ≠ 10 → (p.val = 128 → ∀ x ∈ (l, n) :: ls, x.1.viaPort = false) → (s.proc p).loads.length < 4 → s.locOn l = true →
        ∃ t, exec (f.1 p gd gs imm) s = .next t ∧ t = s.setProc p (t.proc p) ∧ SameRegs s t p ∧ SameMemory s t
          ∧ (t.proc p).loads = (s.proc p).loads ++ [{ gd := gd, value := v, loc := l }] ∧ (gd.val ≠ 0 → (t.proc p).isBusy gd = true)
          ∧ (t.proc p).stores = (s.proc p).stores ∧ (t.proc p).mode = (s.proc p).modeAfter)
      ∧ (p.val = 128 → (∃ x ∈ (l, n) :: ls, x.1.viaPort = true) → (s.proc p).port.length < 16 →
        ∃ t, exec (f.1 p gd gs imm) s = .next t ∧ t = s.setProc p (t.proc p) ∧ SameRegs s t p ∧ SameMemory s t
          ∧ (t.proc p).port = (s.proc p).port ++ [{ write := false, parts := (l, n) :: ls, addr := a, value := 0, gd := gd, sext := f.2.2 }])
      ∧ (l.space = 10 → p.val ≠ 128 → (s.proc p).loads = [] → (s.proc p).stores = [] →
        ∃ t u, s.regRead true (engAddr p l.off) = (t, u) ∧ exec (f.1 p gd gs imm) s = .next (u.writeReg p gd t)))
  ∧ (∀ (s : State) (p : Pid) (gd gs gt : Reg) (imm : Imm),
    (CanIssue s p [gd, gs] →
      let a := (s.proc p).reg gs + imm.signExtend 32
      (∀ f ∈ loadForms, ∀ bad, (s.locs p 0 (parts a f.2.1)).2 = some bad →
        exec (f.1 p gd gs imm) s = .next (s.takeException p 0x04 bad))
      ∧ ∀ f ∈ storeForms, ∀ bad, (s.locs p 1 (parts a f.2)).2 = some bad →
        ((s.locs p 1 (parts a f.2)).1 = [] → exec (f.1 p gd gs imm) s = .next (s.takeException p 0x05 bad))
        ∧ ∀ l n, (s.locs p 1 (parts a f.2)).1 = [(l, n)] → l.space ≠ 10 → (p.val = 128 → l.viaPort = false) → (s.proc p).hash.queue = [] →
          (s.proc p).stores.length ≤ 6 →
          exec (f.1 p gd gs imm) s = .next ((s.setProc p { s.proc p with
            stores := (s.proc p).stores ++ [{ loc := l, size := n, value := (s.proc p).reg gd }] }).takeException p 0x05 bad))
    ∧ (CanIssue s p [gd, gs, gt] → ∀ f ∈ atomicForms,
      let a := (s.proc p).reg gs
      (a.toNat % 4 ≠ 0 → exec (f.1 p gd gs gt) s = .next (s.takeException p 0x06 a))
      ∧ (a.toNat % 4 = 0 → s.locOf p 3 a 4 = none → exec (f.1 p gd gs gt) s = .next (s.takeException p 0x07 a))))

/-- The data of an outstanding load or atomic returns: gd receives the value the access read, its scoreboard bit clears, the access leaves the load unit,
and no memory changes. A corrected error is counted; an uncorrectable one halts a lane engine with ECC_FATAL, gd unwritten. Rests on R46, R68, R109,
R481. -/
def Obligations.LoadDataReturns : Prop :=
  ∀ (s : State) (p : Pid) (k : Fin 16) (x : Load), (s.proc p).loads[k.val]? = some x →
    (∃ t, exec (.loadDataReturn p false k 0) s = .next t ∧ t = s.setProc p (t.proc p) ∧ SameMemory s t
      ∧ (∀ n, (t.proc p).reg n = if n = 0 then 0 else if n = x.gd then x.value else (s.proc p).reg n)
      ∧ (t.proc p).isBusy x.gd = false ∧ (t.proc p).loads = (s.proc p).loads.eraseIdx k ∧ (t.proc p).stores = (s.proc p).stores
      ∧ (t.proc p).pc = (s.proc p).pc ∧ (t.proc p).mode = (s.proc p).mode)
    ∧ (x.loc.space = 1 → p.val ≠ 128 → ∃ t, exec (.loadDataReturn p false k 1) s = .next t
      ∧ (t.eng x.loc.unit).dsbe.toNat = min ((s.eng x.loc.unit).dsbe.toNat + 1) 0xFFFF ∧ (x.gd ≠ 0 → (t.proc p).reg x.gd = x.value))
    ∧ (x.loc.coded = true → p.val ≠ 128 → ∃ t, exec (.loadDataReturn p false k 2) s = .next t ∧ (t.eng p).run = 2 ∧ (t.eng p).hcause = 3
      ∧ (∀ n, (t.proc p).reg n = (s.proc p).reg n) ∧ (t.proc p).busy = (s.proc p).busy ∧ SameMemory s t)

/-- A store whose parts all lie in memory enters the store buffer, part by part, lower address first, each part with its bytes of gd, and completes;
memory does not change until the part is performed. It goes to the register port when the warden addresses a register, and is performed at once in the
processor's own ENGn_ window. A buffered store with no earlier store to its word is performed: the bytes it addresses read as its value, lowest byte
first, every other byte of every memory stands, and it leaves the buffer; an earlier store to the same word keeps it back. Rests on R41, R46, R50,
R53, R81; R53, R81. -/
def Obligations.StoresIssueAndPerform : Prop :=
  (∀ (s : State) (p : Pid) (gd gs : Reg) (imm : Imm), CanIssue s p [gd, gs] → (s.proc p).hash.queue = [] → ∀ f ∈ storeForms,
    let a := (s.proc p).reg gs + imm.signExtend 32
    let v := (s.proc p).reg gd
    ∀ l n ls, s.locs p 1 (parts a f.2) = ((l, n) :: ls, none) →
      (l.space ≠ 10 → (p.val = 128 → ∀ x ∈ (l, n) :: ls, x.1.viaPort = false) → (s.proc p).stores.length + (parts a f.2).length ≤ 8 →
        ∃ t, exec (f.1 p gd gs imm) s = .next t ∧ t = s.setProc p (t.proc p) ∧ SameRegs s t p ∧ SameMemory s t
          ∧ (t.proc p).stores = (s.proc p).stores ++ storeParts v 0 ((l, n) :: ls)
          ∧ (t.proc p).loads = (s.proc p).loads ∧ (t.proc p).mode = (s.proc p).modeAfter)
      ∧ (p.val = 128 → (∃ x ∈ (l, n) :: ls, x.1.viaPort = true) → (s.proc p).port.length < 16 →
        ∃ t, exec (f.1 p gd gs imm) s = .next t ∧ t = s.setProc p (t.proc p) ∧ SameRegs s t p ∧ SameMemory s t
          ∧ (t.proc p).port = (s.proc p).port ++ [{ write := true, parts := (l, n) :: ls, addr := a, value := v, gd := 0, sext := false }])
      ∧ (l.space = 10 → p.val ≠ 128 → (s.proc p).loads = [] → (s.proc p).stores = [] →
        exec (f.1 p gd gs imm) s = .next ((s.regWrite true (engAddr p l.off) v).updProc p Proc.retire)))
  ∧ (∀ (s : State) (p : Pid) (k : Fin 16) (x : Store), (s.proc p).stores[k.val]? = some x →
    (((s.proc p).stores.take k.val).any (fun y => y.word = x.word) = false → s.locOn x.loc = true → x.loc.writable = true →
      (x.loc.space = 2 → ∀ e ∈ enginesOf x.loc.unit, (s.eng e).deHeld = []) →
      ∃ t, exec (.storePerform p false k) s = .next t
        ∧ (∀ l, x.loc.covers x.size l → t.locByte l = BitVec.ofNat 8 (x.value.toNat / 256 ^ (l.off - x.loc.off)))
        ∧ (∀ l, ¬ x.loc.covers x.size l → t.locByte l = s.locByte l)
        ∧ (t.proc p).stores = (s.proc p).stores.eraseIdx k.val ∧ (∀ n, (t.proc p).reg n = (s.proc p).reg n) ∧ (t.proc p).pc = (s.proc p).pc)
    ∧ (((s.proc p).stores.take k.val).any (fun y => y.word = x.word) = true → exec (.storePerform p false k) s = .next s))

/-- An atomic on an aligned word of data RAM, scratch or the warden's SRAM, with every earlier access complete, writes the word its function gives and
nothing else in memory, and holds gd for the old value, which returns later. Rests on R51, R53, R81. -/
def Obligations.AtomicsComplete : Prop :=
  ∀ (s : State) (p : Pid) (gd gs gt : Reg), CanIssue s p [gd, gs, gt] → ∀ f ∈ atomicForms, ∀ l,
    let r := s.proc p
    let a := r.reg gs
    let old : Word := BitVec.ofNat 32 (ofLe (s.locBytes l 4))
    let new : Word := f.2 old (r.reg gt) (r.reg gd)
    a.toNat % 4 = 0 → s.locOf p 3 a 4 = some l → r.loads = [] → r.stores = [] → r.port = [] → r.hash.queue = [] →
    (l.space = 2 → ∀ e ∈ enginesOf l.unit, (s.eng e).deHeld = []) →
      ∃ t, exec (f.1 p gd gs gt) s = .next t
        ∧ (∀ m, l.covers 4 m → t.locByte m = BitVec.ofNat 8 (new.toNat / 256 ^ (m.off - l.off)))
        ∧ (∀ m, ¬ l.covers 4 m → t.locByte m = s.locByte m)
        ∧ (t.proc p).loads = [{ gd := gd, value := old, loc := l }] ∧ SameRegs s t p ∧ (gd.val ≠ 0 → (t.proc p).isBusy gd = true)
        ∧ (t.proc p).stores = []

/-- A branch or jump outside a delay slot issues: its delay slot is next, the target and whether it is taken are fixed from the registers as they stand,
no register is written yet, and a SETMODE shadow that it ends takes effect for the slot. Rests on R41, R54, R71, R82. -/
def Obligations.BranchesIssue : Prop :=
  ∀ (s : State) (p : Pid) (ga gb gd : Reg) (off : Imm) (off26 : Off26), (s.proc p).delay = none →
    let r := s.proc p
    let a := r.reg ga
    let b := r.reg gb
    let issues := fun (c : Instr) (taken : Bool) (target : Word) (link : Option Nat) =>
      ∃ t, exec c s = .next t ∧ t = s.setProc p (t.proc p) ∧ (∀ n, (t.proc p).reg n = r.reg n) ∧ SameMemory s t
        ∧ (t.proc p).delay = some { branch := r.pc, target := target, taken := taken, link := link, shadowOf := r.shadow.map fun m => (r.mode, m) }
        ∧ (t.proc p).pc = r.pc + 4 ∧ (t.proc p).mode = r.shadow.getD r.mode ∧ (t.proc p).shadow = none ∧ KeepsRest r (t.proc p)
        ∧ (t.proc p).lstat = r.lstat ∧ (t.proc p).lcount0 = r.lcount0 ∧ (t.proc p).lcount1 = r.lcount1 ∧ (t.proc p).instret = r.instret
    (CanIssue s p [ga, gb] →
      issues (.beq p ga gb off) (decide (a = b)) (r.pc + 4 * off.signExtend 32) none
      ∧ issues (.bne p ga gb off) (decide (a ≠ b)) (r.pc + 4 * off.signExtend 32) none
      ∧ issues (.blt p ga gb off) (a.slt b) (r.pc + 4 * off.signExtend 32) none
      ∧ issues (.bge p ga gb off) (!a.slt b) (r.pc + 4 * off.signExtend 32) none
      ∧ issues (.bltu p ga gb off) (decide (a < b)) (r.pc + 4 * off.signExtend 32) none
      ∧ issues (.bgeu p ga gb off) (decide (b ≤ a)) (r.pc + 4 * off.signExtend 32) none)
    ∧ (CanIssue s p [] → issues (.j p off26) true (r.pc + 4 * off26.signExtend 32) none)
    ∧ (CanIssue s p [31] → issues (.jal p off26) true (r.pc + 4 * off26.signExtend 32) (some 31))
    ∧ (CanIssue s p [gd, ga] → issues (.jalr p gd ga off) true ((a + off.signExtend 32) &&& ~~~3#32) (some gd))

/-- Where execution goes when an instruction that is no branch completes (here ADDI g0, g0, 0, R41's no-operation): in order; to the start of an active
loop whose last pass is not done, else past its end; and from a delay slot to the branch's target or past the slot, with the link register written
then; the instructions are counted. Rests on R54, R59, R61, R71, R73, R82. -/
def Obligations.CompletionMovesOn : Prop :=
  ∀ (s : State) (p : Pid), CanIssue s p [] → (s.proc p).pc.toNat % 4 = 0 → ∃ t, exec (.addi p 0 0 0) s = .next t ∧
    let r := s.proc p
    let q := t.proc p
    q.delay = none
    ∧ (∀ d, r.delay = some d → q.instret = r.instret + 2 ∧ (∀ g, d.link = some g → g ≠ 0 → q.reg g = d.branch + 8)
      ∧ (d.taken = true → q.pc = d.target &&& ~~~3#32
        ∧ (r.lstat.getLsbD 0 = true → (q.lstat.getLsbD 0 = true ↔ r.lstart0 ≤ d.target ∧ d.target ≤ r.lend0))
        ∧ (r.lstat.getLsbD 1 = true → (q.lstat.getLsbD 1 = true ↔ r.lstart1 ≤ d.target ∧ d.target ≤ r.lend1)))
      ∧ (d.taken = false → r.lstat = 0 → q.pc = (d.branch + 8) &&& ~~~3#32))
    ∧ (r.delay = none → q.instret = r.instret + 1 ∧ q.mode = r.shadow.getD r.mode ∧ q.shadow = none
      ∧ (¬(r.lstat.getLsbD 0 = true ∧ r.pc = r.lend0) → ¬(r.lstat.getLsbD 1 = true ∧ r.pc = r.lend1) → q.pc = r.pc + 4
        ∧ q.lstat = r.lstat ∧ q.lcount0 = r.lcount0 ∧ q.lcount1 = r.lcount1)
      ∧ (r.lstat.getLsbD 1 = true → r.pc = r.lend1 →
        if 1 < r.lcount1 then q.pc = r.lstart1 &&& ~~~3#32 ∧ q.lcount1 = r.lcount1 - 1 ∧ q.lstat = r.lstat
        else q.pc = r.lend1 + 4 ∧ q.lcount1 = 0 ∧ q.lstat = r.lstat &&& 1#2)
      ∧ (r.lstat = 1#2 → r.pc = r.lend0 →
        if 1 < r.lcount0 then q.pc = r.lstart0 &&& ~~~3#32 ∧ q.lcount0 = r.lcount0 - 1 ∧ q.lstat = r.lstat
        else q.pc = r.lend0 + 4 ∧ q.lcount0 = 0 ∧ q.lstat = 0))

/-- LOOP and LOOPI take level 0, or level 1 inside it, with the body's bounds and the count; a count of 0 skips the body and changes no loop register; a
refused set-up raises LOOP_SETUP with its reason; LEXIT ends the innermost level. Rests on R58, R60, R61, R99. -/
def Obligations.LoopsComplete : Prop :=
  ∀ (s : State) (p : Pid) (gs : Reg) (count10 : U10) (len : Imm), (s.proc p).delay = none → (s.proc p).shadow = none →
    let r := s.proc p
    let sets := fun (c : Instr) (count : Word) =>
      let q := loopReason s p r len.toNat
      (q.1 ≠ 0 → exec c s = .next (q.2.takeException p 0x08 (BitVec.ofNat 32 q.1)))
      ∧ (len = 0 → q.1 = 1) ∧ (len ≠ 0 → r.lstat.getLsbD 1 = true → q.1 = 2)
      ∧ (q.1 = 0 → ∃ t, exec c s = .next t ∧ (∀ n, (t.proc p).reg n = r.reg n) ∧ SameMemory s t ∧
        (count = 0 → r.lstat = 0 → (t.proc p).pc = (r.pc + BitVec.ofNat 32 (4 * len.toNat) + 4) &&& ~~~3#32 ∧ (t.proc p).lstat = 0
          ∧ (t.proc p).lstart0 = r.lstart0 ∧ (t.proc p).lend0 = r.lend0 ∧ (t.proc p).lcount0 = r.lcount0)
        ∧ (count ≠ 0 → r.lstat = 0 → (t.proc p).lstart0 = r.pc + 4 ∧ (t.proc p).lend0 = r.pc + BitVec.ofNat 32 (4 * len.toNat)
          ∧ (t.proc p).lcount0 = count ∧ (t.proc p).lstat = 1#2 ∧ (t.proc p).pc = (r.pc + 4) &&& ~~~3#32)
        ∧ (count ≠ 0 → r.lstat = 1#2 → r.pc ≠ r.lend0 → (t.proc p).lstart1 = r.pc + 4
          ∧ (t.proc p).lend1 = r.pc + BitVec.ofNat 32 (4 * len.toNat) ∧ (t.proc p).lcount1 = count ∧ (t.proc p).lstat = 3#2
          ∧ (t.proc p).lstart0 = r.lstart0 ∧ (t.proc p).lend0 = r.lend0 ∧ (t.proc p).lcount0 = r.lcount0))
    (CanIssue s p [gs] → sets (.loop p gs len) (r.reg gs))
    ∧ (CanIssue s p [] → sets (.loopi p count10 len) (count10.zeroExtend 32))
    ∧ (CanIssue s p [] → r.pc ≠ r.lend0 → ∃ t, exec (.lexit p) s = .next t ∧ t = s.setProc p (t.proc p) ∧ SameRegs s t p
        ∧ (t.proc p).lstat = (if r.lstat.getLsbD 1 then r.lstat &&& 1#2 else 0) ∧ (t.proc p).lcount0 = r.lcount0 ∧ (t.proc p).lcount1 = r.lcount1
        ∧ KeepsRest r (t.proc p))

/-- CRD reads a control register that the mode may read; a LO half latches its HI half, and the next read of HI returns it. CWR in supervisor mode writes
the control registers that are writable, reserved bits ignored, and nothing else. Rests on R9, R37, R72 to R77; R70, R72, R102. -/
def Obligations.ControlRegistersReadAndWrite : Prop :=
  (∀ (s : State) (p : Pid) (gd : Reg), CanIssue s p [gd] → ((s.proc p).sup = true →
    let r := s.proc p
    (∀ x ∈ [(0x001, r.epc), (0x002, r.ecause), (0x003, r.eval), (0x004, r.estat), (0x005, r.escratch), (0x006, r.evec), (0x010, r.lstart0),
        (0x011, r.lend0), (0x012, r.lcount0), (0x014, r.lstart1), (0x015, r.lend1), (0x016, r.lcount1), (0x018, r.lstat.zeroExtend 32)],
      s.yields (.crd p gd (BitVec.ofNat 16 x.1)) p gd x.2))
    ∧ (∀ x ∈ [(0x000, (s.proc p).mode.zeroExtend 32), (0x030, if p.val = 128 then 0x12 else 0x11),
        (0x031, if p.val = 128 then 0x17 else 0x1F), (0x032, if p.val = 128 then 0x10111 else 0x11111),
        (0x033, if p.val = 128 then 0x033F2002 else 0x003F2042), (0x034, if p.val = 128 then 0x100 else BitVec.ofNat 32 p)],
        s.yields (.crd p gd (BitVec.ofNat 16 x.1)) p gd x.2)
    ∧ (∃ t, exec (.crd p gd 0x022) s = .next t ∧ (t.proc p).timeHi = some (s.time.extractLsb' 32 32)
        ∧ (∀ n, (t.proc p).reg n = if n = 0 then 0 else ((s.proc p).linkAt n).getD (if n = gd then s.time.extractLsb' 0 32 else (s.proc p).reg n)))
    ∧ (∃ t, exec (.crd p gd 0x020) s = .next t ∧ (t.proc p).instretHi = some ((s.proc p).instret.extractLsb' 32 32)
        ∧ (∀ n, (t.proc p).reg n = if n = 0 then 0 else
            ((s.proc p).linkAt n).getD (if n = gd then (s.proc p).instret.extractLsb' 0 32 else (s.proc p).reg n)))
    ∧ ∀ h, (s.proc p).timeHi = some h → ∃ t, exec (.crd p gd 0x023) s = .next t ∧ (t.proc p).timeHi = none
        ∧ (∀ n, (t.proc p).reg n = if n = 0 then 0 else ((s.proc p).linkAt n).getD (if n = gd then h else (s.proc p).reg n)))
  ∧ (∀ (s : State) (p : Pid) (gs : Reg), CanIssue s p [gs] → (s.proc p).sup = true → (s.proc p).delay = none → (s.proc p).lstat = 0 →
    ∀ x ∈ crFields,
      ∃ t, exec (.cwr p (BitVec.ofNat 16 x.1) gs) s = .next t ∧ t = s.setProc p (t.proc p) ∧ SameRegs s t p ∧ SameMemory s t
        ∧ x.2.1 (t.proc p) = (s.proc p).reg gs &&& x.2.2
        ∧ (∀ y ∈ crFields, y.1 ≠ x.1 → y.2.1 (t.proc p) = y.2.1 (s.proc p))
        ∧ (t.proc p).mode = (s.proc p).modeAfter ∧ (t.proc p).lstat = 0)

/-- The K instructions of a lane processor in supervisor mode. KLOAD resolves at once into a hit of the tile's cache, an invalid handle or CTX_BUSY; with
the KLOAD of another engine of its tile in the same resolution, the holder of the tile's token goes first. KLOAD_RESOLVE then writes gd and STATUS;
KWAIT gives the last result; KREL releases an unreferenced key; KSET and KGET write and read one parameter of one context. KLOAD_RESOLVE of a resolved
request writes the result to gd and to STATUS, clears the scoreboard bit and moves the context: READY for 0, WAITING for 1, EMPTY otherwise. Rests on
R19, R63, R64, R65, R81, R116, R117, R118; R64, R116, R117. -/
def Obligations.KeyInstructionsAndKloadResolve : Prop :=
  (∀ (s : State) (p : Pid) (gd gs : Reg) (ctx : Fin 4) (sel : U5), p.val ≠ 128 → CanIssue s p [gd, gs] → (s.proc p).sup = true →
    let e := s.eng p
    let k := e.ctx ctx
    let h := (s.proc p).reg gs
    let t := s.tile (tileOf p)
    (k.st = 0 → k.heldUse = none → e.cuFault = false →
      (h.extractLsb' 24 8 ≠ 0 → ∃ u, exec (.kload p gd gs ctx none) s = .next u ∧ ((u.eng p).ctx ctx).st = 1 ∧ ((u.eng p).ctx ctx).result = some 0x10
        ∧ ((u.eng p).ctx ctx).gd = some gd.val ∧ (gd.val ≠ 0 → (u.proc p).isBusy gd = true))
      ∧ (h.extractLsb' 24 8 = 0 → ∀ i, t.find (h.toNat / 16) = some i → (t.entry i).st = 2 → (t.entry i).tag.gen = h.toNat % 16 →
        ∃ u, exec (.kload p gd gs ctx none) s = .next u ∧ ((u.eng p).ctx ctx).result = some 0 ∧ ((u.eng p).ctx ctx).key = (t.entry i).key
          ∧ ((u.eng p).ctx ctx).handle = h.truncate 24 ∧ ((u.tile (tileOf p)).entry i).refd = true ∧ (u.tile (tileOf p)).kcHit = t.kcHit + 1)
      ∧ (h.extractLsb' 24 8 = 0 → ∀ i, t.find (h.toNat / 16) = some i → (t.entry i).st = 2 → (t.entry i).tag.gen ≠ h.toNat % 16 →
        ∃ u, exec (.kload p gd gs ctx none) s = .next u ∧ ((u.eng p).ctx ctx).result = some 0x11 ∧ ((u.eng p).ctx ctx).key = 0))
    ∧ (k.st = 3 → e.refs ctx = true → e.cuTesting = false → s.yields (.kload p gd gs ctx none) p gd 0x15)
    ∧ (∀ (x : EngId) gd2 gs2 c2, x.val = p.val ∨ tileOf x ≠ tileOf p → exec (.kload p gd gs ctx (some (x, gd2, gs2, c2))) s = exec (.kload p gd gs ctx none) s)
    ∧ (∀ (x : EngId) gd2 gs2 c2, x.val ≠ p.val → tileOf x = tileOf p → t.keyToken = some p.val →
        exec (.kload p gd gs ctx (some (x, gd2, gs2, c2))) s = .next (kloadPair p gd gs ctx x.castSucc gd2 gs2 c2 s))
    ∧ (∀ (x : EngId) gd2 gs2 c2, x.val ≠ p.val → tileOf x = tileOf p → t.keyToken = some x.val →
        exec (.kload p gd gs ctx (some (x, gd2, gs2, c2))) s = .next (kloadPair x.castSucc gd2 gs2 c2 p gd gs ctx s))
    ∧ (k.st ≠ 1 → k.st ≠ 2 → ∃ u, exec (.kwait p gd ctx) s = .next u ∧ ((u.eng p).ctx ctx).keyEvt = false
        ∧ (∀ n, (u.proc p).reg n = if n = 0 then 0 else ((s.proc p).linkAt n).getD (if n = gd then BitVec.ofNat 32 k.status else (s.proc p).reg n)))
    ∧ (k.st = 3 → e.refs ctx = false → k.heldUse = none → ∃ u, exec (.krel p ctx) s = .next u ∧ SameRegs s u p
        ∧ ((u.eng p).ctx ctx).st = 0 ∧ ((u.eng p).ctx ctx).key = 0 ∧ ((u.eng p).ctx ctx).status = 2
        ∧ ∀ c, c ≠ ctx.val → (u.eng p).ctx c = (s.eng p).ctx c)
    ∧ (sel.toNat ≤ 6 → ∃ u, exec (.kset p gs ctx sel) s = .next u ∧ SameRegs s u p ∧ SameMemory s u
        ∧ (u.eng p).ctx ctx = k.setParam sel.toNat h ∧ ((u.eng p).ctx ctx).param sel.toNat = h ∧ ∀ c, c ≠ ctx.val → (u.eng p).ctx c = (s.eng p).ctx c)
    ∧ (sel.toNat ≤ 6 ∨ sel = 8 ∨ sel = 9 → s.yields (.kget p gd ctx sel) p gd (k.param sel.toNat)))
  ∧ (∀ (s : State) (e : EngId) (ctx : Fin 4) (r : Nat), ((s.eng e).ctx ctx).st = 1 → ((s.eng e).ctx ctx).result = some r → (s.eng e).cuTesting = false →
    ∃ t, exec (.kloadResolve e ctx) s = .next t
      ∧ ((t.eng e).ctx ctx).st = (if r = 0 then 3 else if r = 1 then 2 else 0) ∧ ((t.eng e).ctx ctx).status = r
      ∧ ((t.eng e).ctx ctx).gd = none ∧ ((t.eng e).ctx ctx).key = ((s.eng e).ctx ctx).key
      ∧ (∀ gd, ((s.eng e).ctx ctx).gd = some gd → gd ≠ 0 → (t.eng e).proc.reg gd = BitVec.ofNat 32 r ∧ (t.eng e).proc.isBusy gd = false)
      ∧ (∀ n, ((s.eng e).ctx ctx).gd ≠ some n → (t.eng e).proc.reg n = (s.eng e).proc.reg n)
      ∧ ∀ c, c ≠ ctx.val → (t.eng e).ctx c = (s.eng e).ctx c)

/-- The hash unit. HINIT starts a hash; HABS queues a range of data RAM or scratch (the warden's SRAM), and HABS_COMPLETE takes its bytes in order, or
halts the engine with ECC_FATAL where they cannot be corrected; HFIN, with nothing outstanding, makes the digest ready and gives 0; HGET reads its
words, and 0 beyond it. A range outside one region or over 2 MiB raises LOAD_FAULT. Rests on R66, R67, R109. -/
def Obligations.HashInstructionsComplete : Prop :=
  ∀ (s : State) (p : Pid) (gd gs gt : Reg) (alg index : U5), CanIssue s p [gd, gs, gt] → (p.val ≠ 128 → s.hashFailed p = false) →
    let r := s.proc p
    let u := r.hash
    let a := (r.reg gs).toNat
    let n := (r.reg gt).toNat
    (alg.toNat ≤ 5 → ∃ t, exec (.hinit p alg) s = .next t ∧ SameRegs s t p ∧ SameMemory s t
      ∧ (t.proc p).hash = { alg := some alg.toNat, data := [], queue := [], digest := none })
    ∧ (s.habsLoc p a n = none → exec (.habs p gs gt) s = .next (s.takeException p 0x04 (r.reg gs)))
    ∧ (0x200000 < n → s.habsLoc p a n = none)
    ∧ (∀ l, s.habsLoc p a n = some l → u.alg.isSome = true → u.queue.length < 4 → ∃ t, exec (.habs p gs gt) s = .next t ∧ SameRegs s t p
      ∧ (t.proc p).hash = { u with queue := u.queue ++ [{ loc := l, len := n }] })
    ∧ (∀ x q, u.queue = x :: q → ∃ t, exec (.habsComplete p 0) s = .next t ∧ t = s.setProc p (t.proc p)
      ∧ (t.proc p).hash = { u with queue := q, data := u.data ++ s.ownBytes p x.loc x.len } ∧ ∀ k, (t.proc p).reg k = r.reg k)
    ∧ (∀ x q, u.queue = x :: q → p.val ≠ 128 → ∃ t, exec (.habsComplete p 2) s = .next t ∧ (t.eng p).run = 2 ∧ (t.eng p).hcause = 3 ∧ (t.proc p).hash = u
      ∧ SameMemory s t)
    ∧ (∀ g, u.alg = some g → u.queue = [] → ∃ t, exec (.hfin p gd) s = .next t ∧ (t.proc p).hash = { u with digest := some (hashDigest g u.data) }
      ∧ ∀ k, (t.proc p).reg k = if k = 0 then 0 else (r.linkAt k).getD (if k = gd then 0 else r.reg k))
    ∧ (u.alg = none → s.yields (.hfin p gd) p gd 0xFFFFFFFF ∧ s.yields (.hget p gd index) p gd 0)
    ∧ (∀ g d, u.alg = some g → u.digest = some d → s.yields (.hget p gd index) p gd (wordAt d index.toNat)
      ∧ (d.length ≤ 4 * index.toNat → wordAt d index.toNat = 0))

/-- The system operations that go on: SETMODE sets a shadow after which the mode holds; ERET restores MODE and the PC, re-arms a pending mode and clears
EXL; EVWAIT ends at once or suspends, and its resumption completes it; FENCE with nothing outstanding and FLUSHI complete. Rests on R53, R57, R69,
R70, R71, R98, R104. -/
def Obligations.SystemOpsComplete : Prop :=
  ∀ (s : State) (p : Pid) (gs : Reg), (s.proc p).delay = none → (s.proc p).sup = true →
    let r := s.proc p
    (CanIssue s p [gs] → r.shadow = none → (r.reg gs).toNat < 4 → ∃ t, exec (.setmode p gs) s = .next t ∧ t = s.setProc p (t.proc p) ∧ SameRegs s t p
      ∧ (t.proc p).shadow = some ((r.reg gs).truncate 2) ∧ (t.proc p).mode = r.mode ∧ KeepsRest r (t.proc p)
      ∧ (t.proc p).retire.mode = (r.reg gs).truncate 2 ∧ (t.proc p).retire.shadow = none)
    ∧ (CanIssue s p [gs] → 4 ≤ (r.reg gs).toNat ∨ r.shadow.isSome = true →
        exec (.setmode p gs) s = .next (s.takeException p 0x01 (encReg 0x30 0 gs 0 0)))
    ∧ (CanIssue s p [] → r.shadow = none → ∃ t, exec (.eret p) s = .next t ∧ t = s.setProc p (t.proc p) ∧ (∀ n, (t.proc p).reg n = r.reg n)
      ∧ (t.proc p).mode = r.estat.extractLsb' 0 2 ∧ (t.proc p).exl = false ∧ (t.proc p).pc = r.epc &&& ~~~3#32
      ∧ (t.proc p).shadow = (if r.estat.getLsbD 3 then some (r.estat.extractLsb' 4 2) else none)
      ∧ (p.val ≠ 128 → (t.proc p).stale = []) ∧ (t.proc p).epc = r.epc ∧ (t.proc p).lstat = r.lstat ∧ (t.proc p).instret = r.instret + 1)
    ∧ (CanIssue s p [] → s.wakeWord p ≠ 0 → ∃ t, exec (.evwait p) s = .next t ∧ Completes s t p 0 none)
    ∧ (CanIssue s p [] → s.wakeWord p = 0 → ∃ t, exec (.evwait p) s = .next t ∧ (t.proc p) = { r with waiting := true } ∧ t.running p = false)
    ∧ (r.waiting = true → s.wakeWord p ≠ 0 → r.ie = false → ∃ t, exec (.evwaitResume p) s = .next t ∧ (t.proc p).waiting = false ∧ SameRegs s t p
      ∧ (t.proc p).instret = r.instret + 1)
    ∧ (CanIssue s p [] → r.loads = [] → r.stores = [] → r.port = [] → ∃ t, exec (.fence p) s = .next t ∧ Completes s t p 0 none)
    ∧ (CanIssue s p [] → r.loads ≠ [] ∨ r.stores ≠ [] ∨ r.port ≠ [] → exec (.fence p) s = .next s)
    ∧ (CanIssue s p [] → (∀ x ∈ r.stores, x.loc.space ≠ 0 ∧ x.loc.space ≠ 4) → ∃ t, exec (.flushi p) s = .next t ∧ SameRegs s t p ∧ SameMemory s t
      ∧ (t.proc p).stale = [] ∧ (t.proc p).stores = r.stores)

/-- Taking an exception outside a handler: TRAP, BREAK, an illegal word, a parity error, an instruction of a user program that is marked supervisor, and
an accepted interrupt each write ESTAT, EPC, ECAUSE and EVAL, set supervisor mode with interrupts off, and go on at EVEC; no general register and no
memory changes. For TRAP, BREAK, an illegal word and an accepted interrupt this entry is the command's own effect. An exception that arrives in a
handler (EXL = 1) is not taken, whatever its cause: a lane engine halts with DOUBLE_FAULT, its first EPC, ECAUSE and EVAL kept, and an engine fault
enters its die's queue; the warden restarts. TRAP shows it. Rests on R49, R69, R99, R101, R102, R105, R106; R103, R319, R330. -/
def Obligations.ExceptionsEnterOnce : Prop :=
  (∀ (s : State) (p : Pid) (code : U10) (word : Word), (s.proc p).exl = false →
    let r := s.proc p
    let enters := fun (c : Instr) (cause eval : Word) =>
      ∃ t, exec c s = .next t ∧ (t.proc p).ecause = cause ∧ (t.proc p).eval = eval ∧ (t.proc p).pc = r.evec ∧ (t.proc p).mode = 2#2
        ∧ (t.proc p).epc = (match r.delay with | some d => d.branch | none => r.pc)
        ∧ (t.proc p).exl = true ∧ (t.proc p).estat.getLsbD 2 = r.delay.isSome
        ∧ (r.shadow = none → r.delay = none → (t.proc p).estat.extractLsb' 0 2 = r.mode ∧ (t.proc p).estat.getLsbD 3 = false
          ∧ (t.proc p).estat.extractLsb' 4 2 = r.estat.extractLsb' 4 2)
        ∧ (∀ m, r.shadow = some m → r.delay = none → (t.proc p).estat.extractLsb' 0 2 = r.mode ∧ (t.proc p).estat.getLsbD 3 = true
          ∧ (t.proc p).estat.extractLsb' 4 2 = m)
        ∧ (t.proc p).delay = none ∧ (t.proc p).shadow = none ∧ (t.proc p).waiting = false ∧ (t.proc p).instret = r.instret
        ∧ (∀ n, (t.proc p).reg n = r.reg n) ∧ SameMemory s t
    (CanIssue s p [] → r.delay = none → enters (.trap p code) 0x09 (code.zeroExtend 32))
    ∧ (CanIssue s p [] → enters (.breakpoint p) 0x0A 0)
    ∧ (CanIssue s p [] → decodeSialven p word = none → enters (.illegal p word false) 0x01 word)
    ∧ (CanIssue s p [] → p.val ≠ 128 → enters (.illegal p word true) 0x0B r.pc)
    ∧ (s.running p = true → s.fetchOk p r.pc = false → enters (.trap p code) 0x03 r.pc)
    ∧ (s.canAccept p = true → r.ie = true → s.wakeWord p ≠ 0 → enters (.interruptAccept p) 0x80000000 (s.wakeWord p)))
  ∧ (∀ (s : State) (p : Pid) (code : U10) (cause eval : Word), (s.proc p).exl = true →
    let t := s.takeException p cause eval
    (CanIssue s p [] → (s.proc p).delay = none → cause = 0x09 → eval = code.zeroExtend 32 → exec (.trap p code) s = .next t)
    ∧ (p.val ≠ 128 → (t.eng p).run = 2 ∧ (t.eng p).hcause = 2 ∧ (t.proc p).epc = (s.proc p).epc
      ∧ (t.proc p).ecause = (s.proc p).ecause ∧ (t.proc p).eval = (s.proc p).eval ∧ (∀ n, (t.proc p).reg n = (s.proc p).reg n) ∧ SameMemory s t
      ∧ (p.val < 64 → s.domOn 36 = true → t.flt.events0 = s.flt.events0 ++ [{ cause := 0x01, index := p.val, detail := (s.proc p).epc, time := s.time.extractLsb' 0 32 }])
      ∧ (64 ≤ p.val → s.domOn 36 = true → t.flt.events1 = s.flt.events1 ++ [{ cause := 0x01, index := p.val, detail := (s.proc p).epc, time := s.time.extractLsb' 0 32 }]))
    ∧ (p.val = 128 → t.warden.proc.pc = 0x10000000 ∧ t.warden.fw = false ∧ t.vault.restarts = s.vault.restarts + 1 ∧ t.warden.sram = s.warden.sram))

/-- In user mode every instruction marked supervisor, every K instruction, every CWR and every CRD of a register that user mode may not read takes PRIV
with its own word. Rests on R69, R100. -/
def Obligations.UserModeTakesPriv : Prop :=
  ∀ (s : State) (p : Pid) (gd gs : Reg) (ctx : Fin 4) (num : Imm), CanIssue s p [] → (s.proc p).sup = false → (s.proc p).delay = none → (s.proc p).shadow = none →
    exec (.eret p) s = .next (s.takeException p 0x02 (encReg 0x30 0 0 0 1))
    ∧ exec (.evwait p) s = .next (s.takeException p 0x02 (encReg 0x30 0 0 0 3))
    ∧ exec (.flushi p) s = .next (s.takeException p 0x02 (encReg 0x30 0 0 0 5))
    ∧ (num.toNat ∈ crWritable → exec (.cwr p num gs) s = .next (s.takeException p 0x02 (encImm 0x32 0 gs num)))
    ∧ (num.toNat ∈ crNumbers → crUser num.toNat = false → exec (.crd p gd num) s = .next (s.takeException p 0x02 (encImm 0x31 gd 0 num)))
    ∧ (p.val ≠ 128 → exec (.kload p gd gs ctx none) s = .next (s.takeException p 0x02 (encReg 0x0D gd gs ctx 0))
      ∧ exec (.kwait p gd ctx) s = .next (s.takeException p 0x02 (encReg 0x0D gd 0 ctx 1))
      ∧ exec (.krel p ctx) s = .next (s.takeException p 0x02 (encReg 0x0D 0 0 ctx 2))
      ∧ ∀ sel : U5, sel.toNat ≤ 6 → exec (.kset p gs ctx sel) s = .next (s.takeException p 0x02 (encReg 0x0D 0 gs ctx (sel.toNat * 64 + 3)))
        ∧ exec (.kget p gd ctx sel) s = .next (s.takeException p 0x02 (encReg 0x0D gd 0 ctx (sel.toNat * 64 + 4))))
    ∧ ((s.proc p).isBusy gs = false → ((s.proc p).reg gs).toNat < 4 → exec (.setmode p gs) s = .next (s.takeException p 0x02 (encReg 0x30 0 gs 0 0)))

/-- The warden's control of an engine whose tile is powered: reset, halt request, release, the halt point, one step, and the late-halt fault; each touches
only that engine (and its tile's queued key requests, for a reset). The warden's doorbell counts once; a deadline is applied whole with its arming,
and DEADLINE is set once TIME reaches an armed deadline; writing ARM = 0 clears it. Rests on R92, R93, R94, R139; R88, R90, R91. -/
def Obligations.EngineControlAndEventsTake : Prop :=
  (∀ (s : State) (e : EngId), s.tileOn (e.val / 8) = true →
    let g := s.eng e
    (∃ t, exec (.engineReset e) s = .next t ∧ (t.eng e).proc = Proc.init 0 ∧ (t.eng e).run = 2 ∧ (t.eng e).halt = true ∧ (t.eng e).hcause = 4
      ∧ (t.eng e).even = 0 ∧ (t.eng e).xferCnt = 0 ∧ (t.eng e).xferAck = 0 ∧ (t.eng e).wdbCnt = 0 ∧ (t.eng e).wdbAck = 0 ∧ (t.eng e).dlArm = false
      ∧ (∀ c, (t.eng e).ctx c = { KeyCtx.init with heldUse := (g.ctx c).heldUse }) ∧ (t.eng e).cuTesting = true ∧ (t.eng e).cuLast = 0xFF ∧ (t.eng e).iram = g.iram ∧ (t.eng e).dram = g.dram
      ∧ ∀ k, k ≠ e.val → t.eng k = s.eng k)
    ∧ exec (.halt e) s = .next (s.setEng e { g with halt := true })
    ∧ (g.run = 2 → exec (.engineRelease e) s = .next (s.setEng e { g with halt := false, run := 0, hcause := 0, proc := { g.proc with pc := g.haltpc, stale := [] } }))
    ∧ (g.run = 0 → g.halt = true → g.proc.shadow = none → (∀ d, g.proc.delay = some d → d.shadowOf = none) →
      ∃ t, exec (.haltPoint e) s = .next t ∧ (t.eng e).run = 2 ∧ (t.eng e).hcause = 1
        ∧ (t.eng e).haltpc = (match g.proc.delay with | some d => d.branch | none => g.proc.pc) ∧ (t.eng e).proc.regs = g.proc.regs ∧ SameMemory s t
        ∧ ∀ k, k ≠ e.val → t.eng k = s.eng k)
    ∧ (g.run = 0 → g.halt = true → exec (.engHaltLate e) s = .next (s.faultEvent (e.val / 64) 0x05 e g.proc.epc))
    ∧ (g.run = 2 → g.halt = true → g.proc.waiting = false → g.haltpc.toNat < 0x7FFC → g.haltpc.toNat % 4 = 0 → g.proc.lstat = 0 →
      g.proc.delay = none → g.proc.shadow = none → g.proc.busy = 0 →
      ∀ (gd gs : Reg) (imm : Imm), Memory.bytes g.iram g.haltpc.toNat 4 = leBytes 4 (encImm 0x01 gd gs imm).toNat →
        ∃ t, exec (.stepEngine e) s = .next t ∧ (t.eng e).run = 2 ∧ (t.eng e).hcause = 1 ∧ (t.eng e).haltpc = g.haltpc + 4
          ∧ (∀ n, (t.eng e).proc.reg n = if n = 0 then 0 else if n = gd.val then g.proc.reg gs + imm.signExtend 32 else g.proc.reg n)))
  ∧ (∀ (s : State) (e : EngId) (v : Word), s.tileOn (e.val / 8) = true →
    let g := s.eng e
    exec (.wdbsetRing e) s = .next (s.setEng e { g with wdbCnt := g.wdbCnt + 1 })
    ∧ (∃ t, exec (.deadlineArm e v) s = .next t ∧ (t.eng e).deadline = (v &&& 0x7FFFFFFF#32) ++ g.dlLo ∧ (t.eng e).dlArm = v.getLsbD 31
      ∧ (v.getLsbD 31 = false → (t.eng e).dlHit = false) ∧ ∀ k, k ≠ e.val → t.eng k = s.eng k)
    ∧ (g.dlArm = true → g.deadline ≤ s.time → exec (.deadlineReached e) s = .next (s.setEng e { g with dlHit := true }))
    ∧ ((s.eventWord e).getLsbD 6 = (g.wdbCnt != g.wdbAck)) ∧ ((s.eventWord e).getLsbD 7 = g.dlHit) ∧ ((s.eventWord e).getLsbD 2 = (g.xferCnt != g.xferAck))
    ∧ ((s.eventWord e).getLsbD 8 = g.evPurge) ∧ ((s.eventWord e).getLsbD 9 = g.evRate))

/-- GO checks the staged descriptor in the order of R134 and reports in ENGn_DMSTAT; an accepted one binds a transfer that has latched its contexts to its
slot, and ends it at once with HOST_ERROR where its PRP entries break the PRP rules (R242). Release frees the slot; a read of ENGn_DMDONE takes the
oldest entry. Rests on R131 to R136. -/
def Obligations.TransfersStartAndEnd : Prop :=
  ∀ (s : State) (e : EngId) (k : SlotId), s.tileOn (e.val / 8) = true →
    let g := s.eng e
    let d := g.desc
    (∃ t, exec (.dmgo e) s = .next t ∧ (t.eng e).dmSlot = d.slot ∧ (t.eng e).dmResult = s.goCheck e d
      ∧ (s.goCheck e d ≠ 0 → t = s.setEng e { g with dmSlot := d.slot, dmResult := s.goCheck e d })
      ∧ (s.goCheck e d = 0 → ¬ (d.dir ≤ 1 ∧ prpBad d.prp1 d.prp2 d.plen = true) → ((t.eng e).slot d.slot).xfer = some (g.newXfer d))
      ∧ (s.goCheck e d = 0 → d.dir ≤ 1 → prpBad d.prp1 d.prp2 d.plen = true → g.cuTesting = false →
        ((t.eng e).slot d.slot).xfer = some { g.newXfer d with phase := 2, outcome := 0x34 } ∧ (t.eng e).xferCnt = g.xferCnt + 1
        ∧ (t.ctl d.func).ledger.violations = (s.ctl d.func).ledger.violations + 1))
    ∧ ((g.slot d.slot).xfer.isSome = true → s.goCheck e d = 0x20)
    ∧ ((g.slot d.slot).xfer = none → d.len = 0 → s.goCheck e d = 0x21)
    ∧ ((g.slot d.slot).xfer = none → s.badDesc e d = false → g.cuFault = true → s.goCheck e d = 0x17)
    ∧ ((g.slot d.slot).xfer = none → s.badDesc e d = false → g.cuFault = false → d.dir = 2 ∨ d.dir = 3 → g.accsHeld ≤ 1024 → s.goCheck e d = 0)
    ∧ (∃ t, exec (.dmrel e k) s = .next t ∧ ((t.eng e).slot k).xfer = none ∧ ((t.eng e).slot k).drv = none ∧ (t.eng e).relSlot = k.val
      ∧ ((g.slot k).busy = true → (s.ctl (g.slot k).func).waitCpl = [] → ((t.eng e).slot k).busy = false))
    ∧ (∀ w r, g.dmDone = w :: r → exec (.dmdoneRead e) s = .next (s.setEng e { g with dmDone := r }) ∧ s.dmDoneRead e = (w, s.setEng e { g with dmDone := r }))

/-- A drive's read and write through its window, served by a running transfer: a read from scratch gives the bytes of the source range and a write into
scratch puts them in the destination range; a held read of host data is answered with its block encrypted; bytes of an access that no live transfer
takes are refused. Rests on R27, R28, R121, R122, R136, R137. -/
def Obligations.DriveAccessesComplete : Prop :=
  ∀ (s : State) (d : DriveId) (a : DWord) (x : Xfer), (s.drive d).window = true → s.relayIn d a = true → relayKind a = false → s.relayXfer d a = some x →
    x.phase = 0 → x.parked = false →
    let e := relayEngine a
    let k := relaySlot a
    let o := relayOffset a
    (x.dir = 3 → ∀ len, o + len ≤ x.len → ∃ t, exec (.driveMemRead d a len 0) s = .next t
      ∧ t.out = .driveData d (Memory.bytes (s.tile (e / 8)).scratch (x.src + o) len) :: s.out ∧ SameMemory s t)
    ∧ (x.dir = 2 → ∀ data, o + data.length ≤ x.len → ∃ t, exec (.driveMemWrite d a data 0) s = .next t
      ∧ (∀ i < data.length, t.locByte ⟨2, e / 8, x.dst + o + i⟩ = data.getD i 0)
      ∧ (∀ l, ¬(Loc.mk 2 (e / 8) (x.dst + o)).covers data.length l → t.locByte l = s.locByte l))
    ∧ (x.dir = 0 → ∀ len, o + len ≤ x.len → ∃ t, exec (.driveMemRead d a len 0) s = .next t ∧ t.out = s.out
      ∧ ((t.eng e).slot k).xfer = some { x with held := x.held ++ [{ drive := d, offset := o, len := len, isMeta := false }] })
    ∧ (∀ len, x.len < o + len → ∃ t, exec (.driveMemRead d a len 0) s = .next t ∧ t.out.head? = some (.driveRefuse d 1)
      ∧ ((s.drive d).st ≠ 4 → ((s.drive d).vtimes.filter fun u => s.now - u ≤ 100000000).length < 7 →
        (t.drive d).vcnt = (s.drive d).vcnt + 1 ∧ (t.drive d).code = 4 ∧ (t.drive d).st = (s.drive d).st))

/-- An XTS write's held read is answered with its data encrypted under the latched key; the tag pass of a GCM-sector write puts tag, VERSION and STAMP
into the metadata range; ciphertext that equals its plaintext disables the unit instead; a REKEY whose LBAs all pass the plaintext guard reaches MOVED
and queues its entry. Rests on R115, R121 to R129, R136. -/
def Obligations.CipherPassesComplete : Prop :=
  ∀ (s : State) (e : EngId) (k : SlotId) (x : Xfer) (l : Latched), ((s.eng e).slot k).xfer = some x → x.phase = 0 → x.parked = false → x.c1 = some l →
    (s.ctl x.func).hostq = [] →
    (x.dir = 0 → l.gcm = false → s.canSend x.func = true → ∀ (h : HeldRead) (data : List Byte), x.held = [h] → h.isMeta = false → data.length = h.cover.2 - h.cover.1 →
      let ct := x.encRange l h.cover.1 data
      ∃ t, exec (.hostDataReturn e k h.cover.1 data 0) s = .next t
        ∧ if passesThrough data ct then (t.eng e).cuFault = true else t.out = .driveData h.drive ((ct.drop (h.offset - h.cover.1)).take h.len) :: s.out ∧ SameMemory s t)
    ∧ (x.dir = 0 → l.gcm = true → s.canSend x.func = true → ∀ (u : Fin 1024) data, u.val < x.lbaCount → (x.lba u).record = none → data.length = x.unit → x.held = [] →
      let ct := x.encRange l (u.val * x.unit) data
      ∃ t, exec (.tagPassComplete e k u data 0) s = .next t ∧ if passesThrough data ct then (t.eng e).cuFault = true else t.out = s.out
        ∧ Memory.bytes (t.tile (e.val / 8)).scratch (x.mofs + u.val * x.stride) x.stride
          = padTo x.stride (l.lbaTag u l.version.toNat l.aad ct ++ l.aad))
    ∧ (x.dir = 4 → ∃ t, exec (.rekeyMoved e k 0) s = .next t ∧ if (s.rekey e k).2 then (t.eng e).cuFault = true else
        (((t.eng e).slot k).xfer.map Xfer.phase) = some 1 ∧ (t.eng e).xferCnt = (s.eng e).xferCnt + 1
        ∧ (t.eng e).dmDone.length = (s.eng e).dmDone.length + 1)

/-- The cipher unit's tests: a run of ENGn_CUTEST starts a periodic test, a test passed after an engine reset clears FAULT, a failed one, one during which
the rail code check failed or a stage time-out disables the unit, which clears its contexts and raises an engine fault. Rests on R114, R117, R138 to
R141. -/
def Obligations.UnitTestsComplete : Prop :=
  ∀ (s : State) (e : EngId), s.tileOn (e.val / 8) = true →
    let g := s.eng e
    (g.cuTesting = false → exec (.cutestRun e) s = .next (s.setEng e { g with cuTesting := true, cuPeriodic := true, cuRail := false }))
    ∧ (g.cuTesting = true → g.cuPeriodic = false → g.cuRail = false → ∃ t, exec (.selftestEnd e 0) s = .next t ∧ (t.eng e).cuTesting = false
      ∧ (t.eng e).cuFault = (g.cuFault && !g.cuReset)
      ∧ (t.eng e).cuLast = 0 ∧ t.flt = s.flt)
    ∧ (g.cuTesting = true → g.cuRail = true → ∃ t, exec (.selftestEnd e 0) s = .next t ∧ (t.eng e).cuFault = true ∧ (t.eng e).cuLast = 4 ∧ (t.eng e).cuTesting = false)
    ∧ (g.cuTesting = true → g.cuRail = false → ∃ t, exec (.selftestEnd e 2) s = .next t ∧ (t.eng e).cuFault = true ∧ (t.eng e).cuLast = 2 ∧ (t.eng e).cuTesting = false)
    ∧ (∃ t, exec (.cuStageTimeout e) s = .next t ∧ (t.eng e).cuFault = true ∧ (∀ c < 4, ((t.eng e).ctx c).st ≠ 3 ∧ ((t.eng e).ctx c).st ≠ 2)
      ∧ (s.domOn 36 = true → e.val < 64 → t.flt.events0 = s.flt.events0 ++ [{ cause := 0x03, index := e.val, detail := g.proc.epc, time := s.time.extractLsb' 0 32 }])
      ∧ (s.domOn 36 = true → 64 ≤ e.val → t.flt.events1 = s.flt.events1 ++ [{ cause := 0x03, index := e.val, detail := g.proc.epc, time := s.time.extractLsb' 0 32 }]))

/-- The tile's key cache: a fill ends with the first check that its record fails, its entry is VALID or FREE, and its request is answered; a fill that
starts reads its record with KSBASE as it then stands; the clock frees a victim while fewer than LOWWATER entries are free; the head of the queue
takes a freed entry; a pin is set, refused by generation, or cleared. Rests on R146, R154, R155, R157, R159, R160, R171. -/
def Obligations.KeyCacheServes : Prop :=
  ∀ (s : State) (t : TileId) (slot : BitVec 20) (gen : Fin 16) (err : Bool),
    let x := s.tile t
    (∀ i (q : FillReq), x.find slot.toNat = some i → (x.entry i).st = 1 → (x.entry i).reqs = [q] → (x.entry i).pinReq = none → x.pinGo = false →
      (bitOf (x.entry i).base.toNat 8 = true → x.wk = none → s.vault.wk = none) → ((s.eng q.eng).ctx q.ctx).st = 2 →
      let r := (x.entry i).record
      let v := fillCheck (bitOf (x.entry i).base.toNat 8) x.wk err slot.toNat (x.entry i).gens r
      ∃ u, exec (.keyFillComplete t slot err) s = .next u
        ∧ ((u.tile t).entry i) = (if v.1 = 0 then { CacheEntry.init with st := 2, tag := recTag r, key := v.2, refd := true } else CacheEntry.init)
        ∧ ((u.eng q.eng).ctx q.ctx).status = (if v.1 = 0 ∧ q.gen ≠ recGen r then 0x11 else v.1)
        ∧ (v.1 = 0 → q.gen = recGen r → ((u.eng q.eng).ctx q.ctx).st = 3 ∧ ((u.eng q.eng).ctx q.ctx).key = v.2)
        ∧ (v.1 = 0x14 → (u.tile t).errUnwrap = true) ∧ (v.1 = 0x19 → (u.tile t).errDram = true))
    ∧ (∀ en wk (r : List Byte), (en = false → (fillCheck en wk err slot.toNat [gen.val] r).1 = 0x10) ∧ (en = true → wk = none → (fillCheck en wk err slot.toNat [gen.val] r).1 = 0x13)
      ∧ (∀ k, en = true → wk = some k → err = true → (fillCheck en wk err slot.toNat [gen.val] r).1 = 0x19)
      ∧ (∀ k, en = true → wk = some k → err = false → (recFmt r ≠ 1 ∨ recSlot r ≠ slot.toNat) → (fillCheck en wk err slot.toNat [gen.val] r).1 = 0x14)
      ∧ (∀ k, en = true → wk = some k → err = false → recFmt r = 1 → recSlot r = slot.toNat → recState r = 0 → (fillCheck en wk err slot.toNat [gen.val] r).1 = 0x10)
      ∧ (∀ k, en = true → wk = some k → err = false → recFmt r = 1 → recSlot r = slot.toNat → recState r = 1 → recEpoch r = k.2 → recGen r ≠ gen.val →
        (fillCheck en wk err slot.toNat [gen.val] r).1 = 0x11))
    ∧ (s.tileOn t = true → x.freeCount < x.low → (x.entry x.hand).st = 2 → (x.entry x.hand).pin = false → (x.entry x.hand).refd = false →
        (x.entry x.hand).delta = 0 → x.pinGo = false →
        exec (.evict t) s = .next (s.setTile t ({ x with hand := (x.hand + 1) % 512, due := x.due.filter fun d => d.1 ≠ (x.entry x.hand).tag.slot }.setEntry x.hand CacheEntry.init)))
    ∧ (∀ w rest i, x.waitq = w :: rest → x.freeEntry = some i → x.fillRoom = true → x.find w.slot = none → ((s.eng w.eng).ctx w.ctx).st = 2 →
        ∃ u, exec (.keyWaitGrant t) s = .next u ∧ (u.tile t).waitq = rest ∧ (u.tile t).kcMiss = x.kcMiss + 1
          ∧ ((u.tile t).entry i).st = 1 ∧ ((u.tile t).entry i).tag.slot = w.slot ∧ ((u.tile t).entry i).reqs = [{ eng := w.eng, ctx := w.ctx, gen := w.gen }]
          ∧ ((u.tile t).entry i).base = x.ksbase ∧ ((u.tile t).entry i).record = s.dramBytes (recAddr x.ksbase (dieOfTile t) w.slot) 128
          ∧ ∀ e, u.eng e = s.eng e)
    ∧ (∀ i, s.tileOn t = true → x.pinGo = false → x.find slot.toNat = some i → (x.entry i).st = 2 → x.pinned < 448 →
        ∃ u, exec (.kcpinPin t slot gen) s = .next u ∧ (u.tile t).pinGo = false
          ∧ ((x.entry i).tag.gen = gen.val → (u.tile t).pinResult = 0 ∧ ((u.tile t).entry i).pin = true)
          ∧ ((x.entry i).tag.gen ≠ gen.val → (u.tile t).pinResult = 2 ∧ ((u.tile t).entry i) = x.entry i)
          ∧ (s.domOn 36 = true → u.warden.pend.getLsbD (48 + t.val) = true))
    ∧ (s.tileOn t = true → x.pinGo = false → ∃ u, exec (.kcpinUnpin t slot) s = .next u ∧ (u.tile t).pinGo = false
        ∧ (∀ i, x.find slot.toNat = some i → (x.entry i).pin = true → (u.tile t).pinResult = 0 ∧ (u.tile t).entry i = { x.entry i with pin := false })
        ∧ (x.find slot.toNat = none → (u.tile t).pinResult = 3 ∧ (u.tile t).cache = x.cache))

/-- Keys and counts of a tile: the wrapping key comes as one token, a purge leaves no matching key in an entry or a context, a second purge sets OVF, and
counts (of a full buffer, first a report register) reach their records through the write-back buffer. Rests on R21, R35, R36, R147, R162 to R165,
R169, R170, R180. -/
def Obligations.KeyCustodyAndCounts : Prop :=
  ∀ (s : State) (t : TileId) (scope : Fin 4) (key : BitVec 20) (slot : BitVec 20),
    let x := s.tile t
    (∀ k, s.vault.wk = some k → s.vault.line = [] → s.tileOn t = true → exec (.keyDelivery t false) s = .next (s.setTile t { x with wk := some (k, s.vault.epoch) })
      ∧ exec (.keyDelivery t true) s = .next (s.faultEvent (t / 8) 0x13 t 0))
    ∧ (∀ err, s.vault.wk = none → exec (.keyDelivery t err) s = .next s)
    ∧ (s.tileOn t = true → x.purgeGo = true → exec (.kcpurgeGo t scope key true) s = .next (s.setTile t { x with purgeOvf := true }))
    ∧ (s.tileOn t = true → x.purgeGo = false → exec (.kcpurgeGo t scope key false) s = .next (s.setTile t { x with purgeScope := scope, purgeKey := key.toNat, purgeGo := true }))
    ∧ (x.purgeGo = false → s.tileOn t = true → ∃ u, exec (.kcpurgeGo t scope key true) s = .next u ∧ (u.tile t).purgeGo = false
        ∧ (∀ i, ((u.tile t).entry i).st = 2 → purgeMatch scope key.toNat ((u.tile t).entry i).tag = false)
        ∧ (∀ e c, e / 8 = t.val → c < 4 → ((u.eng e).ctx c).st = 3 → purgeMatch scope key.toNat ((u.eng e).ctx c).tag = false)
        ∧ (∀ n, n ≠ t.val → u.tile n = s.tile n) ∧ (∀ e, e / 8 ≠ t.val → (∀ i, ∀ q ∈ (x.entry i).reqs, q.eng ≠ e) → u.eng e = s.eng e)
        ∧ (s.domOn 36 = true → u.warden.pend.getLsbD (32 + t.val) = true))
    ∧ (s.tileOn t = true → s.noCounts t = true → x.due.any Prod.snd = false → ∃ u, exec (.kcctrlWbflush t) s = .next u ∧ (u.tile t).wbFlush = false ∧ (s.domOn 36 = true → u.warden.pend.getLsbD (48 + t.val) = true))
    ∧ (s.tileOn t = true → x.wb ≠ [] → ∃ u, exec (.kcctrlWbflush t) s = .next u ∧ (u.tile t).wbFlush = true)
    ∧ (∀ w rest, x.wb = w :: rest →
        let a := recAddr x.ksbase 0 w.tag.slot
        let r := s.dramBytes a 128
        (recFmt r = 1 → recSlot r = w.tag.slot → recGen r = w.tag.gen → recState r = 1 →
          ∃ u, exec (.writebackItem t) s = .next u ∧ leAt (u.dramBytes a 128) 104 8 = (leAt r 104 8 + w.count) % 2 ^ 64
            ∧ (∀ b, b < a + 104 ∨ a + 112 ≤ b → u.dramByte b = s.dramByte b))
        ∧ (recSlot r ≠ w.tag.slot ∨ recGen r ≠ w.tag.gen ∨ recState r ≠ 1 → ∃ u, exec (.writebackItem t) s = .next u ∧ ∀ b, u.dramByte b = s.dramByte b))
    ∧ (∀ i, x.find slot.toNat = some i → (x.entry i).delta ≠ 0 → x.wb.length < 32 → exec (.deltaAgeExpiry t slot) s
        = .next (s.setTile t { x.setEntry i { x.entry i with delta := 0 } with
            due := x.due.filter fun d => d.1 ≠ (x.entry i).tag.slot
            wb := x.wb ++ [{ tag := (x.entry i).tag, count := (x.entry i).delta, flush := x.due.any fun d => d.1 = (x.entry i).tag.slot && d.2 }] }))
    ∧ (∀ i e c, x.find slot.toNat = some i → (x.entry i).delta ≠ 0 → 32 ≤ x.wb.length → s.reportReg t (x.entry i).tag = some (e, c) → ((s.eng e).ctx c).heldUse = none →
        ∃ u, exec (.deltaAgeExpiry t slot) s = .next u ∧ ((u.eng e).ctx c).heldUse = some ((x.entry i).tag, (x.entry i).delta) ∧ ((u.tile t).entry i).delta = 0
          ∧ (u.tile t).wb = x.wb)
    ∧ (x.wb ≠ [] → x.wbPromoted = false → ∃ u, exec (.writebackPromote t) s = .next u
        ∧ u.tile t = { x with wbPromoted := true, wbLost := 0, wbAged := x.wbAged + 1 } ∧ ∀ e, u.eng e = s.eng e)

/-- An engine's queues, slots and spill blocks: each pop takes the head, CMDDEFER returns an elastic command to its controller's spill queue, CPLPOST
posts the tenant completion once, SLOTGET claims a free slot with the next generation, SLOTCLS sets a class, and spill blocks are granted, queued,
collected and returned; the token's holder goes first of two requests in one resolution. Rests on R29, R133, R161, R223 to R229, R235, R245. -/
def Obligations.SlotsAndSpillComplete : Prop :=
  ∀ (s : State) (e : EngId) (t : TileId) (v : Word), s.tileOn (e.val / 8) = true →
    let g := s.eng e
    let k := fld v.toNat 8 0
    let x := g.slot k
    (∀ j rest, g.cmdq = j :: rest → ∃ u, exec (.cmdpop e) s = .next u ∧ u.eng e = { g with cmdq := rest } ∧ (∀ i, i ≠ e.val → u.eng i = s.eng i)
        ∧ ((∀ p ∈ s.molts, p.2.engine = e.val → s.moltReady p.1 = false) → u = s.setEng e { g with cmdq := rest }))
    ∧ (g.dcqHold = [] → exec (.dcqpop e) s = .next (s.setEng e { g with dcq := g.dcq.tail }))
    ∧ (∃ u, exec (.dcqpop e) s = .next u ∧ (u.eng e).dcq ++ (u.eng e).dcqHold = g.dcq.tail ++ g.dcqHold)
    ∧ exec (.moltpop e) s = .next (s.setEng e { g with moltq := g.moltq.tail })
    ∧ (x.busy = true → x.delivered = true → x.cls = 1 → x.xfer = none → x.posted = false → x.mute = false → (s.ctl x.func).ending = false →
        (s.ctl x.func).cfs = false → ((s.ctl x.func).sq x.sqid).deleting = none → s.spillRoom x.func = true →
        ∃ u, exec (.cmddefer e v) s = .next u ∧ ((u.eng e).slot k).busy = false ∧ ((u.eng e).slot k).gen = x.gen
          ∧ (u.ctl x.func).spill = (s.ctl x.func).spill ++ [{ entry := x.entry, since := s.now }])
    ∧ (x.busy = false ∨ x.cls ≠ 1 → ∃ u, exec (.cmddefer e v) s = .next u ∧ (u.eng e).slot k = x ∧ (u.eng e).errDef = true ∧ (u.eng e).errSlot = k)
    ∧ (x.busy = true → x.delivered = true → x.posted = false → x.mute = false →
        let q := (s.ctl x.func).sq x.sqid
        let n := v.toNat
        let c : Cpl := { sqid := x.sqid, cid := x.cid, dw0 := g.cplDw0, sct := fld n 27 25, sc := fld n 24 17, dnr := bitOf n 30
                         crd := if (s.ctl x.func).acre then fld n 29 28 else 0, src := some (e.val, k) }
        q.live = true → s.cplHeld x.func c = false → s.cplRoom (portOf x.func) = true →
        ∃ u, exec (.cplpost e v) s = .next u ∧ ((u.eng e).slot k).posted = true ∧ .completion x.func q.cq c ∈ u.out)
    ∧ (x.busy = false ∨ x.posted = true → ∃ u, exec (.cplpost e v) s = .next u ∧ u.out = s.out ∧ (u.eng e).slot k = x ∧ ∀ f, u.ctl f = s.ctl f)
    ∧ (s.cplRoom (portOf x.func) = false → ∃ u, exec (.cplpost e v) s = .next u ∧ u.out = s.out ∧ (u.eng e).slot k = x ∧ (u.queue (1536 + portOf x.func)).ovf = true)
    ∧ (g.freeSlots = [] → exec (.slotget e) s = .next s)
    ∧ (g.freeSlots ≠ [] → ∃ u, ∃ j ∈ g.freeSlots, exec (.slotget e) s = .next u
        ∧ (u.eng e).slot j = { Slot.init with busy := true, cls := 1, gen := ((g.slot j).gen + 1) % 16 } ∧ ∀ i, i ≠ j → (u.eng e).slot i = g.slot i)
    ∧ (x.busy = true → fld v.toNat 30 28 = 0 ∨ fld v.toNat 30 28 = 1 ∨ fld v.toNat 30 28 = 5 → ∃ u, exec (.slotcls e v) s = .next u
        ∧ (u.eng e).slot k = { x with cls := fld v.toNat 30 28 } ∧ (u.eng e).errCls = g.errCls ∧ ∀ i, i ≠ k → (u.eng e).slot i = g.slot i)
    ∧ (x.busy = false → ∃ u, exec (.slotcls e v) s = .next u ∧ (u.eng e).slot k = x ∧ (u.eng e).errCls = true)
    ∧ (g.spOut < 4 → (s.tile (e.val / 8)).spq = [] → fld v.toNat 15 8 = 0 → fld v.toNat 2 0 = 1 → (∃ b < 512, b ∉ (s.tile (e.val / 8)).spUsed) →
        ∃ u, ∃ b < 512, exec (.spreq e v none) s = .next u ∧ b ∉ (s.tile (e.val / 8)).spUsed ∧ b ∈ (u.tile (e.val / 8)).spUsed
          ∧ (u.eng e).grants = g.grants ++ [{ block := b, run := 1, queued := false }] ∧ (u.eng e).spOut = g.spOut + 1)
    ∧ (g.spOut < 4 → (s.tile (e.val / 8)).spq ≠ [] → fld v.toNat 15 8 = 0 → fld v.toNat 2 0 = 1 →
        ∃ u, exec (.spreq e v none) s = .next u ∧ (u.tile (e.val / 8)).spq = (s.tile (e.val / 8)).spq ++ [{ eng := e.val, run := 0 }]
          ∧ (u.tile (e.val / 8)).spUsed = (s.tile (e.val / 8)).spUsed ∧ (u.eng e).grants = g.grants)
    ∧ (∀ (e2 : EngId) v2, e ≠ e2 → e2.val / 8 = e.val / 8 →
        ((s.tile (e.val / 8)).spToken = some e.val → exec (.spreq e v (some (e2, v2))) s = .next (s.spPair e v e2 v2))
        ∧ ((s.tile (e.val / 8)).spToken = some e2.val → exec (.spreq e v (some (e2, v2))) s = .next (s.spPair e2 v2 e v)))
    ∧ (∀ w rest b, (s.tile t).spq = w :: rest → w.eng / 8 = t.val → w.run ≠ 0 → (List.range 512).find? ((s.tile t).runFree w.run) = some b →
        ∃ u, exec (.spillGrant t) s = .next u ∧ (u.tile t).spq = rest ∧ (u.eng w.eng).grants = (s.eng w.eng).grants ++ [{ block := b, run := w.run, queued := true }]
          ∧ ∀ i < w.run, b + i ∈ (u.tile t).spUsed)
    ∧ (∀ y rest, g.grants = y :: rest → exec (.spgntRead e) s = .next (s.setEng e { g with grants := rest, spOut := g.spOut - 1 }))
    ∧ (∃ u, exec (.spret e v) s = .next u ∧ (∀ b, b ∈ (u.tile (e.val / 8)).spUsed ↔ b ∈ (s.tile (e.val / 8)).spUsed ∧ b ≠ k)
        ∧ (u.tile (e.val / 8)).spq = (s.tile (e.val / 8)).spq)

/-- What an engine reports of a molt and what the warden does with it, the events of the gates, and the molt's timers: a claim opens a window over closed
gates, a fingerprint is journalled before the window goes on, a done window moves the watermark, a resolved one follows the journal, a failed one is
tried again after 10 ms. Rests on R192, R195 to R203, R206. -/
def Obligations.MoltPostsAct : Prop :=
  ∀ (s : State) (e : EngId) (m : MoltId) (q : QuadId) (fp : DWord),
    let r := s.molt m
    let g := (s.quad q).gate m
    let work := (s.queue (256 + r.engine)).en = true ∧ (s.eng r.engine).moltq.length < 64
    (s.fwUp = true → (s.queue (384 + e.val)).en = true → (s.eng e).moltPost = [] → r.engine = e.val →
      (s.moltReady m = true → s.moltGates m ≠ [] →
        let t := s.updMolt m fun r => { r with st := 2, wlimit := s.moltLimit m, promoted := false, lost := 0, since := s.now }
        (t.updMolt m fun r => { r with wend := r.wmark + t.moltWindow m, win := 1 }).moltBlocks (e / 8) ≤ 128 → ∃ u, exec (.moltpostClaim e m) s = .next u ∧ (u.molt m).st = 2 ∧ (u.molt m).win = 1 ∧ (u.molt m).wmark = r.wmark ∧ (u.molt m).wend = r.wmark + t.moltWindow m
        ∧ (g.en = true → g.closed = false → ((u.quad q).gate m).closed = true ∧ ((u.quad q).gate m).lo = r.wmark ∧ ((u.quad q).gate m).hi = (u.molt m).wend
          ∧ ((u.quad q).gate m).phase = !g.phase))
      ∧ (r.st = 2 → r.win = 2 → r.pcause = 0 → s.moltCauses m = [] → work → ∃ u, exec (.moltpostFingerprint e m fp) s = .next u ∧ (u.molt m).win = 3
        ∧ u.journalOf m = { used := true, nsx := r.nsx, band := r.band, pend := true, pcause := 0, old := r.old, new := r.new, wmark := r.wmark
                            wlen := r.wend - r.wmark, fp := fp }
        ∧ (u.eng e).moltq = (s.eng e).moltq ++ [(2, m.val)])
      ∧ (r.win = 3 → ∃ u, exec (.moltpostDone e m) s = .next u ∧ (u.molt m).wmark = r.wend ∧ (u.molt m).moved = r.moved + (r.wend - r.wmark)
        ∧ (u.molt m).wseq = r.wseq + 2 ∧ (r.wend < r.bend → g.en = true → ((u.quad q).gate m).closed = false))
      ∧ (r.win = 4 → r.st ≠ 0 → ∃ u, exec (.moltpostResolvedNew e m) s = .next u ∧ (u.molt m).wmark = (s.journalOf m).wmark + (s.journalOf m).wlen
        ∧ (u.molt m).moved = r.moved + (s.journalOf m).wlen ∧ (u.journalOf m).pend = false)
      ∧ (r.win = 4 → r.st ≠ 0 → ∃ u, exec (.moltpostResolvedOld e m) s = .next u ∧ (u.molt m).wmark = (s.journalOf m).wmark ∧ (u.molt m).moved = r.moved
        ∧ (u.journalOf m).pend = false)
      ∧ (r.win = 2 → r.fails < 7 → r.wmark < r.bend → ∃ u, exec (.moltpostFailed e m) s = .next u ∧ (u.molt m).win = 0 ∧ (u.molt m).retry = true
        ∧ (u.molt m).fails = r.fails + 1 ∧ (u.molt m).wmark = r.wmark)
      ∧ (r.win = 3 → r.fails < 7 → ∃ u, exec (.moltpostFailed e m) s = .next u ∧ (u.molt m).win = 6 ∧ (u.molt m).retry = true))
    ∧ ((s.queue (384 + e.val)).en = false → s.fwUp = false → exec (.moltpostDone e m) s = .next (s.setQueue (384 + e.val) { s.queue (384 + e.val) with ovf := true }))
    ∧ (s.fwUp = false → (s.queue (384 + e.val)).en = true → (s.eng e).moltPost.length < 64 → exec (.moltpostDone e m) s = .next (s.setEng e { s.eng e with moltPost := (s.eng e).moltPost ++ [{ kind := 3, molt := m, fp := 0 }] }))
    ∧ (r.retry = true → s.moltGates m ≠ [] → ∃ u, exec (.moltRetryTimer m) s = .next u ∧ (u.molt m).retry = false)
    ∧ (r.promoted = false → r.st ≠ 0 → s.moltReady m = true ∨ (1 ≤ r.win ∧ r.win ≤ 4) → 256 ≤ r.lost ∨ 10000000 ≤ s.now - r.since → ∃ u, exec (.moltAgingPromote m) s = .next u ∧ u.molt m = { r with promoted := true } ∧ u.quads = s.quads)
    ∧ (g.closed = false → exec (.gateClose q m) s = .next (s.setQuad q ((s.quad q).setGate m
        { g with closed := true, phase := !g.phase, lo := g.loR.toNat, hi := g.hiR.toNat, drainedEvt := false })))
    ∧ (g.closed = true → exec (.gateClose q m) s = .next (s.setQuad q ((s.quad q).setGate m { g with err := true })))
    ∧ (g.closed = true → g.held = [] → exec (.gateOpen q m) s = .next (s.setQuad q ((s.quad q).setGate m { g with closed := false, drainedEvt := false })))
    ∧ (s.fwUp = true → g.drained = true → g.drainedEvt = false → s.moltDrained m = true → r.win = 1 → work → ∃ u, exec (.gateDrained q m) s = .next u
        ∧ (u.molt m).win = 2 ∧ (u.molt m).drains = 0 ∧ ((u.quad q).gate m).drainedEvt = true ∧ (u.eng r.engine).moltq = (s.eng r.engine).moltq ++ [(1, m.val)]
        ∧ u.warden.pend.getLsbD (80 + q.val) = true)
    ∧ (s.fwUp = true → g.closed = true → g.drained = false → r.win = 1 → r.drains < 7 → r.wmark < r.bend → ∃ u, exec (.gateDrainTimeout q m) s = .next u
        ∧ (u.molt m).win = 0 ∧ (u.molt m).drains = r.drains + 1 ∧ (u.molt m).retry = true ∧ (u.molt m).wmark = r.wmark)

/-- The dispatchers: a doorbell sets a tail or a head, or is a counted violation, or is not taken where the BAR is closed; a fetched entry goes to the
warden or, by class, to a slot of its home tile's least occupied engine; the spill head is dispatched when its bucket has filled; the admission table
is written and read through its window, and is in force where the quadrant serves the controller; the ledgers are copied; a queue that stays full
fails its controller. Rests on R209, R216, R220, R221, R223, R231 to R235, R242, R246, R247. -/
def Obligations.DispatchersServe : Prop :=
  ∀ (s : State) (f : FuncId) (q : QuadId) (index : Fin 130) (value : Word) (sqe : Bytes),
    let c := s.ctl f
    let i := index.val / 2
    let v := fld value.toNat 15 0
    let x := s.quad q
    let w := toWords 16 sqe
    let cid := fld (w.getD 0 0).toNat 31 16
    let quiet := s.release q = s
    let lands := fun (u : State) (e cls : Nat) (en : Entry) => ∃ j ∈ (s.eng e).freeSlots, ((u.eng e).slot j).busy = true ∧ ((u.eng e).slot j).delivered = true
      ∧ ((u.eng e).slot j).cls = cls ∧ ((u.eng e).slot j).func = en.func ∧ ((u.eng e).slot j).sqid = en.sqid ∧ ((u.eng e).slot j).sqe = en.sqe
      ∧ ((u.eng e).slot j).cid = fld (en.sqe.getD 0 0).toNat 31 16 ∧ (u.eng e).cmdq = (s.eng e).cmdq ++ [j]
    (s.barOpen f = false → exec (.sqDoorbell f index value) s = .next s)
    ∧ (s.barOpen f = true → index.val % 2 = 0 → (c.sq i).live = true → v < (c.sq i).size →
        exec (.sqDoorbell f index value) s = .next (s.setCtl f (c.setSq i { c.sq i with tail := v })))
    ∧ (s.barOpen f = true → index.val % 2 = 1 → (c.cq i).live = true → v < (c.cq i).size →
        ∃ u, exec (.sqDoorbell f index value) s = .next u ∧ ((u.ctl f).cq i).head = v ∧ (u.ctl f).ledger = c.ledger)
    ∧ (s.barOpen f = true → index.val % 2 = 0 → (c.sq i).live = false ∨ (c.sq i).size ≤ v →
        ∃ u, exec (.sqDoorbell f index value) s = .next u ∧ (u.ctl f).ledger.violations = c.ledger.violations + 1
          ∧ ((u.ctl f).sq i).tail = (c.sq i).tail)
    ∧ (quiet → x.en = true → s.flt.qquad.getLsbD q = false → ringNext (s.ring q true) x.curA x.turnA = some (f.val, 0) → (c.sq 0).cids.contains cid = false →
        ∃ u, exec (.sqEntryFetch q sqe false) s = .next u ∧ (u.quad q).admin = x.admin ++ [(f.val, w)]
          ∧ ((u.ctl f).sq 0).head = ((c.sq 0).head + 1) % max 1 (c.sq 0).size ∧ ((u.ctl f).sq 0).cids = (c.sq 0).cids ++ [cid])
    ∧ (∀ k e n, quiet → x.en = true → s.flt.qquad.getLsbD q = false → ringNext (s.ring q true) x.curA x.turnA = some (f.val, k) → k ≠ 0 →
        s.nsOf f (w.getD 1 0).toNat = some n → s.engineFor f = some e → (s.eng e).freeSlots ≠ [] → s.pwr.stage < 3 →
        let en : Entry := { func := f, sqid := k, sqe := w, nsx := n, cost := s.costOf n w, fetched := s.now, heldBy := none, conflict := (c.sq k).cids.contains cid }
        (s.quad (s.funcQuad f)).gateFor en = none → c.spill = [] → s.costOf n w * 2560 ≤ ((s.fillBkt f).ctl f).bktC →
        ∃ u, exec (.sqEntryFetch q sqe false) s = .next u ∧ lands u e 0 en ∧ (u.ctl f).bktC = ((s.fillBkt f).ctl f).bktC - s.costOf n w * 2560
          ∧ (u.ctl f).ledger.admCommitted = c.ledger.admCommitted + 1)
    ∧ (∀ k e, quiet → x.en = true → s.flt.qquad.getLsbD q = false → ringNext (s.ring q true) x.curA x.turnA = some (f.val, k) → k ≠ 0 →
        s.nsOf f (w.getD 1 0).toNat = none → s.engineFor f = some e → (s.eng e).freeSlots ≠ [] →
        ∃ u, exec (.sqEntryFetch q sqe false) s = .next u ∧ lands u e 4 { func := f, sqid := k, sqe := w, nsx := 0, cost := 0, fetched := 0, heldBy := none, conflict := false })
    ∧ (∀ k, quiet → x.en = true → s.flt.qquad.getLsbD q = false → ringNext (s.ring q true) x.curA x.turnA = some (f.val, k) → c.cfs = false →
        ∃ u, exec (.sqEntryFetch q sqe true) s = .next u ∧ (u.ctl f).cfs = true)
    ∧ (∀ y rest e, quiet → x.en = true → s.flt.qquad.getLsbD q = false → s.pwr.stage < 3 → (s.funcsOf q).filter (fun f => !(s.ctl f).spill.isEmpty) = [f.val] →
        c.spill = y :: rest → y.entry.func = f.val → 5 ≤ (s.queue (512 + f.val)).headW → (s.quad (s.funcQuad f)).gateFor y.entry = none → s.engineFor f = some e →
        (s.eng e).freeSlots ≠ [] → y.entry.cost * 2560 ≤ ((s.fillBkt f).ctl f).bktC →
        ∃ u, exec (.spillService q false) s = .next u ∧ (u.ctl f).spill = rest ∧ lands u e 0 y.entry)
    ∧ (quiet → x.en = true → s.flt.qquad.getLsbD q = false → s.pwr.stage < 3 → (s.funcsOf q).filter (fun f => !(s.ctl f).spill.isEmpty) = [f.val] → s.engineFor f = none →
        exec (.spillService q true) s = .next (s.faultEvent (q.val / 2) 0x20 q 0))
    ∧ (∃ u, exec (.admidxWr q f) s = .next u ∧ u.admEntry q f = (x.admw0, x.admw1 &&& 0xFFF01FFF#32) ∧ (u.quad q).admFunc = f.val ∧ (u.ctl f).spill = c.spill
        ∧ (s.funcQuad f = q → (u.ctl f).admw0 = x.admw0 ∧ (u.ctl f).admw1 = x.admw1 &&& 0xFFF01FFF#32) ∧ (s.funcQuad f ≠ q → u.ctls = s.ctls)
        ∧ (s.pwr.overridden = false → ∀ k, k ≠ f.val → u.ctl k = s.ctl k))
    ∧ exec (.admidxRd q f) s = .next (s.setQuad q { x with admFunc := f.val, admw0 := (s.admEntry q f).1, admw1 := (s.admEntry q f).2, admSpill := if s.funcQuad f = q then c.spill.length else 0 })
    ∧ (∃ u, exec (.ledgerCopy q) s = .next u ∧ (f.val ∈ s.funcsOf q → (u.ctl f).ledgerCopy = { c.ledger with spillDepth := c.spill.length })
        ∧ (f.val ∉ s.funcsOf q → u.ctl f = c))
    ∧ (c.d3 = false → c.cfs = false → (c.waitCpl.any fun y => (c.cq (c.sq y.sqid).cq).full) = true → ∃ u, exec (.cqFullTimeout f) s = .next u
        ∧ (u.ctl f).cfs = true ∧ (u.ctl f).ledger.violations = c.ledger.violations + 1)

/-- The queue commands, Abort and Asynchronous Event Request of a virtual controller, each served as the first of its controller's entries; an opcode that
R216 does not list completes with Invalid Command Opcode. Rests on R209, R216, R241, R242, R286. -/
def Obligations.QueueCommandsComplete : Prop :=
  ∀ (s : State) (f : FuncId) (w : List Word), AdminReady s f w →
    let c := s.ctl f
    let op := fld (wd w 0) 7 0
    let id := fld (wd w 10) 15 0
    let size := fld (wd w 10) 31 16
    (op = 5 → fld (wd w 11) 15 2 = 0 → anyDw w [8, 9, 12, 13, 14, 15] = false → id ≠ 0 → id ≤ ioQueues f → (c.cq id).live = false → 0 < size → size ≤ 0xFFF → bitOf (wd w 11) 0 = true →
        fld (wd w 11) 31 16 < vectorsOf f → wd w 6 % 4096 = 0 →
        ∃ u, exec (.createIoCq f) s = .next u ∧ AdminAnswer u f w 0 0 0 false
          ∧ (u.ctl f).cq id = { Cq.init with live := true, size := size + 1, vector := fld (wd w 11) 31 16, irq := bitOf (wd w 11) 1
                                             base := pair64 (w.getD 6 0) (w.getD 7 0) })
    ∧ (op = 5 → fld (wd w 11) 15 2 = 0 → anyDw w [8, 9, 12, 13, 14, 15] = false → id = 0 ∨ ioQueues f < id ∨ (c.cq id).live = true →
        ∃ u, exec (.createIoCq f) s = .next u ∧ AdminAnswer u f w 0 1 0x01 true ∧ (id ≠ 0 → (u.ctl f).cq id = c.cq id))
    ∧ (op = 1 → fld (wd w 11) 15 3 = 0 → fld (wd w 12) 31 16 = 0 → anyDw w [8, 9, 13, 14, 15] = false → id ≠ 0 → id ≤ ioQueues f → (c.sq id).live = false → 0 < size → size ≤ 0xFFF → bitOf (wd w 11) 0 = true →
        fld (wd w 11) 31 16 ≠ 0 → (c.cq (fld (wd w 11) 31 16)).live = true → wd w 6 % 4096 = 0 →
        ∃ u, exec (.createIoSq f) s = .next u ∧ AdminAnswer u f w 0 0 0 false
          ∧ (u.ctl f).sq id = { Sq.init with live := true, size := size + 1, cq := fld (wd w 11) 31 16, base := pair64 (w.getD 6 0) (w.getD 7 0) })
    ∧ (op = 4 → size = 0 → anyDw w [6, 7, 8, 9, 11, 12, 13, 14, 15] = false → id ≠ 0 → (c.cq id).live = true → (∀ p ∈ c.sqs, p.2.live = true → p.2.cq ≠ id) →
        ∃ u, exec (.deleteIoCq f) s = .next u ∧ AdminAnswer u f w 0 0 0 false ∧ (u.ctl f).cq id = Cq.init)
    ∧ (op = 4 → size = 0 → anyDw w [6, 7, 8, 9, 11, 12, 13, 14, 15] = false → id ≠ 0 → (c.cq id).live = true → (∃ p ∈ c.sqs, p.2.live = true ∧ p.2.cq = id) →
        ∃ u, exec (.deleteIoCq f) s = .next u ∧ AdminAnswer u f w 0 1 0x0C true ∧ (u.ctl f).cq id = c.cq id)
    ∧ (op = 0 → size = 0 → anyDw w [6, 7, 8, 9, 11, 12, 13, 14, 15] = false → id ≠ 0 → (c.sq id).live = true → (∀ p ∈ c.sqs, p.2.deleting = none) → (c.sq id).deleting = none →
        s.cmdsOf f (some id) = [] → c.ending = false →
        ∃ u, exec (.deleteIoSq f) s = .next u ∧ AdminAnswer u f w 0 0 0 false ∧ (u.ctl f).sq id = Sq.init ∧ ∀ x ∈ (u.ctl f).spill, x.entry.func = f.val → x.entry.sqid ≠ id)
    ∧ (op = 8 → anyDw w [6, 7, 8, 9, 11, 12, 13, 14, 15] = false → id = 0 → c.aers.contains (fld (wd w 10) 31 16) = true →
        ∃ u, exec (.abort f) s = .next u ∧ (u.ctl f).aers = c.aers.erase (fld (wd w 10) 31 16)
          ∧ .completion f 0 { sqid := 0, cid := fld (wd w 10) 31 16, dw0 := 0, sct := 0, sc := 0x07, dnr := false, crd := 0, src := none } ∈ u.out)
    ∧ (op = 8 → anyDw w [6, 7, 8, 9, 11, 12, 13, 14, 15] = false → id ≠ 0 → c.spill = [] → (∀ p ∈ (s.quad (s.funcQuad f)).gates, p.2.held = []) → s.cmdsOf f (some id) = [] →
        ∃ u, exec (.abort f) s = .next u ∧ AdminAnswer u f w 1 0 0 false)
    ∧ (op = 0x0C → anyDw w [6, 7, 8, 9, 10, 11, 12, 13, 14, 15] = false → c.aens = [] → c.aers.length < 4 → ∃ u, exec (.asyncEventRequest f) s = .next u ∧ (u.ctl f).aers = c.aers ++ [cidOf w] ∧ u.out = s.out)
    ∧ (op = 0x0C → anyDw w [6, 7, 8, 9, 10, 11, 12, 13, 14, 15] = false → c.aens = [] → 4 ≤ c.aers.length → ∃ u, exec (.asyncEventRequest f) s = .next u ∧ AdminAnswer u f w 0 1 0x05 true ∧ (u.ctl f).aers = c.aers)
    ∧ (∀ e rest, op = 0x0C → anyDw w [6, 7, 8, 9, 10, 11, 12, 13, 14, 15] = false → c.aens = e :: rest → ∃ u, exec (.asyncEventRequest f) s = .next u ∧ AdminAnswer u f w e 0 0 false ∧ (u.ctl f).aens = rest)
    ∧ (op = 5 → anyDw w [8, 9, 12, 13, 14, 15] = true → ∃ u, exec (.createIoCq f) s = .next u ∧ AdminAnswer u f w 0 0 0x02 true
        ∧ (u.ctl f).ledger.violations = c.ledger.violations + 1)
    ∧ (adminOpcode op = false → ∃ u, exec (.createIoCq f) s = .next u ∧ AdminAnswer u f w 0 0 0x01 true)

/-- Identify, Get Log Page, Set and Get Features, Format NVM and Sanitize of a virtual controller: the data returned, the value kept, and the status; a
Format or Sanitize whose tile is late marks its namespaces busy until the erase is done. Rests on R209, R211, R213, R216, R218, R239, R286. -/
def Obligations.AdminDataCommandsComplete : Prop :=
  ∀ (s : State) (f : FuncId) (w : List Word) (data : Bytes) (late : List TileId), AdminReady s f w →
    let c := s.ctl f
    let op := fld (wd w 0) 7 0
    let sel := fld (wd w 10) 7 0
    let nsid := wd w 1
    let r14 := fld (wd w 14) 31 7 = 0 ∧ anyDw w [12, 13, 15] = false
    (∀ n, op = 6 → fld (wd w 10) 15 0 = 0 → fld (wd w 11) 23 16 = 0 → r14 → nsid ≠ 0 → nsid ≤ 1024 → s.nsOf f nsid = some n → wd w 6 % 4 = 0 →
        ∃ u, exec (.nvmeIdentify f) s = .next u ∧ AdminReturns u f w (identNs (s.ns n)) ∧ AdminAnswer u f w 0 0 0 false)
    ∧ (op = 6 → fld (wd w 10) 15 0 = 2 → fld (wd w 11) 23 16 = 0 → r14 → nsid < 0xFFFFFFFE → wd w 6 % 4 = 0 → ∃ u, exec (.nvmeIdentify f) s = .next u
        ∧ AdminReturns u f w (padTo 4096 (((s.nsids f).filter (nsid < ·)).flatMap (leBytes 4))) ∧ AdminAnswer u f w 0 0 0 false)
    ∧ (op = 6 → fld (wd w 10) 15 0 = 2 → fld (wd w 11) 23 16 = 0 → r14 → nsid < 0xFFFFFFFE → wd w 6 % 4 ≠ 0 → ∃ u, exec (.nvmeIdentify f) s = .next u ∧ AdminAnswer u f w 0 0 0x13 true)
    ∧ (op = 2 → fld (wd w 14) 22 7 = 0 → wd w 15 = 0 → sel = 0x04 → wd w 12 = 0 → wd w 13 = 0 → fld (wd w 11) 15 0 = 0 → fld (wd w 10) 31 16 = 1023 → wd w 6 % 4 = 0 →
        ∃ u, exec (.getLogPage f) s = .next u ∧ AdminReturns u f w (padTo 4096 (c.changed.flatMap (leBytes 4))) ∧ AdminAnswer u f w 0 0 0 false
          ∧ (u.ctl f).changed = (if bitOf (wd w 10) 15 then c.changed else []))
    ∧ (op = 2 → fld (wd w 14) 22 7 = 0 → wd w 15 = 0 → sel ∉ [0x01, 0x02, 0x03, 0x04, 0x05, 0x81] → ∃ u, exec (.getLogPage f) s = .next u ∧ AdminAnswer u f w 0 1 0x09 true)
    ∧ (op = 9 → r14 → fld (wd w 10) 31 8 = 0 → sel = 0x08 → ∃ u, exec (.setFeatures f data) s = .next u ∧ AdminAnswer u f w 0 0 0 false
        ∧ Tbl.get 0 (u.ctl f).feats 8 = w.getD 11 0)
    ∧ (op = 9 → r14 → fld (wd w 10) 31 8 = 0 → sel = 0x07 → fld (wd w 11) 15 0 ≠ 0xFFFF → fld (wd w 11) 31 16 ≠ 0xFFFF →
        (∀ p ∈ c.sqs, p.1 ≠ 0 → p.2.live = false) → (∀ p ∈ c.cqs, p.1 ≠ 0 → p.2.live = false) →
        ∃ u, exec (.setFeatures f data) s = .next u ∧ AdminAnswer u f w
          (BitVec.ofNat 32 (min (fld (wd w 11) 31 16) (ioQueues f - 1) * 2 ^ 16 + min (fld (wd w 11) 15 0) (ioQueues f - 1))) 0 0 false)
    ∧ (op = 9 → r14 → fld (wd w 10) 30 8 = 0 → featureId sel = false → ∃ u, exec (.setFeatures f data) s = .next u ∧ AdminAnswer u f w 0 0 0x02 true
        ∧ (u.ctl f).feats = c.feats)
    ∧ (op = 0x0A → r14 → fld (wd w 10) 31 8 = 0 → sel = 0x08 → ∃ u, exec (.getFeatures f) s = .next u ∧ AdminAnswer u f w (Tbl.get 0 c.feats 8) 0 0 false
        ∧ (u.ctl f).feats = c.feats)
    ∧ (∀ n, op = 0x80 → anyDw w [6, 7, 8, 9, 11, 12, 13, 14, 15] = false → fld (wd w 10) 31 0 = 0 → s.nsOf f nsid = some n → ∃ u, exec (.formatNvm f late) s = .next u ∧ AdminAnswer u f w 0 0 0 false
        ∧ u.nss = s.nss)
    ∧ (∀ n t, op = 0x80 → anyDw w [6, 7, 8, 9, 11, 12, 13, 14, 15] = false → fld (wd w 10) 31 0 = 0x200 → nsid ≠ 0xFFFFFFFF → s.nsOf f nsid = some n → s.erases.length < 2 → s.vault.regBusy ≠ 3 →
        t ∈ late → s.tileOn t.val = true → ∃ u, exec (.formatNvm f late) s = .next u ∧ (u.ns n).busy = 1 ∧ u.erases.length = s.erases.length + 1
          ∧ (u.tile t.val).purgeGo = true)
    ∧ (op = 0x84 → anyDw w [6, 7, 8, 9, 12, 13, 14, 15] = false → fld (wd w 10) 31 0 = 1 → ∃ u, exec (.sanitize f late) s = .next u ∧ AdminAnswer u f w 0 0 0 false ∧ u.nss = s.nss)
    ∧ (∀ t, op = 0x84 → anyDw w [6, 7, 8, 9, 12, 13, 14, 15] = false → fld (wd w 10) 31 0 = 4 → s.erases = [] → s.vault.regBusy ≠ 3 → t ∈ late → s.tileOn t.val = true →
        ∃ u, exec (.sanitize f late) s = .next u ∧ (u.ctl f).sanitize = 2 ∧ u.erases.length = 1 ∧ (u.tile t.val).purgeGo = true)

/-- An I/O command that the engine's firmware takes up: a Read or Write whose range lies in one extent under a ready key becomes one transfer and one
drive command, a Flush one drive command, a Dataset Management with no AD bit completes at once; a refused or ill-formed one completes with its
status. Rests on R217, R219, R221, R236, R239, R240, R510. -/
def Obligations.IoCommandsComplete : Prop :=
  ∀ (s : State) (e : EngId) (k : SlotId) (ranges : Bytes) (rest : List Nat), s.fwRuns e = true →
    let g := s.eng e
    let x := g.slot k
    let n := s.ns x.nsx
    let room := fun (c : Cpl) => ((s.ctl x.func).sq x.sqid).live = true ∧ s.cplHeld x.func c = false
    let posts := fun (u : State) (st : Sts) (crd : Nat) =>
      let c : Cpl := { sqid := x.sqid, cid := x.cid, dw0 := 0, sct := st.1, sc := st.2.1, dnr := st.2.2, crd := if (s.ctl x.func).acre then crd else 0
                       src := some (e.val, k.val) }
      room c → .completion x.func ((s.ctl x.func).sq x.sqid).cq c ∈ u.out
    x.busy = true → x.delivered = true → x.started = false → x.posted = false → x.mute = false → g.cmdq = k.val :: rest → g.parts k = [] →
    x.drv = none → x.xfer = none → x.worst = none → x.rung = false → s.cplRoom (portOf x.func) = true →
    (x.cls = 4 → x.op = 2 → ∃ u, exec (.read e k) s = .next u ∧ posts u (0, 0x0B, true) 0)
    ∧ (x.cls = 2 → x.op = 1 → ∃ u, exec (.write e k) s = .next u ∧ posts u (0, 0x21, false) 1)
    ∧ (x.cls = 3 → x.op = 1 → ∃ u, exec (.write e k) s = .next u ∧ posts u (0, 0x21, false) 2)
    ∧ (x.cls ≤ 1 → x.op = 9 → bitOf (x.dw 11) 2 = false → s.ioCheck x (dsmRanges (fld (x.dw 10) 7 0 + 1) ranges) = none →
        ∃ u, exec (.datasetManagement e k ranges) s = .next u ∧ posts u (0, 0, false) 0)
    ∧ (∀ y, x.cls ≤ 1 → x.op = 0 → s.ioCheck x [] = none → n.extents = [y] → 0 < y.len → s.driveRow e (s.extDrive y) = none →
        (s.tile (e.val / 8)).sqRoom (s.extDrive y) = true →
        ∃ u, exec (.flush e k) s = .next u
          ∧ u.out = .driveCmd (s.extDrive y) (driveCid x.gen e k) 0 (BitVec.ofNat 32 (s.extNsid y)) 0 0 0 0 0 false :: s.out
          ∧ ((u.eng e).slot k).started = true ∧ ((u.eng e).slot k).drv.isSome = true)
    ∧ (∀ y h c, x.cls ≤ 1 → (x.op = 1 ∨ x.op = 2) → s.ioCheck x [] = none → n.lbads = 9 ∨ n.lbads = 12 → 0 < sqeNlb x.sqe →
        n.extentOf (sqeSlba x.sqe) = some y → sqeSlba x.sqe + sqeNlb x.sqe ≤ y.nstart + y.len → s.driveRow e (s.extDrive y) = none →
        (s.tile (e.val / 8)).sqRoom (s.extDrive y) = true → (s.drive (s.extDrive y)).ident.mdts = 0 → (s.extNs y).msize = 0 →
        sqeSlba x.sqe + sqeNlb x.sqe ≤ s.keyEnd x.nsx (n.bandOf (sqeSlba x.sqe)) (sqeSlba x.sqe) →
        s.keyAt x.nsx (n.bandOf (sqeSlba x.sqe)) (sqeSlba x.sqe) = some h → g.findKey h = (0, c) → (g.ctx c).tag.mode = 1 → g.cuFault = false →
        (g.ctx c).tag.admits x.func = true → s.funcQuad x.func = quadOfEng e → g.accsHeld ≤ 1024 →
        let dlba := y.dstart + (sqeSlba x.sqe - y.nstart)
        let fua := bitOf (x.dw 12) 30
        let len := sqeNlb x.sqe * 2 ^ n.lbads
        let base := s.relayBase (s.extDrive y / 2)
        let pages := fun (p2 : DWord) => (len ≤ 4096 → p2 = 0) ∧ (4096 < len → len ≤ 8192 → p2 = relayAddr base e k 4096)
        prpBad (pair64 (x.sqe.getD 6 0) (x.sqe.getD 7 0)) (pair64 (x.sqe.getD 8 0) (x.sqe.getD 9 0)) len = false →
        (8192 < len → (s.tile (e.val / 8)).spq = [] ∧ ∃ b < 512, (s.tile (e.val / 8)).runFree 1 b = true) →
        ((x.op = 1 → ∃ u p2, exec (.write e k) s = .next u ∧ pages p2
          ∧ u.out = .driveCmd (s.extDrive y) (driveCid x.gen e k) 1 (BitVec.ofNat 32 (s.extNsid y)) dlba (sqeNlb x.sqe) 0 (relayAddr base e k 0) p2 fua :: s.out
          ∧ (((u.eng e).slot k).xfer.map fun z => (z.phase, z.dir, z.len)) = some (0, 0, len))
        ∧ (x.op = 2 → ∃ u p2, exec (.read e k) s = .next u ∧ pages p2
          ∧ u.out = .driveCmd (s.extDrive y) (driveCid x.gen e k) 2 (BitVec.ofNat 32 (s.extNsid y)) dlba (sqeNlb x.sqe) 0 (relayAddr base e k 0) p2 fua :: s.out
          ∧ (((u.eng e).slot k).xfer.map fun z => (z.phase, z.dir, z.len)) = some (0, 1, len))))

/-- What the host does to a function: CC.EN = 1 makes the admin queue pair, CC.EN = 0 and a function level reset end the controller, VF Enable and CC.SHN
take effect, D3hot and D0 change the power state, and a vector's message is due when its timer expires or its mask falls. Rests on R241, R280, R286 to
R290, R336, R347, R456. -/
def Obligations.ControllerEventsComplete : Prop :=
  ∀ (s : State) (f : FuncId) (u : PortId) (asqs acqs : BitVec 12) (asq acq : DWord) (v : Fin 65) (shn : Fin 4) (num : U8),
    let c := s.ctl f
    let x := c.vec v
    (s.barOpen f = true → c.ccEn = false → c.ending = false → s.pwr.mode = 0 → ∃ t, exec (.ccEnable f asqs acqs asq acq) s = .next t
      ∧ (t.ctl f).ccEn = true ∧ (t.ctl f).sq 0 = { Sq.init with live := true, size := asqs.toNat + 1, base := asq }
      ∧ (t.ctl f).cq 0 = { Cq.init with live := true, size := acqs.toNat + 1, irq := true, base := acq }
      ∧ (s.fwUp = true → s.boot.store = 1 → (t.ctl f).rdy = true) ∧ (s.domOn 36 = true → t.warden.pend.getLsbD (18 + f.val / 256) = true))
    ∧ (s.barOpen f = true → c.ccEn = true → s.cmdsOf f none = [] → ∃ t, exec (.controllerReset f) s = .next t ∧ (t.ctl f).ccEn = false ∧ (t.ctl f).rdy = false
      ∧ (t.ctl f).ending = false ∧ (t.ctl f).sqs = [] ∧ (t.ctl f).cqs = [] ∧ (t.ctl f).aers = [] ∧ (t.ctl f).feats = [] ∧ (t.ctl f).cfs = false
      ∧ (t.ctl f).funcOn = true ∧ (t.ctl f).attach = c.attach ∧ (t.ctl f).admw0 = c.admw0)
    ∧ (c.funcOn = true → ∃ t, exec (.functionLevelReset f) s = .next t ∧ (t.ctl f).ccEn = false ∧ (t.ctl f).d3 = false ∧ (t.ctl f).vecs = [] ∧ (t.ctl f).sqs = []
      ∧ t.page f = (s.page f).reset ∧ (f.val % 256 = 0 → t.page (1024 + f.val / 256) = (s.page (1024 + f.val / 256)).reset))
    ∧ (∃ t, exec (.vfEnableChange u true num) s = .next t ∧ ∀ i < num.toNat, (t.ctl (256 * u.val + 1 + i)).funcOn = true)
    ∧ (∃ t, exec (.vfEnableChange u false num) s = .next t ∧ ∀ k, k / 256 = u.val → k % 256 ≠ 0 → (t.ctl k).funcOn = false)
    ∧ (s.barOpen f = true → c.shn ≠ shn.val → ∃ t, exec (.ccShnChange f shn) s = .next t ∧ (t.ctl f).shn = shn.val
      ∧ (s.domOn 36 = true → t.warden.pend.getLsbD (18 + f.val / 256) = true))
    ∧ (c.funcOn = true → c.d3 = false → ∃ t, exec (.d3hotEntry f) s = .next t ∧ (t.ctl f).d3 = true ∧ (∀ y ∈ (t.ctl f).spill, y.isData = false)
      ∧ t.out.filter (fun o => match o with | .completion k _ _ => k == f.val | _ => false) = s.out.filter (fun o => match o with | .completion k _ _ => k == f.val | _ => false))
    ∧ (c.d3 = true → s.upLink (f.val / 256) ≠ 8 → ∃ t, exec (.d0Return f) s = .next t ∧ (t.ctl f).d3 = false)
    ∧ (c.d3 = false → x.timer.isSome = true → x.held ≠ 0 → x.masked = false → s.canSend f = true → ∃ t, exec (.coalesceTimerExpiry f v) s = .next t
      ∧ t.out = .msix f v :: s.out ∧ (t.ctl f).vec v = { x with held := 0, timer := none, owed := false })
    ∧ (c.d3 = false → x.timer.isSome = true → x.held ≠ 0 → x.masked = true → ∃ t, exec (.coalesceTimerExpiry f v) s = .next t ∧ t.out = s.out
      ∧ (t.ctl f).vec v = { x with held := 0, timer := none, pending := true })
    ∧ (s.barOpen f = true → v.val < vectorsOf f → x.pending = false → ∃ t, exec (.msixUnmask f v) s = .next t ∧ t.out = s.out ∧ (t.ctl f).vec v = { x with masked := false, pending := false })
    ∧ (s.barOpen f = true → v.val < vectorsOf f → x.pending = true → s.canSend f = true → ∃ t, exec (.msixUnmask f v) s = .next t ∧ t.out = .msix f v :: s.out)

/-- The port groups: resets and link events of an upstream port set its link state and reset its functions, received TLPs and time-outs are answered or
counted by class, and PGn_CTRL enables, retrains and resets a slot. Rests on R273, R280, R281, R285, R295, R298, R299. -/
def Obligations.PortEventsComplete : Prop :=
  ∀ (s : State) (u : PortId) (port : Fin 32) (lat : Word),
    let g := port.val / 2
    let k := port.val % 2
    s.upSlot u = some (g, k) →
    let link := fun (t : State) => (t.group g).link k false
    let st := (link s).st
    let p := s.port u
    ((st = 3 ∨ st = 5) → p.aspmL1 = true ∨ s.allD3 u = true → ∃ t, exec (.l1Entry (port, false) 0 lat) s = .next t ∧ (link t).st = 5)
    ∧ (st = 5 → p.aspmL1 = true → p.l12 = true → p.clkreqHigh = true → p.l12thr ≤ lat.toNat → ∃ t, exec (.l1Entry (port, false) 2 lat) s = .next t ∧ (link t).st = 7)
    ∧ (5 ≤ st → st ≤ 7 → ∃ t, exec (.l1Exit (port, false)) s = .next t ∧ (link t).st = 3)
    ∧ (st = 3 → s.allD3 u = true → ∃ t, exec (.pmeTurnOff u) s = .next t ∧ (link t).st = 8)
    ∧ (p.perst = false → ∃ t, exec (.perstUpstream u true) s = .next t ∧ (link t).st = 1 ∧ (t.port u).perst = true ∧ ∀ f, f / 256 = u.val → (t.ctl f).funcOn = false)
    ∧ (p.perst = true → ∃ t, exec (.perstUpstream u false) s = .next t ∧ (link t).st = 2 ∧ (t.port u).perst = false)
    ∧ (∃ t, exec (.hotReset u) s = .next t ∧ (link t).st = 9 ∧ (t.port u).ide = [] ∧ ∀ f, f / 256 = u.val → (t.ctl f).funcOn = false)
    ∧ (∃ t, exec (.dlDown u) s = .next t ∧ (link t).st = 1 ∧ Tbl.get 0 (t.group g).vcnt 6 = Tbl.get 0 (s.group g).vcnt 6 + 1)
    ∧ (∀ (rate : Fin 7) (width : Fin 17), (s.group g).en.getLsbD k = true → p.perst = false → st ≠ 10 → st ≠ 8 → linkWidth (s.group g) k width = true → ∃ t, exec (.upstreamLinkUp u rate width) s = .next t ∧ (link t).st = 3
        ∧ (link t).rate = min (max 1 rate.val) (s.group g).maxRate ∧ (link t).width = width.val ∧ (t.ctl (256 * u.val)).funcOn = true)
    ∧ (∀ high, p.clkreqHigh ≠ high → ∃ t, exec (.clkreqEdge u high) s = .next t ∧ (t.port u).clkreqHigh = high ∧ (high = false → st = 6 ∨ st = 7 → (link t).st = 5)
        ∧ Tbl.get 0 t.warden.arrived (4 + u.val) = (Tbl.get 0 s.warden.arrived (4 + u.val) + 1) % 256)
    ∧ (∀ f : FuncId, f.val / 256 = u.val → (s.ctl f).cfs = false → ∃ t, exec (.completionTimeout (.fetch f)) s = .next t
        ∧ (t.ctl f).cfs = true ∧ Tbl.get 0 (t.group g).vcnt 5 = Tbl.get 0 (s.group g).vcnt 5 + 1)

/-- A received TLP is answered from the mailbox window, is an Unsupported Request, or is counted by class; PGn_CTRL enables, disables, retrains and resets
a slot; a downstream link enters and leaves L1. Rests on R278, R279, R289, R295, R298, R299. -/
def Obligations.PortRequestsComplete : Prop :=
  ∀ (s : State) (port : Fin 32) (b : Bool) (f : FuncId) (g : GroupId) (k : Fin 2) (off : BitVec 15) (w : Word),
    let gp := s.group (port.val / 2)
    let cnt := fun (t : State) (c : Nat) => Tbl.get 0 (t.group (port.val / 2)).vcnt c
    let mine := s.portDir port = true ∧ gp.upidx (port.val % 2) = f.val / 256
    let link := fun (t : State) => (t.group g).link k false
    let lk := fun (t : State) => (t.group (port.val / 2)).link (port.val % 2) b
    (mine → (s.ctl f).funcOn = true → (s.ctl f).d3 = false → (s.ctl f).ideReq = none →
        exec (.inboundTlp port b (.memRead f 0x200C none)) s = .next ((s.emit (.hostValue f (BitVec.ofNat 32 (b2n (s.page f).overrun * 2 ^ 31 + (s.page f).st)))).emit (.hostAnswer f 0))
        ∧ exec (.inboundTlp port b (.memWrite f 0x2000 w none)) s = .next (s.setPage f { s.page f with word := fld w.toNat 11 2 }))
    ∧ (mine → (s.ctl f).funcOn = false → exec (.inboundTlp port b (.memRead f off none)) s = .next (s.emit (.hostAnswer f 1)))
    ∧ (mine → exec (.inboundTlp port b (.config f)) s = .next (s.emit (.hostAnswer f (if (s.port (f.val / 256)).ready then 0 else 2))))
    ∧ (mine → ∀ v, exec (.inboundTlp port b (.devControl f v)) s = .next (s.setCtl f { s.ctl f with devctl := v }))
    ∧ (s.upPort port = none → (lk s).st = 3 ∨ (lk s).st = 5 → ∃ t, exec (.l1Entry (port, b) 1 w) s = .next t ∧ (lk t).st = 6)
    ∧ (s.upPort port = none → 5 ≤ (lk s).st → (lk s).st ≤ 7 → ∃ t, exec (.l1Exit (port, b)) s = .next t ∧ (lk t).st = 3)
    ∧ (∃ t, exec (.inboundTlp port b (.bad 3)) s = .next t ∧ cnt t 3 = cnt s 3 + 1 ∧ (s.domOn 36 = true → t.warden.pend.getLsbD (112 + port.val / 2) = true))
    ∧ (∃ t, exec (.replayTimerExpiry port b) s = .next t ∧ cnt t 0 = cnt s 0 + 1 ∧ (s.portDir port = true → t.out = .aer (gp.upidx (port.val % 2)) 0 :: s.out)
        ∧ (s.portDir port = false → t.out = s.out))
    ∧ ((s.group g).en.getLsbD k = false → s.cfgErr g = 0 → ∃ t, exec (.slotEnable g k true) s = .next t ∧ (t.group g).en.getLsbD k = true
        ∧ (link t).st = (if s.carriesPort g k then 1 else 0))
    ∧ ((s.group g).en.getLsbD k = false → s.cfgErr g ≠ 0 → exec (.slotEnable g k true) s = .next s)
    ∧ ((s.group g).en.getLsbD k = true → ∃ t, exec (.slotEnable g k false) s = .next t ∧ (t.group g).en.getLsbD k = false ∧ (link t).st = 0)
    ∧ ((link s).st = 3 → ∃ t, exec (.retrain g k) s = .next t ∧ (link t).st = 4)
    ∧ (∃ t, exec (.perstDownstream g k true) s = .next t ∧ (t.group g).perst.getLsbD k = true
        ∧ ((s.group g).dirUp k = false → (s.group g).en.getLsbD k = true → (link t).st = 1))
    ∧ exec (.perstDownstream g k false) s = .next (s.setGroup g { s.group g with perst := (s.group g).perst &&& ~~~(1#2 <<< k.val) })

/-- The reference clocks: the loss of the selected input fails over to the other or ends in holdover, an input qualifies after 10 ms, a switch ends when
the loops lock, CLK_CTRL.FORCE and switchback start one, and while the port clocks stop every link that is up waits. Rests on R291 to R294, R301. -/
def Obligations.ReferenceClocksComplete : Prop :=
  ∀ (s : State) (b oot : Bool),
    let c := s.clk
    let stops := fun (t : State) => ∀ (g : Nat) (k b : Nat), g < 16 → k < 2 → b < 2 → 2 ≤ ((s.group g).link k (b = 1)).st → ((t.group g).link k (b = 1)).st = 10
    (c.switching = false → c.auto = true → 2 ≤ c.inp (!c.sel) → ∃ t, exec (.refclkLoss oot) s = .next t ∧ stops t
        ∧ t.clk = { c.setInp c.sel (b2n oot) with switching := true, force := false, target := !c.sel } ∧ t.flt = s.flt)
    ∧ (c.switching = false → c.holdover = false → c.auto = false ∨ c.inp (!c.sel) < 2 → ∃ t, exec (.refclkLoss oot) s = .next t ∧ stops t
        ∧ t.clk = { c.setInp c.sel (b2n oot) with holdover := true, switching := false, force := false }
        ∧ (s.domOn 36 = true → t.flt.events0 = s.flt.events0 ++ [{ cause := 0x31, index := 0, detail := 0, time := s.time.extractLsb' 0 32 }]))
    ∧ (c.switching = false → exec (.refclkStandbyLoss oot) s = .next { s with clk := c.setInp (!c.sel) (b2n oot) })
    ∧ (c.inp b < 2 → c.holdover = false → exec (.refclkQualifying b) s = .next { s with clk := c.setInp b 2 })
    ∧ (c.inp b < 2 → c.holdover = true → c.switching = false → c.auto = true → ∃ t, exec (.refclkQualifying b) s = .next t
        ∧ t.clk = { c.setInp b 2 with switching := true, force := false, target := b })
    ∧ (c.inp b = 2 → c.switching = false → c.auto = false → exec (.refclkQualified b) s = .next { s with clk := c.setInp b 3 })
    ∧ (c.inp b = 2 → c.switching = false → c.holdover = false → c.auto = true → b = c.primary → c.sel ≠ c.primary → c.limit = false → ∃ t, exec (.refclkQualified b) s = .next t
        ∧ t.clk = { c.setInp b 3 with limit := true, switching := true, force := false, target := c.primary })
    ∧ (c.switching = true → c.auto = false → ∃ t, exec .relockComplete s = .next t
        ∧ t.clk = { c with sel := c.target, switching := false, force := false, holdover := false, primary := c.primaryReq, swcnt := if c.target ≠ c.sel then c.swcnt + 1 else c.swcnt }
        ∧ ∀ (g k : Nat) (b : Bool), g < 16 → k < 2 → ((s.group g).link k b).st = 10 → ((t.group g).link k b).st = 4)
    ∧ (c.switching = false → c.inp (!c.sel) = 3 → ∃ t, exec .clkForce s = .next t ∧ t.clk = { c with switching := true, force := true, target := !c.sel } ∧ stops t)
    ∧ (c.switching = true ∨ c.inp (!c.sel) ≠ 3 → exec .clkForce s = .next s)
    ∧ (c.auto = false → exec .switchbackLimitExpiry s = .next { s with clk := { c with limit := false } })

/-- The drives: bring-up to ACTIVE, completions and interrupts, the violations, time-outs and resets, quarantine and its release, and a link that goes
down. `calm` says that the drive is not quarantined and fewer than seven violations of it were counted in the last second. Rests on R29, R303 to R306,
R308 to R318, R490. -/
def Obligations.DrivesServe : Prop :=
  ∀ (s : State) (d : DriveId) (e : EngId) (k : SlotId) (t : TileId) (ident : DrvId) (cq : Fin 16) (sqid sqhd cid : BitVec 16) (dw0 data : Word) (sct : Fin 8) (sc : U8) (dnr : Bool),
    let x := s.drive d
    let l := linkOfDrive d
    let g := s.group l.1
    let sl := (s.eng e).slot k
    let calm := fun (n : Nat) => (s.drive n).st ≠ 4 ∧ ((s.drive n).vtimes.filter fun u => s.now - u ≤ 100000000).length < 7
    let counts := fun (u : State) (n code : Nat) => (u.drive n).vcnt = (s.drive n).vcnt + 1 ∧ (u.drive n).code = code
    let rare := (x.rtimes.filter fun u => s.now - u ≤ 60000000000).length < 2
    let blk := s.tileOn (admTile d) = true ∧ ∃ b < 512, (s.tile (admTile d)).runFree 1 b = true
    let dv := s.vendorDepth d
    let depth := (dv.drive d).depth
    let ncq := ncqOf ident.cqs
    let q := (s.tile (x.cqTile cq)).drvSq d
    let a := s.updTile (x.cqTile cq) fun y => y.cqTake d (cqeWords q sqid sqhd cid dw0 sct.val sc.toNat dnr)
    (s.carriesPort l.1 l.2.1 = true → g.dirUp l.2.1 = false → g.en.getLsbD l.2.1 = true → g.perst.getLsbD l.2.1 = false → (l.2.2 = true → g.qmode l.2.1 = 3) →
        ∀ (rate : Fin 7) (width : Fin 17) (cto : Fin 16), linkWidth g l.2.1 width = true →
        ∃ u, exec (.driveLinkUp d rate width cto) s = .next u ∧ ((u.group l.1).link l.2.1 l.2.2).st = 3 ∧ (u.drive d).link = true
          ∧ ((u.group l.1).link l.2.1 l.2.2).width = width.val ∧ ((u.group l.1).link l.2.1 l.2.2).rate = min (max 1 rate.val) g.maxRate
          ∧ (x.st = 0 → x.parked = false → blk → (u.drive d).st = 1 ∧ (u.drive d).step = 3 ∧ (u.drive d).window = true ∧ .driveReg d 0x14 0x00460001 ∈ u.out)
          ∧ (x.st = 4 → (u.drive d).st = 4))
    ∧ (s.fwUp = true → x.link = true → x.step = 3 → dv.drvReason d ident = 0 → s.usedNsids d = [] →
        (∀ n < 16, s.tileOn n = true → ∃ b < 512, (s.tile n).runFree (DrvSq.blocks
          { depth := depth, base := 0, cqDepth := if n % (16 / 2 ^ ncq) = 0 then depth * 16 / 2 ^ ncq else 0, cqHead := 0 }) b = true) →
        ∃ u, exec (.driveReady d ident false) s = .next u ∧ (u.drive d).st = 2 ∧ (u.drive d).ident = ident ∧ (u.drive d).step = 8
          ∧ (u.drive d).ncq = ncq ∧ (u.drive d).aers = 4 ∧ ∀ n < 16, s.tileOn n = true → ((u.tile n).drvSq d).depth = depth)
    ∧ (s.fwUp = true → x.link = true → x.step = 3 → dv.drvReason d ident ≠ 0 → ∃ u, exec (.driveReady d ident false) s = .next u ∧ (u.drive d).st = 5
        ∧ (u.drive d).reason = dv.drvReason d ident)
    ∧ (s.fwUp = true → x.st = 2 → (∃ u, exec (.driveAdminPoll d 1 e k) s = .next u ∧ (u.drive d).aen = true ∧ (u.drive d).st = 2
          ∧ .operator 0x80 (BitVec.ofNat 32 d.val) ∈ u.out)
        ∧ ∃ u, exec (.driveAdminPoll d 2 e k) s = .next u ∧ (u.drive d).st = 4)
    ∧ (∀ c, x.window = true → cq.val < 2 ^ x.ncq → q.cqDepth ≠ 0 → sqid ≠ 0 → sqid.toNat ≤ 16 →
        let n := sqid.toNat - 1
        let e' := 8 * n + cidEng cid
        let y := (s.eng e').slot (cidSlot cid)
        (a.tile n).sqHeadOk d sqhd.toNat = true → y.drv = some c → c.drive = d.val → c.answered = false → c.cid = cid →
        ((s.eng e').slot (y.parent.getD (cidSlot cid))).mute = false → c.timedOut = false →
        ∃ u, exec (.driveCompletion d sqid sqhd cid dw0 sct sc dnr false cq) s = .next u
          ∧ ((u.eng e').slot (cidSlot cid)).drv = some { c with answered := true, aborting := false, status := driveSts sct sc.toNat dnr
                                                                dw3 := (cqeWords q sqid sqhd cid dw0 sct.val sc.toNat dnr).getD 3 0 }
          ∧ (u.eng e').dcq.length + (u.eng e').dcqHold.length = (s.eng e').dcq.length + (s.eng e').dcqHold.length + 1
          ∧ (u.tile n).sqHead d = sqhd.toNat ∧ ((u.tile (x.cqTile cq)).drvSq d).cqHead = (q.cqHead + 1) % max 1 (2 * q.cqDepth) ∧ u.drive d = x)
    ∧ (x.window = true → calm d → ∃ u, exec (.driveCompletion d sqid sqhd cid dw0 sct sc dnr true cq) s = .next u ∧ counts u d 3)
    ∧ (x.window = true → data ≠ 16 → data.toNat < 2 ^ x.ncq → t.val = x.cqTile data.toNat → ((s.tile t).drvSq d).depth ≠ 0 →
        ∃ u, exec (.driveInterruptLanding d t data) s = .next u ∧ Tbl.get 0 (u.tile t).landings d = (Tbl.get 0 (s.tile t).landings d + 1) % 2 ^ 16 ∧ u.drives = s.drives)
    ∧ (∀ c f, sl.drv = some c → sl.xfer = some f → c.answered = true → c.status = stOk → f.phase = 0 → calm c.drive →
        ∃ u, exec (.shortTransferCheck e k) s = .next u ∧ counts u c.drive 7
          ∧ (s.fwRuns e = false → ((u.eng e).slot k).drv = some { c with status := stInternal }))
    ∧ (∀ c, sl.drv = some c → c.answered = false → c.timedOut = false → (s.drive c.drive).st = 2 → calm c.drive →
        ∃ u, exec (.driveCmdTimeout e k) s = .next u ∧ counts u c.drive 8
          ∧ ((s.drive c.drive).admAt.isSome = true → .driveAdmin c.drive 8 (BitVec.ofNat 32 (e.val / 8 + 1 + c.cid.toNat * 2 ^ 16)) 0 ∈ u.out)
          ∧ (((u.eng e).slot k).drv.map DrvCmd.aborting) = some true)
    ∧ (∀ c, sl.drv = some c → c.answered = false → c.aborting = true → c.drive = d.val → s.fwUp = true → x.st = 2 → rare →
        ∃ u, exec (.driveAbortTimeout e k) s = .next u ∧ (u.drive d).st = 3 ∧ (u.drive d).resets = x.resets + 1 ∧ .driveReg d 0x14 0x00460000 ∈ u.out)
    ∧ (s.fwUp = true → x.st = 2 → rare → ∃ u, exec (.cstsPoll d true) s = .next u ∧ (u.drive d).st = 3 ∧ (u.drive d).resets = x.resets + 1)
    ∧ exec (.cstsPoll d false) s = .next s
    ∧ (s.fwUp = true → x.st = 3 → x.step = 20 → (blk → ∃ u, exec (.driveResetComplete d true) s = .next u ∧ (u.drive d).step = 3 ∧ .driveReg d 0x14 0x00460001 ∈ u.out)
        ∧ ∃ u, exec (.driveResetComplete d false) s = .next u ∧ (u.drive d).st = 4)
    ∧ (x.st ≠ 4 → ∃ u, exec (.drvnQuar d) s = .next u ∧ (u.drive d).st = 4 ∧ (u.drive d).window = false)
    ∧ (x.st = 4 → x.parked = false → (x.link = true → blk) → ∃ u, exec (.drvnRelease d) s = .next u ∧ (u.drive d).st = (if x.link then 1 else 0))
    ∧ (x.link = true → ∃ u, exec (.driveLinkDown d) s = .next u ∧ (u.drive d).link = false ∧ (x.st ≠ 4 → (u.drive d).st = 0) ∧ (x.st = 4 → (u.drive d).st = 4)
        ∧ Tbl.get 0 (u.group l.1).vcnt 6 = Tbl.get 0 (s.group l.1).vcnt 6 + 1)

/-- A fault that the warden reads is logged, or starts the recovery of its domain, whose engines are halted at once; the recovery ends when its drive
commands have been answered. The die link's failure is a fault. Rests on R319 to R322, R324, R325. -/
def Obligations.FaultsRecover : Prop :=
  ∀ (s : State) (e : EngId) (entry : Fin 16) (f : FaultEvt) (rest : List FaultEvt),
    (s.fwUp = true → (s.queue 1540).en = true → s.flt.events0 = f :: rest → f.cause = 0x30 → (∃ k < 16, (s.fltEntry k).st = 0) → ∃ u, exec (.faultEventRead false) s = .next u
        ∧ u.flt.events0 = rest ∧ ∃ k < 16, (s.fltEntry k).st = 0 ∧ (u.fltEntry k).st = 1 ∧ fld (u.fltEntry k).w0.toNat 15 8 = 0x30 ∧ (u.fltEntry k).w1 = f.time
          ∧ (u.fltEntry k).w2 = f.detail ∧ u.flt.recs = s.flt.recs)
    ∧ (s.fwUp = true → (s.queue 1540).en = true → s.flt.events0 = f :: rest → f.cause = 1 → f.index = e.val → s.flt.recs = [] → s.masked 1 e = false → (∃ k < 16, (s.fltEntry k).st = 0) →
        ∃ u, exec (.faultEventRead false) s = .next u ∧ u.flt.events0 = rest ∧ (u.eng e).run = 2 ∧ (u.eng e).halt = true
          ∧ ∃ k < 16, (s.fltEntry k).st = 0 ∧ (u.fltEntry k).st = 2 ∧ fld (u.fltEntry k).w0.toNat 27 26 = 1 ∧ fld (u.fltEntry k).w0.toNat 22 16 = e.val
            ∧ u.flt.recs = [{ level := 1, index := e, esc := false, entry := k, doneAt := none }])
    ∧ (s.flt.events0 = [] → exec (.faultEventRead false) s = .next s)
    ∧ (s.fwUp = true → s.flt.recs = [{ level := 1, index := e, esc := false, entry := entry, doneAt := none }] → (s.eng e).drained = true → s.tileOn (e.val / 8) = true →
        Tbl.get false s.flt.qeng e = false → ∃ u, exec (.recoveryDrainDone entry [] 0) s = .next u ∧ (u.fltEntry entry).st = 3 ∧ (u.eng e).run = 0
          ∧ (u.eng e).proc.pc = 0 ∧ (u.eng e).iram = Memory.slice s.boot.lane 0 0x8000
          ∧ u.flt.recs = [{ level := 1, index := e, esc := false, entry := entry, doneAt := some s.now }])
    ∧ (s.dieLink = true → ∃ u, exec .dielinkDown s = .next u ∧ u.dieLink = false
        ∧ (s.domOn 36 = true → u.flt.events0 = s.flt.events0 ++ [{ cause := 0x30, index := 0, detail := 0, time := s.time.extractLsb' 0 32 }]))
    ∧ exec (.dielinkRetrain true) s = .next { s with dieLink := true }

/-- The queues' control registers and the bursts of a spill queue's middle; a register access of the warden that times out; the croak, and its absence;
the software interrupt sources. Rests on R250, R251, R254, R256, R258, R329, R337, R339, R340. -/
def Obligations.QueuesAndWardenComplete : Prop :=
  ∀ (s : State) (n : Fin 1543) (f : FuncId) (i : Fin 16) (seq : BitVec 16) (value : U8),
    let q := s.queue n
    let y := s.queue (512 + f.val)
    let ws := (((s.ctl f).spill.flatMap Spilled.bytes).drop (16 * (y.headW + 32 * y.midB))).take 512
    let inbox := 128 ≤ n.val ∧ n.val < 256
    let port := 1536 ≤ n.val ∧ n.val < 1540
    (¬ port → (inbox → (s.eng (n.val - 128)).dcqHold = []) → (1540 ≤ n.val → s.queueItems n < 16) → ∃ u, exec (.queueFlush n) s = .next u ∧ u.queueItems n = 0
        ∧ u.queue n = { q with flushed := q.flushed || decide (s.queueItems n ≠ 0), tailW := 0, midB := 0, headW := 0, midW := 0 })
    ∧ (¬ port → ¬ inbox → exec (.queueEnable n true) s = .next (s.setQueue n { q with en := true }))
    ∧ (∃ u, exec (.queueEnable n true) s = .next u ∧ (u.queue n).en = true)
    ∧ ((inbox → (s.eng (n.val - 128)).dcqHold = []) → ∃ u, exec (.queueEnable n false) s = .next u ∧ u.queueItems n = 0 ∧ (u.queue n).en = false)
    ∧ (32 ≤ y.tailW → y.midB < fld y.rsize.toNat 15 0 → ∃ u, exec (.queueMiddleBurst f true false) s = .next u
        ∧ u.queue (512 + f.val) = { y with tailW := y.tailW - 32, midB := y.midB + 1, midW := (y.midW + 1) % fld y.rsize.toNat 15 0 }
        ∧ u.dramBytes (b2n (y.ring.getLsbD 0) * 2 ^ 32 + fld y.ring.toNat 31 9 * 512 + 512 * y.midW) ws.length = ws)
    ∧ (y.midB ≠ 0 → y.headW < 10 → ∃ u, exec (.queueMiddleBurst f false false) s = .next u ∧ (u.queue (512 + f.val)).midB = y.midB - 1 ∧ 32 ≤ (u.queue (512 + f.val)).headW
        ∧ (u.queue (512 + f.val)).headW + (u.queue (512 + f.val)).tailW = y.headW + y.tailW + 32)
    ∧ (y.midB ≠ 0 → y.headW < 10 → (s.ctl f).cfs = false → ∃ u, exec (.queueMiddleBurst f false true) s = .next u ∧ (u.queue (512 + f.val)).merr = true
        ∧ (u.ctl f).cfs = true ∧ (u.ctl f).spill = [])
    ∧ (∀ a, s.warden.proc.port[i.val]? = some a → a.write = false → a.gd ≠ 0 → ∃ u, exec (.regAccessTimeout i) s = .next u ∧ u.warden.proc.reg a.gd = 0xFFFFFFFF
        ∧ u.warden.proc.isBusy a.gd = false ∧ u.warden.proc.port = s.warden.proc.port.eraseIdx i ∧ u.warden.busAddr = a.addr ∧ u.warden.busValid = true ∧ u.warden.busWrite = false
        ∧ (∀ m, m ≠ a.gd → u.warden.proc.reg m = s.warden.proc.reg m) ∧ (s.domOn 36 = true → u.warden.pend.getLsbD 26 = true)
        ∧ u.warden.proc.pc = s.warden.proc.pc ∧ u.warden.proc.ecause = s.warden.proc.ecause)
    ∧ (∀ a, s.warden.proc.port[i.val]? = some a → a.write = true → ∃ u, exec (.regAccessTimeout i) s = .next u ∧ u.warden.proc = { s.warden.proc with port := s.warden.proc.port.eraseIdx i }
        ∧ u.warden.busAddr = a.addr ∧ u.warden.busValid = true ∧ u.warden.busWrite = true ∧ (s.domOn 36 = true → u.warden.pend.getLsbD 26 = true))
    ∧ (s.warden.proc.port[i.val]? = none → exec (.regAccessTimeout i) s = .next s)
    ∧ (s.warden.up = true → s.domOn 36 = true → s.vault.firstCroak = true ∨ seq = s.vault.lastSeq + 1 → ∃ u, exec (.croak seq) s = .next u
        ∧ u.vault = { s.vault with lastSeq := seq, firstCroak := false } ∧ u.warden = { s.warden with croak := seq.zeroExtend 32 })
    ∧ (s.warden.up = true → s.domOn 36 = true → s.vault.firstCroak = false → seq ≠ s.vault.lastSeq + 1 → ∃ u, exec (.croak seq) s = .next u
        ∧ u.vault.restarts = s.vault.restarts + 1 ∧ u.warden.proc.pc = 0x10000000 ∧ u.warden.fw = false)
    ∧ (s.warden.up = true → s.domOn 36 = true → ∃ u, exec .croakMiss s = .next u ∧ u.vault.restarts = s.vault.restarts + 1 ∧ u.warden.proc.pc = 0x10000000 ∧ u.warden.fw = false
        ∧ u.vault.firstCroak = true ∧ ∀ e, u.eng e = s.eng e)
    ∧ (s.domOn 36 = true → ∃ u, exec (.icuSwset value) s = .next u ∧ ∀ j < 256, u.warden.pend.getLsbD j = (s.warden.pend.getLsbD j || (decide (224 ≤ j) && value.getLsbD (j - 224) && decide (j < 232))))

/-- A mailbox page: the doorbell makes it PENDING or sets OVERRUN, the window reads and writes its words, the warden accepts a checked request in its turn
of the rounds or answers BUSY, writes DONE and resets the page. Rests on R345 to R353, R491, R492. -/
def Obligations.MailboxPagesServe : Prop :=
  ∀ (s : State) (p : PageId) (w : Word),
    let g := s.page p
    let next : Page := { g with word := (g.word + 1) % 1024 }
    let req : Word := BitVec.ofNat 32 (Memory.num g.area 0 4)
    let seq : Word := BitVec.ofNat 32 (Memory.num g.area 8 4)
    (s.windowOpen p = true → g.st = 1 ∨ g.st = 2 → exec (.mbxDoorbell p) s = .next (s.setPage p { g with overrun := true }))
    ∧ (s.windowOpen p = true → g.st = 0 ∨ g.st = 3 → s.pageServed p = false → ∃ u, exec (.mbxDoorbell p) s = .next u
        ∧ u.page p = { g with st := 1, dbTime := s.time, aTime := 0, checked := false, answered := false } ∧ Tbl.get false u.warden.dbsum p = true
        ∧ (s.domOn 36 = true → u.warden.pend.getLsbD (if p.val < 1024 then 4 + p.val / 256 else p.val - 1024) = true))
    ∧ (s.windowOpen p = true → g.st = 0 ∨ g.st = 3 → s.pageServed p = true → s.erasesBefore = false → g.discard = false → 2032 < Memory.num g.area 4 4 →
        ∃ u, exec (.mbxDoorbell p) s = .next u ∧ (u.page p).st = 3 ∧ (u.page p).area = Memory.put g.area 0x800 (respBytes req seq 2 0 []) ∧ (u.page p).mem = g.mem)
    ∧ (s.windowOpen p = true → exec (.mbxHdataAccess p none) s = .next ((s.setPage p next).emit (.hostValue (pageFunc p) (BitVec.ofNat 32 (Memory.num g.area (4 * g.word) 4)))))
    ∧ (s.windowOpen p = true → g.word < 512 → g.st = 0 ∨ g.st = 3 →
        exec (.mbxHdataAccess p (some w)) s = .next (s.setPage p { next with area := Memory.putNum g.area (4 * g.word) 4 w.toNat }))
    ∧ (s.windowOpen p = true → 512 ≤ g.word ∨ g.st = 1 ∨ g.st = 2 → exec (.mbxHdataAccess p (some w)) s = .next (s.setPage p next))
    ∧ (s.pageServed p = true → s.erasesBefore = false → g.st = 1 → g.checked = true → s.busyPage p = none → s.takable p = true → s.roundTurn p = true →
        exec (.mbxAccept p) s = .next ((s.roundTake p).setPage p { g with st := 2, aTime := s.time, answered := false, discard := false, checked := false, req := req, seq := seq }))
    ∧ (∀ q, s.pageServed p = true → s.erasesBefore = false → g.st = 1 → g.checked = true → g.discard = false → s.takable p = true → s.roundTurn p = true → s.busyPage p = some q → ∃ u, exec (.mbxAccept p) s = .next u
        ∧ (u.page p).st = 3 ∧ (u.page p).area = Memory.put g.area 0x800 (respBytes req seq 6 q []) ∧ (u.page p).mem = g.mem)
    ∧ (s.domOn 36 = true → s.warden.up = true → g.st = 1 ∨ g.st = 2 → (g.discard = false → p.val < 1028 → exec (.mbxDone p) s = .next (s.setPage p { g with st := 3, checked := false }))
        ∧ (g.discard = true → exec (.mbxDone p) s = .next (s.setPage p { g with st := 0, discard := false, checked := false })))
    ∧ (s.domOn 36 = true → s.warden.up = true → exec (.mbxPageReset p) s = .next (s.setPage p { g with area := [], mem := none, word := 0, overrun := false, aTime := 0, checked := false, st := if g.st = 2 then 2 else 0, discard := decide (g.st = 2) }))

/-- MCTP packets are assembled or counted, a complete Imdex message reaches its page or is answered BUSY, an assembly times out, and an SPDM request gets
its answer; a DOE object waits while no firmware runs. Rests on R282, R357 to R360. -/
def Obligations.MessagesServe : Prop :=
  ∀ (s : State) (k : Fin 2) (dest src : U8) (tag : Fin 16) (eom : Bool) (seq : Fin 4) (data inner msg : Bytes) (a : Assembly) (u : PortId),
    let e := s.ep k
    let p := 1028 + k.val
    (s.domOn 36 = true → dest.toNat = e.eid → e.asms = [] → exec (.mctpPacket k true dest src tag true eom seq data) s
        = .next (s.setEp k { e with asms := [{ src := src.toNat, tag := tag.val, seq := (seq.val + 1) % 4, bytes := data, done := eom }] }))
    ∧ (s.domOn 36 = true → exec (.mctpPacket k false dest src tag true eom seq data) s = .next (s.setEp k { e with violations := e.violations + 1 }))
    ∧ (s.domOn 36 = true → dest.toNat = e.eid → e.asms = [a] → a.done = false → a.src = src.toNat → a.tag = tag.val → a.seq = seq.val → a.bytes.length + data.length ≤ 2051 →
        exec (.mctpPacket k true dest src tag false eom seq data) s
          = .next (s.setEp k { e with asms := [{ a with seq := (a.seq + 1) % 4, bytes := a.bytes ++ data, done := eom }] }))
    ∧ (s.domOn 36 = true → dest.toNat = e.eid → e.asms = [a] → a.done = false → a.src = src.toNat → a.tag = tag.val → a.seq ≠ seq.val →
        ∃ t, exec (.mctpPacket k true dest src tag false eom seq data) s = .next t ∧ (t.ep k).asms = [] ∧ (t.ep k).violations = e.violations + 1)
    ∧ (e.asms = [a] → a.done = false → a.src = src.toNat → a.tag = tag.val →
        ∃ t, exec (.mctpAssemblyTimeout k src tag) s = .next t ∧ (t.ep k).asms = [] ∧ (t.ep k).violations = e.violations + 1)
    ∧ (s.fwUp = true → e.asms = [a] → a.done = true → a.bytes = [0x7E, 0x1F, 0x4C] ++ msg → (s.page p).discard = false →
        ((s.page p).st = 0 ∨ (s.page p).st = 3 → ∃ t, exec (.mctpMessage k inner) s = .next t ∧ (t.ep k).asms = [] ∧ ((t.page p).st = 1 ∨ (t.page p).st = 3)
          ∧ (t.page p).peer = (a.src, a.tag % 8) ∧ (t.page p).dbTime = s.time ∧ Memory.bytes (t.page p).area 0 2048 = padTo 2048 msg)
        ∧ ((s.page p).st = 1 ∨ (s.page p).st = 2 → ∃ t, exec (.mctpMessage k inner) s = .next t ∧ t.page p = s.page p ∧ t.out = .mctp k ([BitVec.ofNat 8 a.src, BitVec.ofNat 8 (a.tag % 8), 0x7E, 0x1F, 0x4C]
          ++ respBytes (BitVec.ofNat 32 (leAt msg 0 4)) (BitVec.ofNat 32 (leAt msg 8 4)) 6 p []) :: s.out))
    ∧ (s.fwUp = true → e.asms = [a] → a.done = true → a.bytes = 0x01 :: msg → ∃ t, exec (.mctpMessage k inner) s = .next t ∧ (t.ep k).asms = [] ∧ (t.ep k).violations = e.violations + 1
        ∧ t.out = s.out)
    ∧ (s.fwUp = true → (s.port u).ready = true → (s.port u).doe = [] → exec (.spdmRequest ⟨u.val, by omega⟩ 1 [0x10, 0x84, 0, 0]) s
        = .next ((s.setPort u { s.port u with doe := [] }).emit (.doe u ([1] ++ ([0x10, 0x04, 0, 0] ++ Config.primitive 0 11 [0x10, 0x84, 0, 0])))))
    ∧ (s.fwUp = false → (s.port u).ready = true → msg.length ≤ 4096 → exec (.spdmRequest ⟨u.val, by omega⟩ 1 msg) s
        = .next (s.setPort u { s.port u with doe := (s.port u).doe ++ [1#8 :: msg] }))
    ∧ (s.fwUp = true → exec (.spdmRequest ⟨4 + k.val, by omega⟩ 1 [0x11, 0xE1, 0, 0]) s = .next (s.emit (.mctp k [0x05, 0x12, 0x7F, 0x41, 0])))

/-- The identity, key, ledger and rate requests of a mailbox page, each answered from its accepted request; what the spec leaves open of a payload is
free. The layout of the payloads is the model's (logs 14 and 54). Rests on R173, R175 to R177, R246, R247, R353, R354, R361 to R363. -/
def Obligations.IdentityAndKeysAnswer : Prop :=
  ∀ (s : State) (p : PageId) (nonce ct sealed : Bytes) (slot : U8) (off nsid : Word) (len f gr gb vr vb : BitVec 16) (band mode target : U8) (spare : BitVec 20) (c : Nat),
    let v := s.vault
    let g := s.page p
    let keyed := fun (u : State) (x k : Nat) =>
      let gen := (recGen (s.krec k) + 1) % 16
      let b := (u.ns x).band band.toNat
      u.page p = g.answer 0 0 [] ∧ (if target = 1 then b.next = mkBandWord (BitVec.ofNat 24 (k * 16 + gen)) else b.handle = mkBandWord (BitVec.ofNat 24 (k * 16 + gen)))
        ∧ u.vault.slotmapVer = v.slotmapVer + 1
        ∧ (s.tableAt + 2 ^ 27 ≤ 2 ^ 32 → s.tableAt % 128 = 0 → k < 2 ^ 20 → recFmt (u.krec k) = 1 ∧ recState (u.krec k) = 1 ∧ recGen (u.krec k) = gen ∧ recSlot (u.krec k) = k ∧ recNsx (u.krec k) = x % 65536)
    (ImdexReady s p 0x0001 → ∃ u rest, exec (.identify p) s = .next u ∧ u.page p = g.answer 0 0 (leBytes 4 (s.glbPeek 0).toNat ++ leBytes 4 (s.glbPeek 8).toNat ++ rest))
    ∧ (ImdexReady s p 0x0002 → s.onlyAnswers (.status p) p 0 0 ([BitVec.ofNat 8 s.pwr.mode, BitVec.ofNat 8 s.pwr.stage] ++ leBytes 2 v.lastSeq.toNat ++ leBytes 2 v.restarts.toNat
        ++ [BitVec.ofNat 8 (b2n (v.epochst = 1)), BitVec.ofNat 8 (b2n (v.epochst = 3)), BitVec.ofNat 8 (b2n (!v.shared)), BitVec.ofNat 8 s.boot.store,
          BitVec.ofNat 8 (b2n s.cfgDefaulted)] ++ leBytes 4 (s.ep 0).violations ++ leBytes 4 (s.ep 1).violations))
    ∧ (ImdexReady s p 0x0003 → s.vaultTurn p = true → v.devkeyFail = false → nonce.length = 32 → p.val < 1028 →
        let body := leBytes 2 (pageFunc p) ++ [0, 0] ++ nonce ++ s.allMeasurements
        s.onlyAnswers (.attest p nonce) p 0 0 (body ++ padTo 96 (ecdsaSign s.aliasSeed (sha384 body))))
    ∧ (ImdexReady s p 0x0004 → v.devkeyFail = false → slot.toNat < 2 → len.toNat ≤ 2000 →
        s.onlyAnswers (.certRead p slot off len) p 0 0 (((s.certChain slot.toNat).drop off.toNat).take len.toNat))
    ∧ (ImdexReady s p 0x0004 → 2 ≤ slot.toNat → s.onlyAnswers (.certRead p slot off len) p 8 0 [])
    ∧ (ImdexReady s p 0x0101 → v.devkeyFail = false → s.onlyAnswers (.importKeyGet p) p 0 0 encapKey)
    ∧ (ImdexReady s p 0x0102 → s.vaultTurn p = true → v.noise = true → ∃ u n, exec (.nonceGet p) s = .next u ∧ Tbl.get none u.vault.nonces p = some n
        ∧ u.page p = g.answer 0 0 (leBytes 16 n.toNat))
    ∧ (ImdexReady s p 0x0103 → s.vaultTurn p = true → Memory.bytes g.area 16 1672 = importPayload nsid band mode target nonce ct sealed → nonce.length = 16 →
        ct.length = 1568 → s.nonceKnown p nonce = true →
        let t := (s.useNonce p nonce).keyTarget p nsid.toNat band.toNat mode.toNat target.toNat spare.toNat
        let m := gcmOpen (mlkemDecap ct) (List.replicate 12 0) (leBytes 4 nsid.toNat ++ [band, mode, target, 0] ++ nonce) (sealed.take 64) (sealed.drop 64)
        ∃ u, exec (.keyImport p nsid band mode target nonce ct sealed spare) s = .next u ∧ Tbl.get none u.vault.nonces p = none
          ∧ (t.1 ≠ 0 → u.page p = g.answer t.1 0 [] ∧ u.nss = s.nss)
          ∧ (t.1 = 0 → m = none → u.page p = g.answer 0x107 0 [] ∧ u.nss = s.nss)
          ∧ (∀ k, t.1 = 0 → m = some k → (mode = 1 ∧ k.take 32 = k.drop 32) ∨ (mode = 2 ∧ ∃ b ∈ k.drop 32, b ≠ 0) → u.page p = g.answer 0x108 0 [] ∧ u.nss = s.nss)
          ∧ (∀ k, t.1 = 0 → m = some k → (mode = 1 → k.take 32 ≠ k.drop 32) → (mode = 2 → ∀ b ∈ k.drop 32, b = 0) → keyed u t.2.1 t.2.2.1))
    ∧ (ImdexReady s p 0x0103 → s.vaultTurn p = true → Memory.bytes g.area 16 1672 = importPayload nsid band mode target nonce ct sealed → nonce.length = 16 →
        ct.length = 1568 → s.nonceKnown p nonce = false → (s.keyTarget p nsid.toNat band.toNat mode.toNat target.toNat spare.toNat).1 = 0 →
        s.onlyAnswers (.keyImport p nsid band mode target nonce ct sealed spare) p 0x106 0 [])
    ∧ (∀ x k ctrl alt, ImdexReady s p 0x0104 → s.vaultTurn p = true → v.noise = true →
        s.keyTarget p nsid.toNat band.toNat mode.toNat target.toNat spare.toNat = (0, x, k, ctrl, alt) →
        ∃ u, exec (.keyGenerate p nsid band mode target spare) s = .next u ∧ keyed u x k)
    ∧ (ImdexReady s p 0x0104 → s.vaultTurn p = true → s.reqNsx p nsid.toNat = none → s.onlyAnswers (.keyGenerate p nsid band mode target spare) p 0x101 0 [])
    ∧ (ImdexReady s p 0x0106 → ActsOn p f.toNat c → ∃ u, exec (.ledgerRead p f) s = .next u
        ∧ u.page p = g.answer 0 0 (Ledger.bytes { (s.ctl c).ledger with spillDepth := (s.ctl c).spill.length })
        ∧ (u.ctl c).ledger.delayMax = 0 ∧ (u.ctl c).ledger.evLost = 0 ∧ (u.ctl c).ledger.bytesRead = (s.ctl c).ledger.bytesRead)
    ∧ (ImdexReady s p 0x0106 → 1024 ≤ p.val → p.val < 1028 → f.toNat < 1024 → portOf f.toNat ≠ p.val - 1024 → s.onlyAnswers (.ledgerRead p f) p 4 0 [])
    ∧ (ImdexReady s p 0x0107 → ActsOn p f.toNat c → ∃ u, exec (.rateSet p f gr gb vr vb) s = .next u ∧ u.page p = g.answer 0 0 []
        ∧ (u.ctl c).rateG = gr.toNat ∧ (u.ctl c).burstG = gb.toNat ∧ (u.ctl c).rateV = vr.toNat ∧ (u.ctl c).burstV = vb.toNat)

/-- A crypto-erase of each scope whose tiles complete at once leaves no covered record ACTIVE and no VALID entry of it in a powered tile, and is answered;
one with a late tile waits; a device erase replaces the epoch and drives the purge line, which empties every powered tile and answers what waited; the
vault's registrations, the escalation and the backstop; and a tamper trip, which erases what the vault holds and drives the line. Rests on R36, R119,
R170, R178 to R183, R319, R341, R366, R367, R372, R373. -/
def Obligations.ErasesComplete : Prop :=
  ∀ (s : State) (p : PageId) (band : U8) (f : BitVec 16) (nsid : Word) (late : List TileId) (i k : Fin 2) (c x : Nat) (sensors : BitVec 7) (first : Fin 7),
    let hit := sensors &&& s.sensArmed
    let v := s.vault
    let g := s.page p
    let fits := fun (n : Nat) => ImdexReady s p 0x0105 ∧ Memory.num g.area 16 1 = n ∧ s.erases.length < 2 ∧ v.regBusy ≠ 3
    let clears := fun (u : State) (scope key : Nat) => u.page p = g.answer 0 0 [] ∧ u.erases = s.erases ∧ u.vault.regBusy = v.regBusy
      ∧ (∀ t j, s.tileOn t = true → ((u.tile t).entry j).st = 2 → purgeMatch scope key ((u.tile t).entry j).tag = false)
      ∧ (s.tableAt + 2 ^ 27 ≤ 2 ^ 32 → s.tableAt % 128 = 0 → ∀ n < 2 ^ 20, recFmt (s.krec n) = 1 → recState (s.krec n) = 1 → eraseCovers scope key (s.krec n) = true → recState (u.krec n) = 2)
    let waits := fun (u : State) => ∀ t ∈ late, s.tileOn t.val = true → u.page p = g ∧ u.erases.length = s.erases.length + 1 ∧ (u.tile t.val).purgeGo = true
    let quiet := late = [] ∧ ∀ t, (s.tile t).purgeGo = false
    let w := ((s.ns x).band band.toNat).handle
    (fits 0 → ActsOn p f.toNat c → s.nsOf c nsid.toNat = some x → band.toNat < (s.ns x).nbands → bandValid w = true → s.recAdmits p (s.krec (handleSlot (bandHandle w))) = true →
        ∃ u, exec (.eraseBand p band f nsid late) s = .next u ∧ (quiet → clears u 0 (handleSlot (bandHandle w))) ∧ waits u)
    ∧ (fits 1 → ActsOn p f.toNat c → s.nsOf c nsid.toNat = some x → ∃ u, exec (.eraseNamespace p f nsid late) s = .next u ∧ (quiet → clears u 1 x) ∧ waits u)
    ∧ (fits 1 → ActsOn p f.toNat c → s.nsOf c nsid.toNat = none → s.onlyAnswers (.eraseNamespace p f nsid late) p 0x101 0 [])
    ∧ (fits 2 → ActsOn p f.toNat c → ∃ u, exec (.eraseController p f late) s = .next u ∧ (quiet → clears u 2 c) ∧ waits u)
    ∧ (fits 3 → 1024 ≤ p.val → v.noise = true → v.full = true → v.floorFuses < 1024 → v.epochst = 1 → v.devkeyFail = false → ∃ u, exec (.eraseDevice p) s = .next u ∧ u.page p = g
        ∧ u.vault.floorFuses = v.floorFuses + 1 ∧ u.vault.epochst = 1 ∧ u.vault.epoch = max (v.epoch + 1) (v.floorFuses + 2) ∧ u.vault.nonces = []
        ∧ u.vault.wk = some (wkOf u.vault.secret u.vault.epoch) ∧ u.vault.line = v.line ++ (if s.pwr.vinOn then [(0, 0)] else []) ∧ u.erases.length = s.erases.length + 1)
    ∧ (fits 3 → 1024 ≤ p.val → v.noise = true → v.full = true → 1024 ≤ v.floorFuses → ∃ u, exec (.eraseDevice p) s = .next u ∧ u.page p = g.answer 0 10 []
        ∧ u.vault.epoch = v.epoch ∧ u.vault.secret = v.secret ∧ u.vault.line = v.line)
    ∧ (fits 3 → p.val < 1024 → s.onlyAnswers (.eraseDevice p) p 4 0 [])
    ∧ (v.line ≠ [] → s.erases = [] → ∃ u, exec .purgeLine s = .next u ∧ u.vault.line = [] ∧ ∀ t, s.tileOn t = true → (u.tile t).purgeGo = false
        ∧ (∀ j, ((u.tile t).entry j).st ≠ 2) ∧ ((∃ y ∈ v.line, y.1 ≠ 2) → (u.tile t).wk = none)
        ∧ ∀ e n, e / 8 = t → n < 4 → ((u.eng e).ctx n).st ≠ 3)
    ∧ (∀ y, v.line ≠ [] → s.erases = [y] → y.origin = 0 → y.rest = [] → y.lost = false → y.page = p.val → g.discard = false →
        ∃ u, exec .purgeLine s = .next u ∧ u.erases = [] ∧ u.page p = g.answer 0 0 [])
    ∧ (v.line = [] → exec .purgeLine s = .next s)
    ∧ (∀ y, s.erases[i.val]? = some y → y.lined = false → s.fwUp = true → s.pwr.vinOn = true → ∃ u z, exec (.erasePurgeEscalation i) s = .next u ∧ u.erases[i.val]? = some z ∧ z.lined = true
        ∧ u.vault.line = v.line ++ [(2, y.waiting.headD 0)]
        ∧ (s.domOn 36 = true → ∀ t ∈ y.waiting, ∃ ev ∈ (if dieOfTile t = 0 then u.flt.events0 else u.flt.events1), ev.cause = 0x12 ∧ ev.index = t))
    ∧ (v.regBusy.getLsbD 0 = false → ∃ u, exec .eraseregRegister s = .next u ∧ u.vault.regBusy = v.regBusy ||| 1 ∧ u.vault.regLined.getLsbD 0 = false ∧ u.vault.line = v.line)
    ∧ (v.regBusy = 3 → exec .eraseregRegister s = .next (s.updVault fun v => { v with regOvf := true }))
    ∧ (∃ u, exec (.eraseregWithdraw k) s = .next u ∧ u.vault.regBusy.getLsbD k = false ∧ (∀ n, n ≠ k.val → u.vault.regBusy.getLsbD n = v.regBusy.getLsbD n) ∧ u.vault.line = v.line)
    ∧ (v.regBusy.getLsbD k = true → v.regLined.getLsbD k = false → s.pwr.vinOn = true → s.erases = [] →
        ∃ u, exec (.eraseBackstop k) s = .next u ∧ u.vault.line = v.line ++ [(2, 0)] ∧ u.vault.regLined.getLsbD k = true)
    ∧ (v.regBusy.getLsbD k = false → exec (.eraseBackstop k) s = .next s)
    ∧ (hit ≠ 0 → ∃ u, exec (.tamperTrip sensors first) s = .next u ∧ u.vault.secret = 0 ∧ u.vault.epoch = 0 ∧ u.vault.wk = none ∧ u.vault.nonces = [] ∧ u.vault.shares = []
        ∧ u.vault.tamper = true ∧ u.vault.mask = v.mask ||| hit ∧ u.vault.trips = satAdd v.trips 1 ∧ u.vault.epochst = (if v.endRestore.epochst = 0 then 0 else 2)
        ∧ (hit.getLsbD first = true → v.mask = 0 → u.vault.first = first.val) ∧ u.vault.line = v.line ++ (if s.pwr.vinOn then [(1, 0)] else []))

/-- The molt requests: a start makes an ARMED molt whose gates are programmed and whose journal entry is written, or is refused by the first check that
fails; pause, resume, cancel and status. Rests on R184 to R188, R191 to R193, R200. -/
def Obligations.MoltRequestsAnswer : Prop :=
  ∀ (s : State) (p : PageId) (nsid : Word) (band m : U8) (x k : Nat),
    let g := s.page p
    let n := s.ns x
    let b := n.band band.toNat
    let r := s.molt m.toNat
    let may := s.recAdmits p (s.krec (handleSlot r.old)) = true
    (ImdexReady s p 0x0201 → s.reqNsx p nsid.toNat = some x → s.moltStartCheck p x band.toNat = (0, 0, k) → ∃ u, exec (.moltStart p nsid band) s = .next u
        ∧ u.page p = g.answer 0 0 [BitVec.ofNat 8 k] ∧ (u.molt k).st = 1 ∧ (u.molt k).nsx = x ∧ (u.molt k).band = band.toNat ∧ (u.molt k).old = bandHandle b.handle
        ∧ (u.molt k).new = bandHandle b.next ∧ (u.molt k).wmark = n.bandLo band.toNat ∧ (u.molt k).wend = n.bandLo band.toNat ∧ (u.molt k).bend = n.bandHi band.toNat
        ∧ (u.molt k).moved = 0
        ∧ u.journalOf k = { used := true, nsx := x, band := band.toNat, pend := false, pcause := 0, old := bandHandle b.handle, new := bandHandle b.next
                            wmark := n.bandLo band.toNat, wlen := 0, fp := 0 }
        ∧ ∀ f ∈ s.funcs, ((s.ctl f).attach.any fun q => q.2 = x + 1) = true → ((u.quad (s.funcQuad f)).gate k).en = true)
    ∧ (∀ c d, ImdexReady s p 0x0201 → s.reqNsx p nsid.toNat = some x → s.moltStartCheck p x band.toNat = (c, d, k) → c ≠ 0 → s.onlyAnswers (.moltStart p nsid band) p c d [])
    ∧ (band.toNat < n.nbands → bandValid b.handle = true → s.recAdmits p (s.krec (handleSlot (bandHandle b.handle))) = true → bandValid b.next = false →
        s.moltStartCheck p x band.toNat = (0x109, 0, 0))
    ∧ (ImdexReady s p 0x0201 → s.reqNsx p nsid.toNat = none → s.onlyAnswers (.moltStart p nsid band) p 0x101 0 [])
    ∧ (ImdexReady s p 0x0202 → m.toNat < 64 → may → r.st = 2 → r.win ≤ 2 → s.fwUp = true → ∃ u, exec (.moltPause p m) s = .next u ∧ u.page p = g.answer 0 0 []
        ∧ (u.molt m.toNat).st = 3 ∧ (u.molt m.toNat).pcause = 1 ∧ (u.molt m.toNat).cause = 1 ∧ (u.molt m.toNat).wmark = r.wmark ∧ (u.molt m.toNat).win = 0)
    ∧ (ImdexReady s p 0x0203 → m.toNat < 64 → may → r.st = 3 → r.pcause ≠ 0 → r.win = 0 → r.wmark < r.bend → s.moltCauses m.toNat = [] → s.fwUp = true →
        ∃ u, exec (.moltResume p m) s = .next u ∧ u.page p = g.answer 0 0 [] ∧ (u.molt m.toNat).st = 2 ∧ (u.molt m.toNat).pcause = 0
          ∧ (u.molt m.toNat).wmark = r.wmark ∧ (u.journalOf m.toNat).pcause = 0)
    ∧ (ImdexReady s p 0x0204 → m.toNat < 64 → may → r.st = 1 → ∃ u, exec (.moltCancel p m) s = .next u ∧ u.page p = g.answer 0 0 [] ∧ u.molt m.toNat = Molt.init
        ∧ u.journalOf m.toNat = Journal.init ∧ u.nss = s.nss)
    ∧ (ImdexReady s p 0x0204 → m.toNat < 64 → may → 2 ≤ r.st → s.onlyAnswers (.moltCancel p m) p 0x10C m.toNat [])
    ∧ (ImdexReady s p 0x0205 → m.toNat < 64 → r.st ≠ 0 → may → s.onlyAnswers (.moltStatus p m) p 0 0 r.bytes)
    ∧ (ImdexReady s p 0x0205 → m.toNat < 64 → r.st ≠ 0 → s.recAdmits p (s.krec (handleSlot r.old)) = false → s.onlyAnswers (.moltStatus p m) p (if p.val < 1024 then 0x101 else 4) 0 [])

/-- Contracts, namespaces, extents, bands and attachment as the operator's requests set them, with the checks that refuse them. Rests on R151 to R153,
R193, R210 to R215, R231, R232, R237, R353, R354. -/
def Obligations.TenantsAndNamespacesAnswer : Prop :=
  ∀ (s : State) (p : PageId) (f commit elastic quota first : BitVec 16) (lat lbads nbands : U8) (home : Option (Fin 4)) (nsze : DWord) (nsx : BitVec 16) (nsid : Word)
    (recs : List ExtRec) (starts : List DWord) (alt : Bool) (c : Nat),
    let g := s.page p
    let x := nsx.toNat
    let n := s.ns x
    let at_ := fun (i : Nat) => (starts.getD i 0).toNat
    let t := s.withContract c (fields [(16, elastic.toNat), (0, commit.toNat)])
      (fields [(31, 1), (30, b2n home.isSome), (28, (home.map Fin.val).getD 0), (20, lat.toNat), (0, quota.toNat % 2 ^ 13)])
    (ImdexReady s p 0x0301 → ActsOn p f.toNat c → quota.toNat ≤ 4096 → (quota = 0 ∨ commit ≠ 0 ∨ elastic ≠ 0) →
      (s.contractBad t c = none → ∃ u, exec (.tenantSet p f commit elastic quota lat home) s = .next u ∧ u.page p = g.answer 0 0 [] ∧ (u.ctl c).tenant = true
        ∧ (u.ctl c).commit = commit.toNat ∧ (u.ctl c).elastic = elastic.toNat ∧ (u.ctl c).quota = quota.toNat ∧ (u.ctl c).lat = lat.toNat
        ∧ ((s.ctl c).tenant = false → (u.ctl c).rateG = 200 ∧ (u.ctl c).rateV = 20 ∧ (u.ctl c).burstG = 32 ∧ (u.ctl c).burstV = 4))
      ∧ (∀ d, s.contractBad t c = some d → s.onlyAnswers (.tenantSet p f commit elastic quota lat home) p 0x203 d []))
    ∧ (ImdexReady s p 0x0302 → ActsOn p f.toNat c → (s.ctl c).tenant = true → (∀ q ∈ (s.ctl c).attach, q.2 = 0) → ∃ u, exec (.tenantDelete p f) s = .next u
        ∧ u.page p = g.answer 0 0 [] ∧ (u.ctl c).tenant = false ∧ (u.ctl c).admw0 = 0 ∧ (u.ctl c).admw1 = 0)
    ∧ (ImdexReady s p 0x0302 → ActsOn p f.toNat c → (∃ q ∈ (s.ctl c).attach, q.2 ≠ 0) → s.onlyAnswers (.tenantDelete p f) p 8 0 [])
    ∧ (ImdexReady s p 0x0303 → nsze ≠ 0 → lbads.toNat = 9 ∨ lbads.toNat = 12 → 0 < nbands.toNat → nbands.toNat ≤ 64 → n.valid = false → (∀ y < x, (s.ns y).valid = true) →
        ∃ u, exec (.nsCreate p nsze lbads nbands) s = .next u ∧ u.page p = g.answer 0 0 (leBytes 2 x)
          ∧ u.ns x = { Ns.init with valid := true, nsze := nsze.toNat, lbads := lbads.toNat, nbands := nbands.toNat })
    ∧ (ImdexReady s p 0x0304 → n.valid = true → recs.length ≤ 60 → first.toNat + recs.length ≤ 256 → ∃ u, exec (.nsExtents p nsx first recs false) s = .next u
        ∧ u.page p = g.answer 0 0 [] ∧ (u.ns x).extents = n.extents ∧ ∀ i r, recs[i]? = some r → Tbl.get none (u.ns x).staged (first.toNat + i) = some (recExtent r))
    ∧ (ImdexReady s p 0x0304 → n.valid = true → first.toNat ≤ 256 → s.extentsBad x n.stagedList = none → ∃ u, exec (.nsExtents p nsx first [] true) s = .next u
        ∧ u.page p = g.answer 0 0 [] ∧ (u.ns x).extents = n.stagedList ∧ (u.ns x).staged = [])
    ∧ (∀ i, ImdexReady s p 0x0304 → n.valid = true → first.toNat ≤ 256 → s.extentsBad x n.stagedList = some i → s.onlyAnswers (.nsExtents p nsx first [] true) p 0x202 i [])
    ∧ (ImdexReady s p 0x0305 → n.valid = true → starts.length = 64 → at_ 0 = 0 → (∀ i < n.nbands, at_ i < n.nsze ∧ (0 < i → at_ (i - 1) < at_ i)) →
        (65536 < s.bandSlots x → s.onlyAnswers (.nsBands p nsx starts) p 0x10D 0 []) ∧ (s.bandSlots x ≤ 65536 → ∃ u, exec (.nsBands p nsx starts) s = .next u ∧ u.page p = g.answer 0 0 []
          ∧ ∀ i < n.nbands, ((u.ns x).band i).start = at_ i ∧ ((u.ns x).band i).handle = (n.band i).handle ∧ ((u.ns x).band i).next = (n.band i).next))
    ∧ (ImdexReady s p 0x0306 → ActsOn p f.toNat c → (s.ctl c).tenant = true → nsid ≠ 0 → nsid.toNat ≤ 1024 → Tbl.get 0 (s.ctl c).attach nsid.toNat = 0 → s.attachedAs x alt = none →
        (∀ q ∈ (s.ctl c).attach, q.2 ≠ x + 1) → n.valid = true → n.extents ≠ [] → ∃ u, exec (.nsAttach p f nsid nsx alt) s = .next u ∧ u.page p = g.answer 0 0 []
          ∧ u.nsOf c nsid.toNat = some x ∧ ∀ q ∈ s.molts, q.2.st ≠ 0 → q.2.nsx = x → ((u.quad (s.funcQuad c)).gate q.1).en = true)
    ∧ (ImdexReady s p 0x0307 → ActsOn p f.toNat c → Tbl.get 0 (s.ctl c).attach nsid.toNat = x + 1 → ∃ u, exec (.nsDetach p f nsid nsx) s = .next u
        ∧ u.page p = g.answer 0 0 [] ∧ Tbl.get 0 (u.ctl c).attach nsid.toNat = 0 ∧ u.nss = s.nss)
    ∧ (ImdexReady s p 0x0308 → n.valid = true → (s.activeSlots fun r => recNsx r = x) = [] → ∃ u, exec (.nsDelete p nsx) s = .next u ∧ u.page p = g.answer 0 0 []
        ∧ u.ns x = Ns.init)
    ∧ (ImdexReady s p 0x0308 → n.valid = true → (s.activeSlots fun r => recNsx r = x) ≠ [] → s.onlyAnswers (.nsDelete p nsx) p 8 0 [])

/-- The operator's requests on rails, IDE streams, port modes, drives, faults and the capsule. Rests on R237, R276, R283, R297, R303, R306, R312, R316,
R318, R322, R324, R326, R355, R472, R473, R484. -/
def Obligations.OperatorRequestsAnswer : Prop :=
  ∀ (s : State) (p : PageId) (t g d level index : U8) (mv who len : BitVec 16) (value off : Word) (stream : Option (Fin 8)),
    let q := s.page p
    let x := s.drive d.toNat
    let rare := (x.rtimes.filter fun y => s.now - y ≤ 60000000000).length < 2
    let blk := s.tileOn (admTile d.toNat) = true ∧ ∃ b < 512, (s.tile (admTile d.toNat)).runFree 1 b = true
    let idle := fun (y : Ctl) => y.hostq = [] ∧ y.waitCpl = [] ∧ ∀ v ∈ y.vecs, v.2.owed = false
    let w := s.modeWrite g.toNat value
    let railed := s.updPwr fun w => { w with railC := Tbl.set 900 w.railC t.toNat mv.toNat }
    (ImdexReady s p 0x0309 → t.toNat < 16 → 550 ≤ mv.toNat → mv.toNat ≤ 900 →
      (s.homeSum t.toNat * 8 ≤ railed.tileCapacity t.toNat * 7 → ∃ u, exec (.railCommit p t mv) s = .next u ∧ u.page p = q.answer 0 0 [] ∧ Tbl.get 900 u.pwr.railC t.toNat = mv.toNat
        ∧ (s.pwr.stage = 0 → (s.pwr.rail t.toNat).target < mv.toNat → (u.pwr.rail t.toNat).req = mv.toNat)
        ∧ (s.pwr.stage ≠ 0 ∨ mv.toNat ≤ (s.pwr.rail t.toNat).target → u.pwr.rails = s.pwr.rails))
      ∧ (railed.tileCapacity t.toNat * 7 < s.homeSum t.toNat * 8 → s.onlyAnswers (.railCommit p t mv) p 0x203 t.toNat []))
    ∧ (ImdexReady s p 0x030A → who.toNat < 1024 → (s.operatorOf p who.toNat = true → ∃ u, exec (.ideRequire p who stream) s = .next u ∧ u.page p = q.answer 0 0 []
          ∧ (idle (s.ctl who.toNat) → u.ctl who.toNat = { s.ctl who.toNat with ideReq := stream.map Fin.val }))
        ∧ (s.operatorOf p who.toNat = false → s.onlyAnswers (.ideRequire p who stream) p 4 0 []))
    ∧ (ImdexReady s p 0x030A → 1024 ≤ who.toNat → who.toNat < 1028 → p.val = who.toNat → ∃ u, exec (.ideRequire p who stream) s = .next u ∧ u.page p = q.answer 0 0 []
        ∧ u.port (who.toNat - 1024) = { s.port (who.toNat - 1024) with ideReq := stream.map Fin.val })
    ∧ (ImdexReady s p 0x0401 → g.toNat < 16 → s.modeLocked g.toNat value = false →
        (w.ownErr g.toNat = 0 → exec (.groupMode p g value) s = .next (w.setPage p (q.answer 0 0 [])) ∧ (w.group g.toNat).mode = value &&& 0x000EFFF3)
        ∧ (∀ e, e ≠ 0 → w.ownErr g.toNat = e → s.onlyAnswers (.groupMode p g value) p 0x201 e []))
    ∧ (ImdexReady s p 0x0401 → g.toNat < 16 → s.modeLocked g.toNat value = true → s.onlyAnswers (.groupMode p g value) p 0x201 (s.cfgErr g.toNat) [])
    ∧ (ImdexReady s p 0x0402 → d.toNat < 64 → x.st = 2 → ∃ u, exec (.driveAssign p d) s = .next u ∧ u.page p = q.answer 0 0 []
        ∧ u.drive d.toNat = { x with record := some (recordOf x.ident (s.usedNsids d.toNat)) })
    ∧ (ImdexReady s p 0x0402 → d.toNat < 64 → x.st = 6 → (∀ n < 16, s.tileOn n = true → ((s.drvFree d.toNat).updDrive d.toNat fun y => { y with ncq := ncqOf y.ident.cqs }).drvReserve d.toNat n ≠ none) →
        ∃ u, exec (.driveAssign p d) s = .next u ∧ u.page p = q.answer 0 0 [] ∧ (u.drive d.toNat).st = 2
        ∧ (u.drive d.toNat).record = some (recordOf x.ident []) ∧ u.usedNsids d.toNat = [])
    ∧ (ImdexReady s p 0x0403 → d.toNat < 64 → x.st = 4 → x.parked = false → ∃ u, exec (.driveRelease p d) s = .next u ∧ u.page p = q.answer 0 0 []
        ∧ (x.link = false → (u.drive d.toNat).st = 0) ∧ (x.link = true → blk → (u.drive d.toNat).st = 1 ∧ (u.drive d.toNat).step = 3))
    ∧ (ImdexReady s p 0x0403 → d.toNat < 64 → x.st ≠ 4 → s.onlyAnswers (.driveRelease p d) p 0x204 x.st [])
    ∧ (ImdexReady s p 0x0404 → d.toNat < 64 → x.st = 2 → x.overridden = false → rare → ∃ u, exec (.driveReset p d) s = .next u ∧ u.page p = q.answer 0 0 [] ∧ (u.drive d.toNat).st = 3
        ∧ (u.drive d.toNat).resets = x.resets + 1 ∧ .driveReg d.toNat 0x14 0x00460000 ∈ u.out)
    ∧ (ImdexReady s p 0x0405 → d.toNat < 64 → s.onlyAnswers (.driveStatus p d) p 0 0 ([0x00, 0x08, 0x0C, 0x10, 0x14, 0x18].flatMap fun o => leBytes 4 (s.drivePeek d.toNat o).toNat))
    ∧ (ImdexReady s p 0x0501 → s.onlyAnswers (.faultRead p) p 0 0
        (([0x00, 0x10, 0x14, 0x18, 0x1C, 0x20, 0x24] ++ (List.range 64).map fun i => 0x100 + 4 * i).flatMap fun o => leBytes 4 (s.fltPeek o).toNat))
    ∧ (ImdexReady s p 0x0502 → level.toNat ≤ 3 → s.domMasked level.toNat index.toNat = true → (∃ k < 16, (s.fltEntry k).st = 0) →
        ∃ u r, exec (.faultClear p level index) s = .next u ∧ u.page p = q.answer 0 0 [] ∧ u.domMasked level.toNat index.toNat = false ∧ r ∈ u.flt.recs
          ∧ r.level = level.toNat ∧ r.index = index.toNat ∧ r.esc = true ∧ r.doneAt = none ∧ (u.fltEntry r.entry).st = 2)
    ∧ (ImdexReady s p 0x0504 → s.vault.devkeyFail = false → ∃ u, exec (.capsuleCapture p) s = .next u ∧ u.page p = q.answer 0 0 [] ∧ u.boot.capValid = true ∧ u.boot.capRead = false
        ∧ u.norBytes 0x1000 8 = leBytes 4 0x43584454 ++ leBytes 2 1 ++ leBytes 2 1
        ∧ (s.domOn 34 = true → u.dramBytes 0x48100000 8 = leBytes 4 0x43584454 ++ leBytes 2 1 ++ leBytes 2 1))
    ∧ (ImdexReady s p 0x0505 → s.boot.capValid = true → len.toNat ≤ 2000 → off.toNat + len.toNat ≤ 65536 → ∃ u, exec (.capsuleRead p off len) s = .next u
        ∧ u.page p = q.answer 0 0 (s.norBytes (0x1000 + off.toNat) len.toNat) ∧ u.boot.capRead = (s.boot.capRead || decide (len ≠ 0 ∧ off.toNat + len.toNat = 65536)) ∧ u.boot.nor = s.boot.nor)

/-- Claims are given for a whole range or not at all, released by their holder only, and listed; the power state requests answer the first row of R442
that applies, or change the state. Rests on R356, R382, R412, R441 to R447. -/
def Obligations.ClaimsAndPowerStatesAnswer : Prop :=
  ∀ (s : State) (p : PageId) (cls first count label flags : U8) (i : Nat),
    let q := s.page p
    (ImdexReady s p 0x0601 → 0 < count.toNat → first.toNat + count.toNat ≤ claimSize cls.toNat → (∀ k, first.toNat ≤ k → k < first.toNat + count.toNat → s.claim cls.toNat k = none) →
        ∃ u, exec (.claim p cls first count label) s = .next u ∧ u.page p = q.answer 0 0 []
          ∧ ∀ k < 64, u.claim cls.toNat k = if first.toNat ≤ k ∧ k < first.toNat + count.toNat then some { holder := p.val, label := label.toNat } else s.claim cls.toNat k)
    ∧ (∀ c, ImdexReady s p 0x0601 → first.toNat + count.toNat ≤ claimSize cls.toNat → first.toNat ≤ i → i < first.toNat + count.toNat → s.claim cls.toNat i = some c →
        (∀ k, first.toNat ≤ k → k < i → s.claim cls.toNat k = none) → s.onlyAnswers (.claim p cls first count label) p 7 c.holder [BitVec.ofNat 8 i])
    ∧ (ImdexReady s p 0x0602 → 0 < count.toNat → first.toNat + count.toNat ≤ claimSize cls.toNat →
        (∀ k, first.toNat ≤ k → k < first.toNat + count.toNat → (s.claim cls.toNat k).map Claim.holder = some p.val) →
        ∃ u, exec (.release p cls first count) s = .next u ∧ u.page p = q.answer 0 0 []
          ∧ (∀ k < 64, u.claim cls.toNat k = if first.toNat ≤ k ∧ k < first.toNat + count.toNat then none else s.claim cls.toNat k)
          ∧ (cls.toNat = 1 → ∀ k, first.toNat ≤ k → k < first.toNat + count.toNat → (Tbl.get Pin.init u.pio.pins k).cfg &&& 0x3000 = 0))
    ∧ (∀ c, ImdexReady s p 0x0602 → 0 < count.toNat → first.toNat + count.toNat ≤ claimSize cls.toNat → s.claim cls.toNat first.toNat = some c → c.holder ≠ p.val →
        s.onlyAnswers (.release p cls first count) p 7 c.holder [first])
    ∧ (ImdexReady s p 0x0603 → claimSize cls.toNat ≠ 0 → s.onlyAnswers (.owners p cls) p 0 0 ((List.range (claimSize cls.toNat)).flatMap fun k => match s.claim cls.toNat k with
        | some c => [1] ++ leBytes 2 c.holder ++ [BitVec.ofNat 8 c.label]
        | none => [0, 0, 0, 0]))
    ∧ (ImdexReady s p 0x0503 → flags.toNat ≤ 1 → s.pwr.mode = 0 → s.onlyAnswers (.powerStateActive p flags 0) p 0 0 [1])
    ∧ (ImdexReady s p 0x0503 → 1 < flags.toNat → s.onlyAnswers (.powerStateBasking p flags 0 0) p 8 1 [])
    ∧ (∀ r, ImdexReady s p 0x0503 → flags.toNat ≤ 1 → s.powerCheck 2 (flags = 1) = r → r ≠ 0 → s.onlyAnswers (.powerStateBrumation p flags 0 0) p 0 0 [BitVec.ofNat 8 r])
    ∧ (ImdexReady s p 0x0503 → s.powerCheck 0 false = 0 → s.pwr.mode = 1 → s.fwUp = true → ∃ u, exec (.powerStateActive p 0 0) s = .next u ∧ u.page p = q.answer 0 0 [0]
        ∧ u.pwr.state = 0 ∧ u.pwr.selfRef = 0 ∧ u.vault.wakeValid = true ∧ u.vault.wakeSrc = 9)
    ∧ (ImdexReady s p 0x0503 → s.powerCheck 1 false = 0 → s.fwUp = true → ∃ u, exec (.powerStateBasking p 0 0 0) s = .next u ∧ u.page p = q.answer 0 0 [0]
        ∧ u.pwr.state = 1 ∧ u.pwr.selfRef = 0xFFFF ∧ (∀ t < 16, u.tileOn t = false) ∧ ∀ k < 4, (u.quad k).en = false)
    ∧ (∀ stop : Fin 6, ImdexReady s p 0x0503 → s.powerCheck 1 false = 0 → stop.val ≠ 0 → ∃ u, exec (.powerStateBasking p 0 0 stop) s = .next u
        ∧ u.page p = q.answer 0 0 [0] ∧ u.pwr.mode = 0 ∧ Memory.rd u.vault.warea 320 = 8#8)
    ∧ (ImdexReady s p 0x0503 → s.powerCheck 2 false = 0 → s.pwr.vinOn = true → s.fwUp = true → ∃ u, exec (.powerStateBrumation p 0 0 0) s = .next u ∧ u.pwr.vinOn = false
        ∧ u.pwr.brumated = true ∧ u.vault.full = false ∧ u.pwr.domon = 0 ∧ u.vault.secret = s.vault.secret ∧ u.vault.nonces = [])

/-- The firmware, configuration and test opcodes act on the slot that is not booted, the staging buffers and the vault, and answer SUCCESS with their
result in byte 0; a part reset is announced unless it is barred; a refused store is adopted. Rests on R459, R463, R465 to R467, R469, R471, R475 to
R477. -/
def Obligations.FirmwareAndTestRequestsAnswer : Prop :=
  ∀ (s : State) (p : PageId) (off : Word) (len : BitVec 16) (data : Bytes) (base : Fin 32),
    let q := s.page p
    let v := s.vault
    let b := s.spareBundle
    let a := slotBase b
    let st := fun (u : State) => Tbl.get 0 u.boot.fwState (b2n b)
    let stand := fun (u : State) (lo hi : Nat) => ∀ n, n < lo ∨ hi ≤ n → u.norByte n = s.norByte n
    let token := Memory.bytes s.boot.token 0 4795
    (ImdexReady s p 0x0701 → s.onlyAnswers (.fwStatus p) p 0 0
        (0 :: (leBytes 4 (s.bundleVersion false) ++ [BitVec.ofNat 8 (s.slotReport false)] ++ leBytes 4 (s.bundleVersion true) ++ [BitVec.ofNat 8 (s.slotReport true)])))
    ∧ (ImdexReady s p 0x0702 → ∃ u, exec (.fwBegin p true) s = .next u ∧ u.page p = q.answer 0 0 [0] ∧ u.boot.fwNext = some 0 ∧ st u = 1
        ∧ (∀ n, a ≤ n → n < a + 0x400000 → u.norByte n = 0xFF) ∧ stand u a (a + 0x400000))
    ∧ (ImdexReady s p 0x0702 → ∃ u, exec (.fwBegin p false) s = .next u ∧ u.page p = q.answer 0 0 [6] ∧ u.boot.fwNext = none ∧ st u = 1 ∧ stand u a (a + 0x400000))
    ∧ (∀ n, ImdexReady s p 0x0703 → s.boot.fwNext = some n → off.toNat = n → data.length ≤ 2000 → n + data.length ≤ 0x400000 → ∃ u, exec (.fwWrite p off data true) s = .next u
        ∧ u.page p = q.answer 0 0 (0 :: leBytes 4 (n + data.length)) ∧ u.boot.fwNext = some (n + data.length) ∧ st u = 1 ∧ u.norBytes (a + n) data.length = data
        ∧ stand u (a + n) (a + n + data.length))
    ∧ (∀ n, ImdexReady s p 0x0703 → s.boot.fwNext = some n → off.toNat ≠ n → data.length ≤ 2000 → off.toNat + data.length ≤ 0x400000 →
        s.onlyAnswers (.fwWrite p off data true) p 0 0 (2 :: leBytes 4 n))
    ∧ (ImdexReady s p 0x0704 → s.verifySlot b = 0 → ∃ u, exec (.fwVerify p) s = .next u ∧ u.page p = q.answer 0 0 [0] ∧ st u = 2 ∧ u.boot.nor = s.boot.nor)
    ∧ (ImdexReady s p 0x0704 → s.verifySlot b ≠ 0 → ∃ u, exec (.fwVerify p) s = .next u ∧ u.page p = q.answer 0 0 [3, BitVec.ofNat 8 (s.verifySlot b)] ∧ st u = 1)
    ∧ (ImdexReady s p 0x0705 → s.resetBarred = false → s.slotReport b = 2 → s.boot.booted = false ∨ s.bundleVersion (!b) < s.bundleVersion b →
        ∃ u, exec (.fwActivate p) s = .next u ∧ u.page p = q.answer 0 0 [0] ∧ u.boot.resetDue = some (s.now + 10000000))
    ∧ (ImdexReady s p 0x0705 → s.resetBarred = false → s.slotReport b = 2 → s.boot.booted = true → s.bundleVersion b ≤ s.bundleVersion (!b) → s.onlyAnswers (.fwActivate p) p 0 0 [4])
    ∧ (ImdexReady s p 0x0705 → s.resetBarred = true → s.onlyAnswers (.fwActivate p) p 0 0 [1])
    ∧ (ImdexReady s p 0x0706 → ∃ u, exec (.fwInvalidate p true) s = .next u ∧ u.page p = q.answer 0 0 [0] ∧ u.boot.fwNext = none ∧ st u ≤ 1
        ∧ (∀ n, a ≤ n → n < a + 512 → u.norByte n = 0xFF) ∧ stand u a (a + 512))
    ∧ (ImdexReady s p 0x0731 → s.resetBarred = false → ∃ u, exec (.partReset p) s = .next u ∧ u.page p = q.answer 0 0 [0] ∧ u.boot.resetDue = some (s.now + 10000000))
    ∧ (ImdexReady s p 0x0731 → s.resetBarred = true → s.onlyAnswers (.partReset p) p 0 0 [1])
    ∧ (ImdexReady s p 0x0711 → len.toNat ≤ 2000 → off.toNat + len.toNat ≤ 4096 → s.onlyAnswers (.configRead p off len) p 0 0 (0 :: s.norBytes off.toNat len.toNat))
    ∧ (ImdexReady s p 0x0712 → data.length ≤ 2000 → off.toNat + data.length ≤ 4096 → ∃ u, exec (.configStage p off data) s = .next u ∧ u.page p = q.answer 0 0 [0]
        ∧ Memory.bytes u.boot.stage off.toNat data.length = data ∧ u.boot.nor = s.boot.nor)
    ∧ (ImdexReady s p 0x0713 → cfgValid (Memory.bytes s.boot.stage 0 4096) = true → ∃ u, exec (.configCommit p true) s = .next u ∧ u.page p = q.answer 0 0 [0]
        ∧ u.norBytes 0 4096 = Memory.bytes s.boot.stage 0 4096 ∧ stand u 0 4096 ∧ u.boot.cfg = s.boot.cfg)
    ∧ (ImdexReady s p 0x0713 → cfgValid (Memory.bytes s.boot.stage 0 4096) = false → s.onlyAnswers (.configCommit p true) p 0 0 [5])
    ∧ (ImdexReady s p 0x0721 → s.vaultTurn p = true → v.noise = true → ∃ u c, exec (.testChallenge p) s = .next u ∧ u.vault.testChallenge = some c
        ∧ u.page p = q.answer 0 0 (0 :: leBytes 32 c.toNat))
    ∧ (ImdexReady s p 0x0722 → s.vaultTurn p = true → data.length ≤ 2000 → off.toNat + data.length ≤ 4795 → ∃ u, exec (.testStage p off data) s = .next u ∧ u.page p = q.answer 0 0 [0]
        ∧ Memory.bytes u.boot.token off.toNat data.length = data)
    ∧ (ImdexReady s p 0x0723 → s.vaultTurn p = true → v.cmdBusy = false → s.tokenOk token = false → ∃ u, exec (.testUnlock p) s = .next u ∧ u.page p = q.answer 0 0 [7]
        ∧ u.vault.testChallenge = none ∧ u.vault.testOpen = v.testOpen ∧ u.vault.secret = v.secret ∧ u.vault.line = v.line)
    ∧ (ImdexReady s p 0x0723 → s.vaultTurn p = true → v.cmdBusy = false → s.tokenOk token = true → v.testFuses < 16 → ∃ u, exec (.testUnlock p) s = .next u ∧ u.page p = q.answer 0 0 [0]
        ∧ u.vault.testOpen = true ∧ u.vault.testFuses = v.testFuses + 1 ∧ u.vault.secret = 0 ∧ u.vault.epochst = 0 ∧ u.vault.wk = none ∧ u.vault.custody = none
        ∧ u.vault.line = v.line ++ (if s.pwr.vinOn then [(0, 0)] else []) ∧ u.vault.ring = [] ∧ u.vault.journal = [] ∧ u.vault.warea = [] ∧ u.vault.slotmapVer = 0
        ∧ ∀ e t, (u.eng e).iram = [] ∧ (u.eng e).dram = [] ∧ (u.tile t).scratch = [])
    ∧ exec .testChallengeExpiry s = .next (s.updVault fun v => { v with testChallenge := none })
    ∧ (ImdexReady s p 0x0732 → v.ledgerLost = true → s.boot.store = 2 → ∃ u, exec (.storeAdopt p base) s = .next u ∧ u.page p = q.answer 0 0 [0] ∧ u.boot.store = 1
        ∧ u.vault.slotmapVer = s.boot.durable.ver ∧ u.nss = s.boot.durable.nss)
    ∧ (ImdexReady s p 0x0732 → v.ledgerLost = false ∨ s.boot.store ≠ 2 → s.onlyAnswers (.storeAdopt p base) p 0 0 [1])

/-- The custody opcodes: each runs its vault command in the page's turn and answers its result in byte 0, a share or restore through the claimed card
channel. Rests on R366, R368, R374, R380, R384 to R388, R393, R395, R417, R418. -/
def Obligations.CustodyRequestsAnswer : Prop :=
  ∀ (s : State) (p : PageId) (m n i pin : U8) (c : Fin 64) (rs rl rk rr : List (List Word)) (noisy : BitVec 7) (en pol level : Bool) (off : Word) (len : BitVec 16),
    let q := s.page p
    let v := s.vault
    let turn := fun (op : Nat) => ImdexReady s p op ∧ s.vaultTurn p = true ∧ v.cmdBusy = false
    let channel := (∃ l, s.cardPins c = some l ∧ ∀ k ∈ l, ∃ x, s.claim 1 k = some x ∧ x.serves p = true) ∧ c.val % 8 ≤ 5
      ∧ ∀ k < 3, ∃ x, s.claim 3 (c.val + k) = some x ∧ x.serves p = true
    let rx := rs ++ rl ++ rk ++ rr
    let r := s.cardKey c rx
    let wo := fun (k : Bytes) => r.2.2.vltRun 0x09 true true fun s => s.vShareOut i.toNat k
    let wi := r.2.2.vltRun 0x0B true true fun s => s.vChallenge i.toNat
    let store := fun (k : Bytes) => ((wo k).cardAsk c r.2.1 (storeShare i (Memory.bytes (wo k).vault.res 0 289)) 0).1
    let given := (wi.cardAsk c r.2.1 (releaseShare i (Memory.bytes wi.vault.res 0 209)) 80).1
    let opened := fun (k blob : Bytes) (y : BitVec 128) =>
      (gcmOpen (channelKey (bvBytes 48 wi.vault.eph) k (bvBytes 16 y)) (List.replicate 12 0) (bvBytes 16 y) (blob.take 64) (blob.drop 64)).bind (kwUnwrap swk)
    let can := v.devkeyFail = false ∧ v.noise = true
    (ImdexReady s p 0x0801 → s.vaultTurn p = true → s.onlyAnswers (.custodyStatus p) p 0 0 (0 :: ([0x00, 0x04, 0x08, 0x14, 0x40].flatMap (fun o => leBytes 4 (s.vltPeek o).toNat)
        ++ [BitVec.ofNat 8 v.heldMask, BitVec.ofNat 8 v.cardFaults])))
    ∧ (turn 0x0802 → v.devkeyFail = false → v.noise = true → v.epochst = 0 → v.tamper = false → 2 ≤ m.toNat → m.toNat ≤ n.toNat → n.toNat ≤ 8 → ∃ u, exec (.custodyInit p m n) s = .next u
        ∧ u.page p = q.answer 0 0 [0] ∧ u.vault.epochst = 1 ∧ u.vault.epoch = v.floorFuses + 1 ∧ u.vault.wk = some (wkOf u.vault.secret u.vault.epoch) ∧ u.vault.shared = false
        ∧ u.vault.custody = some { m := m.toNat, n := n.toNat, gen := 0, epoch := v.floorFuses + 1, cards := [] } ∧ (u.vault.poly.map List.length) = some (m.toNat - 1))
    ∧ (turn 0x0802 → v.devkeyFail = false → v.noise = true → v.epochst ≠ 0 → ∃ u, exec (.custodyInit p m n) s = .next u ∧ u.page p = q.answer 0 0 [1] ∧ u.vault.secret = v.secret
        ∧ u.vault.epochst = v.epochst)
    ∧ (s.domOn 37 = false ∨ rx = [] → r.1 = none)
    ∧ (turn 0x0803 → channel → r.1 = none → ∃ u, exec (.shareIssue p i c rs (rl ++ rk) rr) s = .next u ∧ u.page p = q.answer 0 0 [6] ∧ u.vault.issued = v.issued)
    ∧ (∀ x y k, turn 0x0803 → channel → r.1 = some k → can → v.wk.isSome = true → v.custody = some x → v.poly = some y → i ≠ 0 → i.toNat ≤ x.n →
        ∃ u, exec (.shareIssue p i c rs (rl ++ rk) rr) s = .next u ∧ (store k = none → u.page p = q.answer 0 0 [6] ∧ u.vault.issued = v.issued)
          ∧ (store k ≠ none → u.page p = q.answer 0 0 [0] ∧ i.toNat ∈ u.vault.issued
            ∧ (u.vault.custody.map fun z => Tbl.get none z.cards i.toNat) = some (some (BitVec.ofNat 64 (ofLe ((sha384 k).take 8))))
            ∧ (u.vault.shared = (v.shared || (List.range x.n).all fun n => u.vault.issued.contains (n + 1)))))
    ∧ (turn 0x0803 → s.claim 3 c = none → ∃ u d, exec (.shareIssue p i c rs (rl ++ rk) rr) s = .next u ∧ u.page p = q.answer 7 d [] ∧ u.vault = v)
    ∧ (∀ x, turn 0x0804 → v.devkeyFail = false → v.noise = true → v.wk.isSome = true → v.custody = some x → ∃ u, exec (.shareRotate p) s = .next u
        ∧ u.page p = q.answer 0 0 [0, BitVec.ofNat 8 ((x.gen + 1) % 256)] ∧ u.vault.custody = some { x with gen := (x.gen + 1) % 256 } ∧ u.vault.secret = v.secret ∧ u.vault.issued = []
        ∧ u.vault.shared = false)
    ∧ (turn 0x0805 → v.epochst = 2 ∨ v.epochst = 3 → v.tamper = false → ∃ u, exec (.restoreBegin p) s = .next u ∧ u.page p = q.answer 0 0 [0] ∧ u.vault.epochst = 4
        ∧ u.vault.before = v.epochst ∧ u.vault.shares = [] ∧ u.vault.cardFaults = 0)
    ∧ (turn 0x0806 → channel → r.1 = none → v.cardFaults < 15 → ∃ u, exec (.restoreAdd p i c rs rl rk rr) s = .next u
        ∧ u.page p = q.answer 0 0 [6, BitVec.ofNat 8 v.shares.length] ∧ u.vault.cardFaults = v.cardFaults + 1 ∧ u.vault.epochst = v.epochst ∧ u.vault.shares = v.shares)
    ∧ (∀ k blob y, turn 0x0806 → channel → r.1 = some k → can → v.epochst = 4 → i ≠ 0 → i.toNat ≤ 8 → wi.vault.challenge = some y → given = some blob →
        (∀ pt, opened k blob y = some pt → v.shares = [] → v.custody = none → v.floor ≤ (shareOfBytes pt).epoch → (shareOfBytes pt).m ≠ 1 →
          ∃ u, exec (.restoreAdd p i c rs rl rk rr) s = .next u ∧ u.page p = q.answer 0 0 [0, 1] ∧ u.vault.shares = [shareOfBytes pt] ∧ u.vault.epochst = 4)
        ∧ (opened k blob y = none → v.cardFaults < 15 → ∃ u, exec (.restoreAdd p i c rs rl rk rr) s = .next u
          ∧ u.page p = q.answer 0 0 [7, BitVec.ofNat 8 v.shares.length] ∧ u.vault.cardFaults = v.cardFaults + 1 ∧ u.vault.shares = v.shares))
    ∧ (turn 0x0807 → v.epochst = 4 → ∃ u, exec (.restoreAbort p) s = .next u ∧ u.page p = q.answer 0 0 [0] ∧ u.vault.epochst = v.before ∧ u.vault.shares = [])
    ∧ (turn 0x0807 → v.epochst ≠ 4 → ∃ u, exec (.restoreAbort p) s = .next u ∧ u.page p = q.answer 0 0 [1] ∧ u.vault.epochst = v.epochst ∧ u.vault.shares = v.shares)
    ∧ (turn 0x0808 → v.tamper = true → noisy &&& s.sensArmed = 0 → ∃ u, exec (.tamperAck p noisy) s = .next u ∧ u.page p = q.answer 0 0 [0] ∧ u.vault.tamper = false ∧ u.vault.mask = 0
        ∧ u.vault.epochst = v.epochst)
    ∧ (turn 0x0808 → v.tamper = true → noisy &&& s.sensArmed ≠ 0 → ∃ u, exec (.tamperAck p noisy) s = .next u ∧ u.page p = q.answer 0 0 [5] ∧ u.vault.tamper = true ∧ u.vault.mask = v.mask)
    ∧ (ImdexReady s p 0x0809 → s.vaultTurn p = true → pin.toNat < 8 → ∃ u, exec (.wakeConfig p pin en pol level) s = .next u ∧ u.page p = q.answer 0 0 [0]
        ∧ u.vault.wakeEn pin.toNat = en ∧ u.vault.wakePol pin.toNat = pol ∧ u.vault.wakeLevel pin.toNat = level)
    ∧ (ImdexReady s p 0x0809 → s.vaultTurn p = true → 8 ≤ pin.toNat → s.onlyAnswers (.wakeConfig p pin en pol level) p 0 0 [2])
    ∧ (ImdexReady s p 0x080A → s.vaultTurn p = true → len.toNat ≤ 2000 → off.toNat + len.toNat ≤ 8192 → ∃ u, exec (.vledgerRead p off len) s = .next u
        ∧ u.page p = q.answer 0 0 (0 :: v.ledgerBytes off.toNat len.toNat) ∧ u.vault.ring = v.ring)
    ∧ (ImdexReady s p 0x080B → s.vaultTurn p = true → s.onlyAnswers (.deviceEraseStatus p) p 0 0 (0 :: leBytes 2 (1024 - v.floorFuses)))

/-- Each vault command runs when none is running, keeps its result and data, and posts CMD_DONE; DEVKEY_FAIL refuses one that needs a key; a command
written while one runs is discarded. The two time limits end a nonce and a restore, and the ledger data port moves on by one word. Rests on R173 to
R176, R340, R362, R364 to R369, R374, R384 to R388, R391, R392, R395, R475, R476. -/
def Obligations.VaultCommandsRun : Prop :=
  ∀ (s : State) (f : FuncId) (mode : Fin 4) (slot : BitVec 20) (gen : Fin 16) (nsx : BitVec 16) (band : Fin 64) (alt : Option (Fin 1024)) (aad ct sealed digest card blob token : Bytes)
    (m n i : U8) (k : Fin 2) (noisy : BitVec 7) (x : Word),
    let v := s.vault
    let nonce := (aad.drop 8).take 16
    let cmds := [(Instr.vltNonce f, 1), (Instr.vltImport f mode slot gen nsx band alt aad ct sealed, 2), (Instr.vltGenerate f mode slot gen nsx band alt, 3), (Instr.vltSign k digest, 4),
      (Instr.vltDeviceErase, 5), (Instr.vltSlotmapBump, 6), (Instr.vltCustodyInit m n, 7), (Instr.vltShareRotate, 8), (Instr.vltShareOut i card, 9), (Instr.vltRestoreBegin, 10),
      (Instr.vltChallenge i, 11), (Instr.vltShareIn i card blob, 12), (Instr.vltRestoreAbort, 13), (Instr.vltTamperAck noisy, 14), (Instr.vltWardenReset, 15), (Instr.vltTestUnlock token, 16)]
    let gives := fun (c : Instr) (u : State) (r : Nat) => exec c s = .next u ∧ u.vault.cmdResult = r ∧ u.vault.cmdBusy = false
    let keyOf := fun (x : BitVec 128) => channelKey (bvBytes 48 v.eph) card (bvBytes 16 x)
    (∀ c ∈ cmds, v.cmdBusy = true → exec c.1 s = .next s)
    ∧ (∀ c ∈ cmds, v.cmdBusy = false → ∃ u, exec c.1 s = .next u ∧ u.vault.cmd = c.2)
    ∧ (v.cmdBusy = false → v.devkeyFail = true → ∃ u, gives (.vltSign k digest) u 0x0B ∧ u.vault.res = [])
    ∧ (v.cmdBusy = false → v.noise = true → ∃ u x, gives (.vltNonce f) u 0 ∧ Tbl.get none u.vault.nonces f = some x ∧ u.vault.res = Memory.put [] 0 (leBytes 16 x.toNat))
    ∧ (∀ w z, v.cmdBusy = false → v.devkeyFail = false → v.wk = some w → nonce.length = 16 → Tbl.get none v.nonces f = some (BitVec.ofNat 128 (ofLe nonce)) →
        gcmOpen (mlkemDecap ct) (List.replicate 12 0) aad (sealed.take 64) (sealed.drop 64) = some z → (mode = 1 → z.take 32 ≠ z.drop 32) → (mode = 2 → ∀ b ∈ z.drop 32, b = 0) →
        ∃ u, gives (.vltImport f mode slot gen nsx band alt aad ct sealed) u 0 ∧ Tbl.get none u.vault.nonces f = none
          ∧ u.vault.res = Memory.put [] 0 (mkRecord w v.epoch slot.toNat gen mode f (alt.map Fin.val) nsx.toNat band z))
    ∧ (v.cmdBusy = false → v.devkeyFail = false → v.wk = none → ∃ u, gives (.vltImport f mode slot gen nsx band alt aad ct sealed) u 3
        ∧ (s.nonceKnown f nonce = true → Tbl.get none u.vault.nonces f = none) ∧ (s.nonceKnown f nonce = false → u.vault.nonces = v.nonces))
    ∧ (∀ w, v.cmdBusy = false → v.devkeyFail = false → v.noise = true → v.wk = some w → mode = 1 ∨ mode = 2 → ∃ u z, gives (.vltGenerate f mode slot gen nsx band alt) u 0
        ∧ z.length = 64 ∧ (mode = 1 → z.take 32 ≠ z.drop 32) ∧ (mode = 2 → z.drop 32 = List.replicate 32 0)
        ∧ u.vault.res = Memory.put [] 0 (mkRecord w v.epoch slot.toNat gen mode f (alt.map Fin.val) nsx.toNat band z))
    ∧ (v.cmdBusy = false → v.devkeyFail = false → digest.length = 48 → ∃ u, gives (.vltSign k digest) u 0
        ∧ u.vault.res = Memory.put [] 0 (ecdsaSign (if k = 0 then idSeed else s.aliasSeed) digest))
    ∧ (v.cmdBusy = false → v.noise = true → v.full = true → v.floorFuses < 1024 → v.epochst = 1 → v.devkeyFail = false → ∃ u, gives .vltDeviceErase u 0 ∧ u.vault.floorFuses = v.floorFuses + 1
        ∧ u.vault.epochst = 1 ∧ u.vault.epoch = max (v.epoch + 1) (v.floorFuses + 2) ∧ u.vault.wk = some (wkOf u.vault.secret u.vault.epoch) ∧ u.vault.nonces = []
        ∧ u.vault.line = v.line ++ (if s.pwr.vinOn then [(0, 0)] else []))
    ∧ (v.cmdBusy = false → ∃ u, gives .vltSlotmapBump u 0 ∧ u.vault.slotmapVer = v.slotmapVer + 1)
    ∧ (v.cmdBusy = false → v.devkeyFail = false → v.noise = true → v.epochst = 0 → v.tamper = false → 2 ≤ m.toNat → m.toNat ≤ n.toNat → n.toNat ≤ 8 → ∃ u, gives (.vltCustodyInit m n) u 0
        ∧ u.vault.epochst = 1 ∧ u.vault.epoch = v.floorFuses + 1 ∧ u.vault.custody = some { m := m.toNat, n := n.toNat, gen := 0, epoch := v.floorFuses + 1, cards := [] })
    ∧ (∀ x, v.cmdBusy = false → v.devkeyFail = false → v.noise = true → v.wk.isSome = true → v.custody = some x → ∃ u, gives .vltShareRotate u 0
        ∧ u.vault.custody = some { x with gen := (x.gen + 1) % 256 } ∧ u.vault.issued = [] ∧ u.vault.shared = false ∧ u.vault.secret = v.secret)
    ∧ (∀ x y, v.cmdBusy = false → v.devkeyFail = false → v.noise = true → v.wk.isSome = true → v.custody = some x → v.poly = some y → i ≠ 0 → i.toNat ≤ x.n → card.length = 97 →
        ∃ u, gives (.vltShareOut i card) u 0 ∧ i.toNat ∈ u.vault.issued ∧ (u.vault.custody.map Custody.gen) = some x.gen)
    ∧ (v.cmdBusy = false → v.epochst = 2 ∨ v.epochst = 3 → v.tamper = false → ∃ u, gives .vltRestoreBegin u 0 ∧ u.vault.epochst = 4 ∧ u.vault.before = v.epochst ∧ u.vault.shares = [])
    ∧ (v.cmdBusy = false → v.devkeyFail = false → v.noise = true → v.epochst = 4 → i ≠ 0 → i.toNat ≤ 8 → ∃ u, gives (.vltChallenge i) u 0 ∧ u.vault.challenge.isSome = true ∧ u.vault.epochst = 4)
    ∧ (∀ x b pt, v.cmdBusy = false → v.devkeyFail = false → v.challenge = some x → v.epochst = 4 → v.shares = [] → v.custody = none →
        gcmOpen (keyOf x) (List.replicate 12 0) (bvBytes 16 x) (blob.take 64) (blob.drop 64) = some b → kwUnwrap swk b = some pt → v.floor ≤ (shareOfBytes pt).epoch →
        (shareOfBytes pt).m ≠ 1 → ∃ u, gives (.vltShareIn i card blob) u 0 ∧ u.vault.shares = [shareOfBytes pt] ∧ u.vault.challenge = none ∧ u.vault.epochst = 4)
    ∧ (∀ x, v.cmdBusy = false → v.devkeyFail = false → v.challenge = some x → v.epochst = 4 → v.cardFaults < 15 →
        gcmOpen (keyOf x) (List.replicate 12 0) (bvBytes 16 x) (blob.take 64) (blob.drop 64) = none → ∃ u, gives (.vltShareIn i card blob) u 7 ∧ u.vault.cardFaults = v.cardFaults + 1
          ∧ u.vault.shares = v.shares ∧ u.vault.challenge = none)
    ∧ (v.cmdBusy = false → v.epochst = 4 → ∃ u, gives .vltRestoreAbort u 0 ∧ u.vault.epochst = v.before ∧ u.vault.shares = [])
    ∧ (v.cmdBusy = false → v.tamper = true → noisy &&& s.sensArmed = 0 → ∃ u, gives (.vltTamperAck noisy) u 0 ∧ u.vault.tamper = false ∧ u.vault.mask = 0 ∧ u.vault.trips = 0)
    ∧ (v.cmdBusy = false → v.tamper = true → noisy &&& s.sensArmed ≠ 0 → ∃ u, gives (.vltTamperAck noisy) u 5 ∧ u.vault.tamper = true)
    ∧ (v.cmdBusy = false → ∃ u, gives .vltWardenReset u 0 ∧ u.vault.restarts = v.restarts + 1 ∧ u.warden.fw = false ∧ u.warden.proc.pc = 0x10000000)
    ∧ (v.cmdBusy = false → s.tokenOk token = true → v.testFuses < 16 → ∃ u, gives (.vltTestUnlock token) u 0 ∧ u.vault.testOpen = true ∧ u.vault.secret = 0 ∧ u.vault.epochst = 0
        ∧ u.vault.wk = none ∧ u.vault.testFuses = v.testFuses + 1)
    ∧ exec (.nonceExpiry f) s = .next (s.updVault fun v => { v with nonces := Tbl.set none v.nonces f none })
    ∧ (∃ u, exec .restoreTimeout s = .next u ∧ u.vault.shares = [] ∧ (v.epochst = 4 → u.vault.epochst = v.before ∧ u.vault.challenge = none) ∧ u.vault.secret = v.secret)
    ∧ (∃ u, exec (.ledgerDataAccess none) s = .next u ∧ u.vault.laddr = (v.laddr + 1) % 2048 ∧ u.vault.warea = v.warea ∧ u.vault.journal = v.journal ∧ u.vault.ring = v.ring)
    ∧ (1024 ≤ v.laddr → v.laddr < 2048 → exec (.ledgerDataAccess (some x)) s = .next (s.updVault fun v =>
        { v with warea := Memory.putNum v.warea (4 * v.laddr - 0x1000) 4 x.toNat, laddr := (v.laddr + 1) % 2048 }))
    ∧ (v.laddr < 512 → exec (.ledgerDataAccess (some x)) s = .next (s.updVault fun v => { v with laddr := (v.laddr + 1) % 2048 }))

/-- What happens to the vault: trips, its sensors, the custody rail and VHOLD, its start, wakes, and the two time limits; and the ledger data port. A trip
of armed sensors clears the epoch and drives the purge line; a part without an epoch keeps BLANK (log 35). Rests on R173, R364, R369, R371 to R373,
R375 to R377, R380 to R382, R387, R391, R446. -/
def Obligations.VaultEventsTake : Prop :=
  ∀ (s : State) (sensors : BitVec 7) (first : Fin 7) (mv : Fin 6500) (hold : BitVec 16) (f : FuncId) (pufFail noiseOk : Bool) (bad : BitVec 5) (pin : Fin 8) (levels : U8) (x : Word),
    let v := s.vault
    let hit := sensors &&& s.sensArmed
    let woken := fun (u : State) => u.vault.wakeValid = true ∧ u.vault.wakeSrc = pin.val ∧ u.vault.wakeMask = 1 <<< pin.val ∧ u.vault.wakePin = levels
    (hit = 0 → exec (.tamperTrip sensors first) s = .next s)
    ∧ (hit ≠ 0 → ∃ u, exec (.tamperTrip sensors first) s = .next u ∧ u.vault.secret = 0 ∧ u.vault.epoch = 0 ∧ u.vault.wk = none ∧ u.vault.nonces = [] ∧ u.vault.shares = []
        ∧ u.vault.tamper = true ∧ u.vault.mask = v.mask ||| hit ∧ u.vault.trips = satAdd v.trips 1 ∧ u.vault.epochst = (if v.endRestore.epochst = 0 then 0 else 2)
        ∧ (hit.getLsbD first = true → v.mask = 0 → u.vault.first = first.val) ∧ u.vault.line = v.line ++ (if s.pwr.vinOn then [(1, 0)] else [])
        ∧ (∃ r, u.vault.tamperRec = some r ∧ r.sensors = v.mask ||| hit ∧ r.vtime = s.vtime ∧ r.detail1 = s.pwr.vin ∧ r.detail2 = s.pwr.vhold)
        ∧ ∃ ev, Tbl.get none u.vault.ring v.evHead = some ev ∧ ev.kind = 1)
    ∧ exec .vholdGlitchArm s = .next (s.updVault fun v => { v with glitchArmed := true })
    ∧ exec .vholdGlitchDisarm s = .next (s.updVault fun v => { v with glitchArmed := false })
    ∧ (∃ u, exec .brownout s = .next u ∧ u.vault.shed = true ∧ u.vault.brownout = true ∧ u.vault.brownouts = satAdd v.brownouts 1 ∧ u.sensArmed &&& 0x22 = 0 ∧ u.vault.secret = v.secret)
    ∧ exec .brownoutRecovery s = .next (s.updVault fun v => { v with shed := false })
    ∧ (∃ u, exec (.vholdLow mv) s = .next u ∧ u.vault.vholdLow = true ∧ u.vault.vholdFell = s.vtime ∧ u.pwr = { s.pwr with vhold := mv })
    ∧ (∃ u, exec (.nohold hold) s = .next u ∧ u.pwr = { s.pwr with vhold := hold.toNat }
        ∧ u.vault = { v with nohold := decide (hold.toNat < 4500) && (v.nohold || v.full), vholdLow := v.vholdLow && decide (hold.toNat < 6500) }
        ∧ (v.nohold = false → u.vault.nohold = true → s.fwUp = true → u.out = .operator 0x82 0 :: s.out))
    ∧ ((v.epochst = 1 → v.check = checkOf v.secret v.epoch) → ∃ u, exec (.vaultCoreStart false pufFail noiseOk 0) s = .next u ∧ u.vault.devkeyFail = pufFail ∧ u.vault.noise = noiseOk ∧ u.vault.secret = v.secret ∧ u.vault.epochst = v.epochst
        ∧ u.vault.wk = (if v.epochst = 1 ∧ pufFail = false then some (wkOf v.secret v.epoch) else none) ∧ u.vault.ring = v.ring)
    ∧ (v.epochst = 1 → v.check ≠ checkOf v.secret v.epoch → ∃ u, exec (.vaultCoreStart false pufFail noiseOk 0) s = .next u ∧ u.vault.secret = 0 ∧ u.vault.wk = none
        ∧ u.vault.epochst = 3 ∧ ∃ ev, Tbl.get none u.vault.ring v.evHead = some ev ∧ ev.kind = 7)
    ∧ (∃ u, exec (.vaultCoreStart true pufFail noiseOk bad) s = .next u ∧ u.vault.secret = 0 ∧ u.vault.epoch = 0 ∧ u.vault.wk = none ∧ u.vault.tamper = false
        ∧ u.vault.epochst = (if v.endRestore.epochst = 0 then 0 else 3) ∧ (bad ≠ 0 → u.vault.ledgerLost = true) ∧ (bad.getLsbD 4 = true → u.vault.custody = none))
    ∧ (exec (.wake pin 0 levels) s = .next (s.updVault fun v => { v with wakePin := levels }))
    ∧ (v.wakeEn pin.val = true → levels.getLsbD pin = v.wakePol pin.val → (s.pwr.vinOn = true → s.pwr.mode = 0 → ∃ u, exec (.wake pin (1 <<< pin.val) levels) s = .next u ∧ woken u ∧ u.pwr = s.pwr)
        ∧ (s.pwr.vinOn = true → s.pwr.mode = 1 → s.fwUp = true → s.pwr.stage = 0 → ∃ u, exec (.wake pin (1 <<< pin.val) levels) s = .next u ∧ woken u ∧ u.pwr.mode = 0)
        ∧ (s.pwr.vinOn = false → 6000 ≤ s.pwr.vin → ∃ u, exec (.wake pin (1 <<< pin.val) levels) s = .next u ∧ woken u ∧ u.pwr.vinOn = true
          ∧ u.glb.rstcause = (if s.pwr.thermalOff then 16 else 8)))
    ∧ exec (.nonceExpiry f) s = .next (s.updVault fun v => { v with nonces := Tbl.set none v.nonces f none })
    ∧ (∃ u, exec .restoreTimeout s = .next u ∧ u.vault.shares = [] ∧ (v.epochst = 4 → u.vault.epochst = v.before ∧ u.vault.challenge = none) ∧ u.vault.secret = v.secret)
    ∧ (∃ u, exec (.ledgerDataAccess none) s = .next u ∧ u.vault.laddr = (v.laddr + 1) % 2048 ∧ u.vault.warea = v.warea ∧ u.vault.journal = v.journal ∧ u.vault.ring = v.ring)
    ∧ (1024 ≤ v.laddr → v.laddr < 2048 → exec (.ledgerDataAccess (some x)) s = .next (s.updVault fun v =>
        { v with warea := Memory.putNum v.warea (4 * v.laddr - 0x1000) 4 x.toNat, laddr := (v.laddr + 1) % 2048 }))
    ∧ (v.laddr < 512 → exec (.ledgerDataAccess (some x)) s = .next (s.updVault fun v => { v with laddr := (v.laddr + 1) % 2048 }))

/-- Power-up, the part resets, the boot ROM, the loading of the store, the switching of domains, and the start of the vault core. Rests on R149, R340,
R342, R364, R369, R377, R382, R429 to R431, R436, R453 to R456, R459 to R463, R469, R470, R485, R486. -/
def Obligations.StartAndResetsTake : Prop :=
  ∀ (s : State) (mv : Fin 40001) (iin key : BitVec 16) (norOk cfgOk hi : Bool) (base : Fin 32) (value : Word) (i : Fin 40) (t : TileId) (g : GroupId) (pufFail noiseOk : Bool) (bad : BitVec 5),
    let v := s.vault
    let first : Bool := decide (s.bundleVersion false < s.bundleVersion true)
    let restarted := fun (u : State) (cause : Word) => u.glb.rstcause = cause ∧ u.pwr.vinOn = true ∧ u.pwr.domon = 0xFF00000000 ∧ u.warden.up = true ∧ u.warden.fw = false
      ∧ u.warden.proc = State.reset.warden.proc ∧ u.vault.secret = v.secret ∧ u.vault.epochst = v.epochst ∧ u.vault.full = true ∧ u.vault.restarts = 0 ∧ u.boot.nor = s.boot.nor
      ∧ u.boot.booted = false ∧ u.nss = [] ∧ u.engines = [] ∧ u.tiles = [] ∧ u.pages = [] ∧ u.pending = s.pending ∧ u.vtime = s.vtime
    (s.pwr.vinOn = false → 6000 ≤ mv.val → s.vinFell = true → ∃ u, exec (.powerUp mv iin) s = .next u ∧ restarted u (if s.pwr.thermalOff then 16 else if s.pwr.brumated then 8 else 1)
        ∧ u.pwr.vin = mv ∧ u.vault.wakeValid = true ∧ u.vault.wakeSrc = 8)
    ∧ (s.pwr.vinOn = true ∨ mv.val < 6000 ∨ s.vinFell = false → exec (.powerUp mv iin) s = .next (s.updPwr fun p => { p with vin := mv, iin := iin.toNat }))
    ∧ (s.pwr.vinOn = true → ∃ u, exec .partRstPin s = .next u ∧ restarted u 2)
    ∧ (s.pwr.vinOn = false → exec .partRstPin s = .next s)
    ∧ (s.pwr.vinOn = true → key = 0x5A17 → ∃ u, exec (.partrst key) s = .next u ∧ restarted u 4)
    ∧ (key ≠ 0x5A17 → exec (.partrst key) s = .next s)
    ∧ (s.warden.up = true → s.domOn 36 = true → s.warden.fw = false → s.warden.recovery = false → s.boot.recov = false →
      (s.boot.booted = false → s.verifySlot first = 0 → ∃ u, exec (.wardenBoot true cfgOk) s = .next u ∧ u.warden.fw = true ∧ u.warden.recovery = false ∧ u.boot.booted = true
        ∧ u.boot.slotB = first ∧ u.warden.iram = memOf (s.wardenImage first) ∧ u.cfgDefaulted = !(cfgOk && cfgValid s.cfgBlock) ∧ u.boot.nor = s.boot.nor ∧ u.vault = v)
      ∧ (s.boot.booted = false → s.verifySlot false ≠ 0 → s.verifySlot true ≠ 0 → ∃ u, exec (.wardenBoot norOk cfgOk) s = .next u ∧ u.warden.recovery = true ∧ u.warden.fw = false
        ∧ u.boot.recov = true)
      ∧ (s.boot.booted = true → s.verifySlot s.boot.slotB = 0 → ∃ u, exec (.wardenBoot true cfgOk) s = .next u ∧ u.warden.fw = true ∧ u.warden.iram = memOf (s.wardenImage s.boot.slotB)
        ∧ u.pwr = s.pwr ∧ (s.molts = [] → u.nss = s.nss) ∧ u.warden.erasesFirst = true)
      ∧ (s.boot.booted = true → s.verifySlot s.boot.slotB ≠ 0 → ∃ u, exec (.wardenBoot norOk cfgOk) s = .next u ∧ u.warden.recovery = true ∧ u.boot.recov = true))
    ∧ (s.fwUp = true → s.cfgDefaulted = false → s.boot.store = 0 →
      (s.boot.durable.ver = v.slotmapVer → ∃ u, exec (.storeLoad base) s = .next u ∧ u.boot.store = 1 ∧ u.nss = s.boot.durable.nss ∧ u.vault.slotmapVer = v.slotmapVer
        ∧ u.boot.tableBase = some (base.val * 2 ^ 27) ∧ ∀ k < 4, s.flt.qquad.getLsbD k = false → (u.quad k).en = true)
      ∧ (s.boot.durable.ver = v.slotmapVer + 1 → ∃ u, exec (.storeLoad base) s = .next u ∧ u.boot.store = 1 ∧ u.nss = s.boot.durable.nss ∧ u.vault.slotmapVer = v.slotmapVer + 1)
      ∧ (s.boot.durable.ver ≠ v.slotmapVer → s.boot.durable.ver ≠ v.slotmapVer + 1 → ∃ u, exec (.storeLoad base) s = .next u ∧ u.boot.store = 2 ∧ u.nss = s.nss
        ∧ u.vault.slotmapVer = v.slotmapVer))
    ∧ (∃ u, exec (.domreqWrite false value) s = .next u ∧ u.pwr.domon = s.pwr.domon
        ∧ ((value.getLsbD (16 + g) = true → s.domOn (32 + g / 8) = true) → (value.getLsbD (16 + g) = false → (s.group g).en = 0) → u.pwr.domreq.getLsbD (16 + g) = value.getLsbD (16 + g))
        ∧ (value.getLsbD t = false → s.pwr.domreq.getLsbD t = true → s.tileHalted t = false → u.pwr.domreq.getLsbD t = true ∧ u.pwr.orderErr = true)
        ∧ (value.getLsbD t = true → s.domOn (32 + t / 8) = true → u.pwr.domreq.getLsbD t = true))
    ∧ (∃ u, exec (.domreqWrite true value) s = .next u ∧ u.pwr.domreq.getLsbD 37 = value.getLsbD 5 ∧ u.pwr.domreq.getLsbD 36 = s.pwr.domreq.getLsbD 36 ∧ u.pwr.domon = s.pwr.domon)
    ∧ (s.pwr.domreq.getLsbD i = s.domOn i → exec (.domainSwitchComplete i) s = .next s)
    ∧ (s.pwr.domreq.getLsbD t = true → s.tileOn t = false → (s.pwr.rail t).driven = true → ∃ u, exec (.domainSwitchComplete (t.castLE (by decide))) s = .next u ∧ u.tileOn t = true
        ∧ ∀ e, e / 8 = t.val → (u.eng e).run = 2 ∧ (u.eng e).halt = true ∧ (u.eng e).cuTesting = true ∧ (u.eng e).slots = [])
    ∧ (s.pwr.domreq.getLsbD t = false → s.tileOn t = true → s.noCounts t = true → s.pwr.heldq = [] → s.erases = [] →
        ∃ u, exec (.domainSwitchComplete (t.castLE (by decide))) s = .next u ∧ u.tileOn t = false ∧ u.tile t = Tile.init ∧ (u.pwr.rail t).cur = 0)
    ∧ (i.val = 37 → s.pwr.domreq.getLsbD 37 = true → s.domOn 37 = false → exec (.domainSwitchComplete i) s = .next (s.setDom 37 true))
    ∧ (i.val = 34 → s.pwr.domreq.getLsbD 34 = false → s.domOn 34 = true → ∃ u, exec (.domainSwitchComplete i) s = .next u ∧ u.domOn 34 = false ∧ u.stackA = [] ∧ u.stackB = s.stackB)
    ∧ ((v.epochst = 1 → v.check = checkOf v.secret v.epoch) → ∃ u, exec (.vaultCoreStart false pufFail noiseOk 0) s = .next u ∧ u.vault.devkeyFail = pufFail ∧ u.vault.noise = noiseOk ∧ u.vault.secret = v.secret ∧ u.vault.epochst = v.epochst
        ∧ u.vault.wk = (if v.epochst = 1 ∧ pufFail = false then some (wkOf v.secret v.epoch) else none) ∧ u.vault.ring = v.ring)
    ∧ (v.epochst = 1 → v.check ≠ checkOf v.secret v.epoch → ∃ u, exec (.vaultCoreStart false pufFail noiseOk 0) s = .next u ∧ u.vault.secret = 0 ∧ u.vault.wk = none
        ∧ u.vault.epochst = 3 ∧ ∃ ev, Tbl.get none u.vault.ring v.evHead = some ev ∧ ev.kind = 7)
    ∧ (∃ u, exec (.vaultCoreStart true pufFail noiseOk bad) s = .next u ∧ u.vault.secret = 0 ∧ u.vault.epoch = 0 ∧ u.vault.wk = none ∧ u.vault.tamper = false
        ∧ u.vault.epochst = (if v.endRestore.epochst = 0 then 0 else 3) ∧ (bad ≠ 0 → u.vault.ledgerLost = true) ∧ (bad.getLsbD 4 = true → u.vault.custody = none))

/-- Tail drop, the thermal clip and shutdown, the tile rails under the budget, BRUMATE and the DRAM's low-power states; the custody rail, VHOLD and the
wakes. Rests on R206, R233, R238, R371, R375, R376, R378, R380 to R382, R432 to R440, R445, R446, R448 to R452, R485, R487, R490. -/
def Obligations.PowerEventsTake : Prop :=
  ∀ (s : State) (mv : Fin 40001) (iin : BitVec 16) (volts : List Nat) (tj : U8) (t : TileId) (target now : Fin 1024) (value : Fin 8192) (ch : Fin 16) (low : Fin 6500) (hold : BitVec 16) (pin : Fin 8) (levels : U8),
    let p := s.pwr
    let v := s.vault
    let woken := fun (u : State) => u.vault.wakeValid = true ∧ u.vault.wakeSrc = pin.val ∧ u.vault.wakeMask = 1 <<< pin.val ∧ u.vault.wakePin = levels
    let k := p.stage + 1
    let r := p.rail t
    let off := fun (u : State) => u.pwr.vinOn = false ∧ u.pwr.brumated = true ∧ u.pwr.domon = 0 ∧ u.vault.full = false ∧ u.vault.secret = s.vault.secret ∧ u.vault.nonces = []
      ∧ u.vault.offTime = s.vtime
    let measured := s.updPwr fun p => { p with vin := mv, iin := iin.toNat }
    let want := r.toward (railNorm target.val)
    let m := 1#16 <<< ch.val
    (p.vinOn = true → k ≤ 4 → mv.val < stageEnter k → ∃ u, exec (.tailDropEntry mv iin) s = .next u ∧ u.pwr.stage = k ∧ u.pwr.deepest = max p.deepest k ∧ u.pwr.vin = mv
        ∧ (k = 1 → u.pwr.entries = satAdd p.entries 1) ∧ (k = 2 → p.thermClip = false → p.mode = 0 → ∀ n < 16, (u.pwr.rail n).target = min (p.rail n).target 750 ∧ (u.pwr.rail n).req = (p.rail n).target)
        ∧ (s.domOn 36 = true → u.warden.pend.getLsbD 149 = true))
    ∧ (p.vinOn = true → p.stage = 4 → mv.val < 5000 → ∃ u, exec (.tailDropEntry mv iin) s = .next u ∧ off u ∧ u.vault.deepest = 5)
    ∧ (p.vinOn = false ∨ stageEnter k ≤ mv.val → exec (.tailDropEntry mv iin) s = .next measured)
    ∧ (p.vinOn = true → p.stage ≠ 0 → stageLeave p.stage ≤ mv.val → ∃ u, exec (.tailDropExit mv iin volts) s = .next u ∧ u.pwr.stage = p.stage - 1 ∧ u.pwr.deepest = p.deepest
        ∧ (p.stage = 2 → p.thermClip = false → ∀ n < 16, (u.pwr.rail n).target = (p.rail n).req) ∧ (s.domOn 36 = true → u.warden.pend.getLsbD 149 = true))
    ∧ (p.vinOn = false ∨ p.stage = 0 ∨ mv.val < stageLeave p.stage → exec (.tailDropExit mv iin volts) s = .next measured)
    ∧ (p.vinOn = true → mv.val < 4600 → ∃ u, exec (.vinCollapse mv iin) s = .next u ∧ off u ∧ u.vault.deepest = 5)
    ∧ (p.vinOn = false ∨ 4600 ≤ mv.val → exec (.vinCollapse mv iin) s = .next measured)
    ∧ (s.domOn 38 = true → p.thermClip = false → 110 ≤ degrees tj → ∃ u, exec (.thermalClip tj) s = .next u ∧ u.pwr.thermClip = true ∧ u.glb.tj = tj ∧ u.pwr.stage = p.stage
        ∧ (p.stage < 2 → p.mode = 0 → ∀ n < 16, (u.pwr.rail n).target = min (p.rail n).target 750) ∧ (s.domOn 36 = true → u.warden.pend.getLsbD 148 = true))
    ∧ (s.domOn 38 = true → p.thermClip = true → degrees tj < 100 → ∃ u, exec (.thermalClipEnd tj volts) s = .next u ∧ u.pwr.thermClip = false
        ∧ (p.stage < 2 → ∀ n < 16, (u.pwr.rail n).target = (p.rail n).req) ∧ (s.domOn 36 = true → u.warden.pend.getLsbD 148 = true))
    ∧ (p.vinOn = true → 120 ≤ degrees tj → ∃ u, exec (.thermalShutdown tj) s = .next u ∧ off u ∧ u.pwr.thermalOff = true ∧ u.glb.tj = tj)
    ∧ (degrees tj < 120 → exec (.thermalShutdown tj) s = .next s)
    ∧ (s.domOn 38 = true → (s.glb.trip.toNat : Int) ≤ degrees tj → ∃ u, exec (.thermThreshold tj) s = .next u ∧ u.glb = { s.glb with tj := tj, hot := true }
        ∧ (s.glb.hot = false → s.domOn 36 = true → u.warden.pend.getLsbD 148 = true))
    ∧ (s.domOn 38 = true → degrees tj < (s.glb.trip.toNat : Int) - s.glb.hyst.toNat → ∃ u, exec (.thermThreshold tj) s = .next u ∧ u.glb = { s.glb with tj := tj, hot := false })
    ∧ (p.overridden = true → exec (.railTargetWrite t target now) s = .next (s.updPwr fun p => p.setRail t { r with req := target }))
    ∧ (p.overridden = false → ∃ u, exec (.railTargetWrite t target now) s = .next u ∧ (u.pwr.rail t).target = target ∧ (u.pwr.rail t).req = target
        ∧ (r.driven = true → s.tileOn t = true → r.held = none → p.heldq = [] → r.charge < want.charge → p.fits t want = false →
          (u.pwr.rail t).held = some (railNorm target.val) ∧ u.pwr.heldq = [t.val])
        ∧ (r.driven = true → s.tileOn t = true → r.held = none → p.heldq = [] → want.charge ≤ r.charge ∨ p.fits t want = true → (u.pwr.rail t).cur = railNorm target.val ∧ u.pwr.heldq = []))
    ∧ (s.tileOn t = true → r.settled = false → p.heldq = [] → ∃ u, exec (.railSettled t now) s = .next u
        ∧ u.pwr.rail t = { r with settled := true, settledAt := r.cur, targets := [], vout := min (r.cur + 15) (max r.cur now.val) } ∧ (s.domOn 36 = true → u.warden.pend.getLsbD 150 = true))
    ∧ (p.heldq = [] → exec (.budgetWrite value) s = .next (s.updPwr fun p => { p with budget := value }))
    ∧ (p.vinOn = true → ∃ u, exec .brumate s = .next u ∧ off u ∧ u.vault.deepest = p.deepest)
    ∧ exec .tdstatClr s = .next (s.updPwr fun p => { p with deepest := p.stage })
    ∧ (s.domOn (34 + ch.val / 8) = true → exec (.dramSelfRefresh ch 0) s = .next (s.updPwr fun p => { p with selfRef := p.selfRef &&& ~~~m, pdown := p.pdown &&& ~~~m })
        ∧ exec (.dramSelfRefresh ch 1) s = .next (s.updPwr fun p => { p with pdown := p.pdown ||| m })
        ∧ (p.sren = true ∨ p.mode = 1 → exec (.dramSelfRefresh ch 2) s = .next (s.updPwr fun p => { p with selfRef := p.selfRef ||| m, pdown := p.pdown &&& ~~~m })))
    ∧ exec .vholdGlitchArm s = .next (s.updVault fun v => { v with glitchArmed := true })
    ∧ exec .vholdGlitchDisarm s = .next (s.updVault fun v => { v with glitchArmed := false })
    ∧ (∃ u, exec .brownout s = .next u ∧ u.vault.shed = true ∧ u.vault.brownout = true ∧ u.vault.brownouts = satAdd v.brownouts 1 ∧ u.sensArmed &&& 0x22 = 0 ∧ u.vault.secret = v.secret)
    ∧ exec .brownoutRecovery s = .next (s.updVault fun v => { v with shed := false })
    ∧ (∃ u, exec (.vholdLow low) s = .next u ∧ u.vault.vholdLow = true ∧ u.vault.vholdFell = s.vtime ∧ u.pwr = { s.pwr with vhold := low })
    ∧ (∃ u, exec (.nohold hold) s = .next u ∧ u.pwr = { s.pwr with vhold := hold.toNat }
        ∧ u.vault = { v with nohold := decide (hold.toNat < 4500) && (v.nohold || v.full), vholdLow := v.vholdLow && decide (hold.toNat < 6500) }
        ∧ (v.nohold = false → u.vault.nohold = true → s.fwUp = true → u.out = .operator 0x82 0 :: s.out))
    ∧ (exec (.wake pin 0 levels) s = .next (s.updVault fun v => { v with wakePin := levels }))
    ∧ (v.wakeEn pin.val = true → levels.getLsbD pin = v.wakePol pin.val → (s.pwr.vinOn = true → s.pwr.mode = 0 → ∃ u, exec (.wake pin (1 <<< pin.val) levels) s = .next u ∧ woken u ∧ u.pwr = s.pwr)
        ∧ (s.pwr.vinOn = true → s.pwr.mode = 1 → s.fwUp = true → s.pwr.stage = 0 → ∃ u, exec (.wake pin (1 <<< pin.val) levels) s = .next u ∧ woken u ∧ u.pwr.mode = 0)
        ∧ (s.pwr.vinOn = false → 6000 ≤ s.pwr.vin → ∃ u, exec (.wake pin (1 <<< pin.val) levels) s = .next u ∧ woken u ∧ u.pwr.vinOn = true
          ∧ u.glb.rstcause = (if s.pwr.thermalOff then 16 else 8)))

/-- Each tadpole instruction executes in its context's slot: it completes and PC goes on by one, or it jumps, repeats, stalls, stops or faults as R400 to
R404 say, the fault of an illegal word being that command's own effect; a context that does not run executes nothing. Rests on R397 to R404. -/
def Obligations.TadpoleInstructionsComplete : Prop :=
  ∀ (s : State) (n c a b test flag : Fin 8) (neg k append lvl : Bool) (addr count index : BitVec 6) (imm : BitVec 10) (mask : BitVec 5) (op : Fin 4) (balls : DWord) (word : BitVec 16),
    let x := s.tctx n c
    let step := fun (s : State) (f : TCtx → TCtx) => s.updCtx n c fun x => { f x with pc := (x.pc + 1) % 64, stall := false }
    let fault := fun (cause : Nat) => s.updCtx n c fun x => { x with st := 3, fcause := cause, stall := false }
    let waits := fun (s : State) => s.updCtx n c fun x => { x with stall := true }
    let jump := fun (s : State) => s.updCtx n c fun x => { x with pc := addr.toNat, stall := false }
    let at_ := s.setBalls balls
    let low := BitVec.ofNat 32 (2 ^ count.toNat - 1)
    let len := fun (v : Nat) => if v = 0 then 32 else v
    let pcOn := fun (u : State) => (u.tctx n c).pc = (x.pc + 1) % 64
    s.tadRuns n c = true →
    (∀ y, (test = 0 ∧ y = true) ∨ (test = 1 ∧ y = decide (x.k0 = 0)) ∨ (test = 2 ∧ y = decide (x.k1 = 0)) ∨ (test = 3 ∧ y = decide (x.k0 = x.k1)) ∨ (test = 5 ∧ y = decide (len (fld x.ccfg.toNat 12 8) ≤ x.txc))
        ∨ (test = 6 ∧ y = decide (len (fld x.ccfg.toNat 20 16) ≤ x.rxc)) ∨ (test = 7 ∧ y = !x.tx.isEmpty) →
        exec (.goTadpole n c test neg addr balls) s = .next (if y != neg then jump s else step s id))
    ∧ (exec (.goTadpole n c 4 neg addr balls) s = .next (if at_.tadPin n x.probe != neg then jump at_ else step at_ id))
    ∧ (x.k0 = 0 → exec (.cdn n c false) s = .next (step s id)) ∧ (x.k1 = 0 → exec (.cdn n c true) s = .next (step s id))
    ∧ (x.k0 ≠ 0 → exec (.cdn n c false) s = .next (s.updCtx n c fun y => { y with k0 := x.k0 - 1, stall := false }))
    ∧ (x.k1 ≠ 0 → exec (.cdn n c true) s = .next (s.updCtx n c fun y => { y with k1 := x.k1 - 1, stall := false }))
    ∧ (exec (.hold n c lvl 0 index balls) s = .next (if at_.tadPin n index.toNat = lvl then step at_ id else waits at_))
    ∧ (∀ j < 8, index.toNat = j → (s.tad n).flags.getLsbD j ≠ lvl → exec (.hold n c lvl 3 index balls) s = .next (waits s))
    ∧ (∀ j < 8, index.toNat = j → (s.tad n).flags.getLsbD j = true → lvl = true → ∃ u, exec (.hold n c lvl 3 index balls) s = .next u ∧ (u.tad n).flags.getLsbD j = false
        ∧ pcOn u)
    ∧ (exec (.hold n c lvl 1 index balls) s = .next (if at_.tadPin n (x.inBase + index.toNat % 32) = lvl then step at_ id else waits at_))
    ∧ (exec (.hold n c false 2 index balls) s = .next (fault 1))
    ∧ (∀ i < 8, index.toNat = i → x.ccfg.getLsbD (24 + i) = false → exec (.hold n c true 2 index balls) s = .next (fault 2))
    ∧ (∀ i < 8, index.toNat = i → x.ccfg.getLsbD (24 + i) = true → Tbl.get 0 x.seen i = (s.ticker i).expires.toNat → exec (.hold n c true 2 index balls) s = .next (waits s))
    ∧ (∀ i < 8, index.toNat = i → x.ccfg.getLsbD (24 + i) = true → Tbl.get 0 x.seen i ≠ (s.ticker i).expires.toNat → ∃ u, exec (.hold n c true 2 index balls) s = .next u ∧ pcOn u
        ∧ Tbl.get 0 (u.tctx n c).seen i = (Tbl.get 0 x.seen i + 1) % 65536)
    ∧ (∀ v, 0 < count.toNat → count.toNat ≤ 32 → (a = 1 ∧ v = x.k0) ∨ (a = 2 ∧ v = x.k1) ∨ (a = 3 ∧ v = 0) ∨ (a = 4 ∧ v = 0xFFFFFFFF) ∨ (a = 5 ∧ v = x.txr) ∨ (a = 0 ∧ v = at_.inWindow n c) →
        ∃ u, exec (.shin n c a count balls) s = .next u ∧ (u.tctx n c).pc = (x.pc + 1) % 64 ∧ (u.tctx n c).rxc = min 32 (x.rxc + count.toNat)
          ∧ (u.tctx n c).rxr = (if x.ccfg.getLsbD 22 then (x.rxr <<< count.toNat) ||| (v &&& low) else (x.rxr >>> count.toNat) ||| ((v &&& low) <<< (32 - count.toNat))))
    ∧ (6 ≤ a.val ∨ count = 0 ∨ 32 < count.toNat → exec (.shin n c a count balls) s = .next (fault 1) ∧ exec (.shout n c a count) s = .next (fault 1))
    ∧ (0 < count.toNat → count.toNat ≤ 32 → a.val < 6 →
        let v := if x.ccfg.getLsbD 21 then x.txr >>> (32 - count.toNat) else x.txr &&& low
        ∃ u, exec (.shout n c a count) s = .next u ∧ u.tctx n c = { x with k0 := if a = 1 then v else x.k0, k1 := if a = 2 then v else x.k1, rxr := if a = 5 then v else x.rxr
                                                                           txr := if x.ccfg.getLsbD 21 then x.txr <<< count.toNat else x.txr >>> count.toNat
                                                                           txc := min 32 (x.txc + count.toNat), pc := (x.pc + 1) % 64, stall := false }
          ∧ (a ≠ 0 → a ≠ 4 → u.pio.pins = s.pio.pins)
          ∧ ∀ i < x.outCnt, i < count.toNat → let p := s.pio.pin ((x.outBase + i) % 64)
              p.owner = 2 → p.tad = n.val → p.ctx = c.val →
                (a = 0 → u.pio.pin ((x.outBase + i) % 64) = { p with out := v.getLsbD i }) ∧ (a = 4 → u.pio.pin ((x.outBase + i) % 64) = { p with oe := v.getLsbD i }))
    ∧ (x.rx.length < 8 → exec (.push n c) s = .next (step s fun y => { y with rx := y.rx ++ [y.rxr], rxr := 0, rxc := 0 }))
    ∧ (8 ≤ x.rx.length → ∃ u, exec (.push n c) s = .next u ∧ (u.tctx n c).stall = true ∧ (u.tctx n c).pc = x.pc ∧ (u.tctx n c).rx = x.rx)
    ∧ (∀ w t, x.tx = w :: t → exec (.pull n c) s = .next (step s fun y => { y with tx := t, txr := w, txc := 0 }))
    ∧ (x.tx = [] → ∃ u, exec (.pull n c) s = .next u ∧ (u.tctx n c).stall = true ∧ (u.tctx n c).pc = x.pc)
    ∧ (mask.toNat < 2 ^ x.setCnt → op ≠ 3 → (op ≠ 0 → lvl = false) → ∃ u, exec (.put n c op lvl mask) s = .next u ∧ pcOn u
        ∧ ∀ i < 5, let p := s.pio.pin ((x.setBase + i) % 64)
            mask.getLsbD i = true → p.owner = 2 → p.tad = n.val → p.ctx = c.val → u.pio.pin ((x.setBase + i) % 64) =
              (if op = 0 then { p with out := lvl, oe := true } else if op = 1 then { p with oe := false } else { p with out := !p.out, oe := true }))
    ∧ (mask = 1 → 1 ≤ x.setCnt → (s.pio.pin (x.setBase % 64)).owner ≠ 2 →
        ∃ u, exec (.put n c 0 lvl mask) s = .next u ∧ u.pio.pins = s.pio.pins ∧ (u.tad n).deny = satAdd (s.tad n).deny 1)
    ∧ (op = 3 ∨ (op ≠ 0 ∧ lvl = true) → exec (.put n c op lvl mask) s = .next (fault 1))
    ∧ (2 ^ x.setCnt ≤ mask.toNat → op ≠ 3 → (op ≠ 0 → lvl = false) → exec (.put n c op lvl mask) s = .next (fault 3))
    ∧ (exec (.ldk n c k append imm) s = .next (step s fun y =>
        let v := if append then ((if k then y.k1 else y.k0) <<< 10) ||| imm.zeroExtend 32 else imm.zeroExtend 32
        if k then { y with k1 := v } else { y with k0 := v }))
    ∧ (∀ w v : Word, (b = 0 ∧ w = at_.inWindow n c) ∨ (b = 1 ∧ w = x.k0) ∨ (b = 2 ∧ w = x.k1) ∨ (b = 3 ∧ w = x.rxr) ∨ (b = 4 ∧ w = x.txr) ∨ (b = 5 ∧ w = 0) →
        (op = 0 ∧ v = w) ∨ (op = 1 ∧ v = ~~~w) ∨ (op = 2 ∧ ∀ i < 32, v.getLsbD i = w.getLsbD (31 - i)) → a.val < 5 →
        ∃ u, exec (.xfer n c a op b balls) s = .next u ∧ u.tctx n c = { x with k0 := if a = 1 then v else x.k0, k1 := if a = 2 then v else x.k1
                                                                               rxr := if a = 3 then v else x.rxr, rxc := if a = 3 then 0 else x.rxc
                                                                               txr := if a = 4 then v else x.txr, txc := if a = 4 then 0 else x.txc
                                                                               pc := (x.pc + 1) % 64, stall := false })
    ∧ (op = 3 ∨ 5 ≤ a.val ∨ 6 ≤ b.val → exec (.xfer n c a op b balls) s = .next (fault 1))
    ∧ (∃ u, exec (.sig n c 0 flag) s = .next u ∧ (u.tad n).flags = (s.tad n).flags ||| (1#8 <<< flag.val) ∧ pcOn u)
    ∧ (∃ u, exec (.sig n c 1 flag) s = .next u ∧ (u.tad n).flags = (s.tad n).flags &&& ~~~(1#8 <<< flag.val) ∧ pcOn u)
    ∧ (exec (.sig n c 2 0) s = .next (step s fun y => { y with sreq := true })) ∧ (exec (.sig n c 3 flag) s = .next (fault 1)) ∧ (flag ≠ 0 → exec (.sig n c 2 flag) s = .next (fault 1))
    ∧ (exec (.endContext n c) s = .next (s.updCtx n c fun y => { y with st := 0, stall := false, sreq := true }))
    ∧ (tadLegal word = false → exec (.illegalTadpoleWord n c word) s = .next (s.updCtx n c fun y => { y with st := 3, fcause := 1, stall := false }))

/-- Contexts are run, armed, stopped and started together, their FIFOs, flags and tickers, the loss of a custodian card and its characters, and the
verdicts of the lamp sinks. Rests on R250, R254, R402, R405 to R410, R414 to R417, R419, R421 to R426. -/
def Obligations.PinsAndLampsServe : Prop :=
  ∀ (s : State) (n c k : Fin 8) (mask value : U8) (data : Word) (ch : Fin 64) (j : Fin 32) (vpin : U8) (cur : BitVec 16),
    let x := s.tctx n c
    let t := s.tad n
    let z := s.sink j
    let on := s.domOn 37 = true
    let lamp := fun (u : State) (st : Nat) => (u.sink j).status = st ∧ (z.status ≠ st → u.pio.chg.getLsbD j = true ∧ (s.domOn 36 = true → u.warden.pend.getLsbD 144 = true))
    let prepared := fun (u : State) (st : Nat) => (u.tctx n c).st = st ∧ (u.tctx n c).pc = fld x.ccfg.toNat 5 0 ∧ (u.tctx n c).k0 = 0 ∧ (u.tctx n c).k1 = 0 ∧ (u.tctx n c).txc = 32
      ∧ (u.tctx n c).rxc = 0 ∧ (u.tctx n c).tx = x.tx ∧ Tbl.get 0 (u.tctx n c).seen k = (s.ticker k).expires.toNat
    (on → x.st = 0 ∨ x.st = 3 → c.val < t.slotCount → (∃ u, exec (.run n c) s = .next u ∧ prepared u 1) ∧ ∃ u, exec (.arm n c) s = .next u ∧ prepared u 2)
    ∧ (on → x.st = 1 ∨ x.st = 2 ∨ t.slotCount ≤ c.val → ∃ u, exec (.run n c) s = .next u ∧ (u.tad n).cfgErr = true ∧ u.tctx n c = x)
    ∧ (on → x.st = 1 ∨ x.st = 2 → t.clk = true → exec (.stop n c) s = .next (s.updCtx n c fun y => { y with st := 0, stall := false, stopping := false }))
    ∧ (on → x.st = 1 ∨ x.st = 2 → t.clk = false → exec (.stop n c) s = .next (s.updCtx n c fun y => { y with stopping := true }))
    ∧ (on → exec (.pioFlush n c) s = .next (s.updCtx n c fun y => { y with tx := [], rx := [] }))
    ∧ (on → mask.getLsbD n = true → t.clk = true → ∃ u, exec (.start mask) s = .next u ∧ (x.st = 2 → (u.tctx n c).st = 1) ∧ (x.st ≠ 2 → (u.tctx n c).st = x.st))
    ∧ (on → mask.getLsbD n = true → ∃ u, exec (.stopclk mask) s = .next u ∧ u.tad n = { t with clk := false })
    ∧ (on → mask.getLsbD n = true → ∃ u, exec (.restart mask) s = .next u ∧ (u.tad n).clk = true ∧ (x.stopping = true → (u.tctx n c).st = 0) ∧ (x.stopping = false → u.tctx n c = x))
    ∧ (on → x.tx.length < 8 → exec (.pioTxWrite n c data) s = .next (s.updCtx n c fun y => { y with tx := y.tx ++ [data] }))
    ∧ (on → 8 ≤ x.tx.length → exec (.pioTxWrite n c data) s = .next (s.updCtx n c fun y => { y with ovf := true }))
    ∧ (∀ w l, on → x.rx = w :: l → exec (.pioRxRead n c) s = .next (s.updCtx n c fun y => { y with rx := l }))
    ∧ (on → x.rx = [] → exec (.pioRxRead n c) s = .next (s.updCtx n c fun y => { y with unf := true }))
    ∧ (on → exec (.flagset n value) s = .next (s.updTad n fun y => { y with flags := y.flags ||| value }))
    ∧ (s.domOn 36 = true → ∃ u, exec (.tickerEnable k data) s = .next u ∧ (u.ticker k).ctl = data &&& 0xE00000FF ∧ (u.ticker k).expires = (s.ticker k).expires
        ∧ (u.ticker k).count = (if data.getLsbD 31 = true ∧ (s.ticker k).ctl.getLsbD 31 = false then (s.ticker k).reload.toNat else (s.ticker k).count))
    ∧ (s.domOn 36 = true → (s.ticker k).ctl.getLsbD 31 = true → ∃ u, exec (.tickerExpiry k) s = .next u ∧ (u.ticker k).count = (s.ticker k).reload.toNat
        ∧ (u.ticker k).expires = (s.ticker k).expires + 1 ∧ (u.ticker k).ctl.getLsbD 31 = !(s.ticker k).ctl.getLsbD 29 ∧ u.warden.pend.getLsbD (128 + k) = true)
    ∧ (∀ l, s.cardPins ch = some l → s.fwUp = true → on → ∃ u, exec (.cardPresenceLoss ch) s = .next u ∧ (∀ i < 3, (u.tctx (ch.val / 8) (ch.val % 8 + i)).st = 0) ∧ ∀ i < 4,
        (u.pio.pin (l.getD i 0 % 64)).owner = 1 ∧ u.pio.gpout.getLsbD (l.getD i 0 % 64) = false ∧ u.pio.gpoe.getLsbD (l.getD i 0 % 64) = true)
    ∧ (∀ (m : Nat) (b : Byte), m < 256 → ∃ w, (cardWords m b).head? = some w ∧ w.getLsbD 0 = false ∧ (∀ i < 8, w.getLsbD (i + 1) = b.getLsbD i) ∧ w.getLsbD 9 = decide (parityOf b = 1)
        ∧ (m ≤ 20 ∨ m = 255 → cardWords m b = [w] ∧ cardTxlen m = cardFrame m % 32 ∧ ∀ i < 32, 10 ≤ i → w.getLsbD i = decide (i < cardFrame m))
        ∧ (20 < m → m < 255 → cardTxlen m = 0 ∧ (cardWords m b).length = (12 + m + 31) / 32 ∧ (∀ i < 32, 10 ≤ i → w.getLsbD i = true) ∧ ∀ y ∈ (cardWords m b).tail, y = 0xFFFFFFFF))
    ∧ (∀ (w : Word) (b : Byte), (∀ i < 8, w.getLsbD (23 + i) = b.getLsbD i) →
        cardRx w = if w.getLsbD 22 = false ∧ w.getLsbD 31 = decide (parityOf b = 1) then some b else none)
    ∧ (∀ (y : Card) (l : List Byte), ((y.rx.headD []).map cardRx).take l.length ≠ l.map some → (y.swap l).1 = .bad ∧ (y.swap l).2.sent = y.sent ++ [l.flatMap (cardWords y.n)])
    ∧ (s.sinkLit j = true → z.vshort ≠ 0 → 5 * z.vshort < vpin.toNat → ∃ u, exec (.lampVerdict j vpin cur) s = .next u ∧ lamp u 4 ∧ (u.sink j).shortoff = true ∧ (u.sink j).vpin = vpin.toNat)
    ∧ (s.sinkLit j = true → z.vshort = 0 → 2 * cur.toNat < 10 * z.iset → z.last = 3 → ∃ u, exec (.lampVerdict j vpin cur) s = .next u ∧ lamp u 3 ∧ (u.sink j).shortoff = z.shortoff)
    ∧ (s.sinkLit j = true → z.ctrl.getLsbD 31 = true → z.vshort = 0 → 10 * z.iset ≤ 2 * cur.toNat → z.last = 2 → ∃ u, exec (.lampProbe j vpin cur) s = .next u ∧ lamp u 2)
    ∧ (z.ctrl.getLsbD 31 = false → exec (.lampProbe j vpin cur) s = .next s)
    ∧ (on → z.en = true → ∃ u, exec (.lampUnmeasuredTimeout j) s = .next u ∧ lamp u 1)
    ∧ (on → z.shortoff = true → ∃ u, exec (.shortoffRelease j) s = .next u ∧ (u.sink j).shortoff = false ∧ lamp u (if z.en then 1 else 0))

/-- A register write reaches its register, block by block: RW fields take the value, W1C fields lose the bits written 1, locked fields stand, reserved
bits and unmapped addresses take nothing; a block without power ends the access at the port. What SMBus and SPI do raises its source, and the test
port answers. Rests on R10, R11, R329, R336, R488, R495. -/
def Obligations.RegisterWritesTake : Prop :=
  ∀ (s : State) (p : Pid) (v : Word) (a i t d q : Nat) (kind : Fin 3) (k : Fin 2),
    let put := fun (a : Nat) (u : State) => a < 2 ^ 32 → exec (.registerWrite 128 (BitVec.ofNat 32 a) v) s = .next u
    let puts := fun (a : Nat) (r : State → Prop) => a < 2 ^ 32 → ∃ u, exec (.registerWrite 128 (BitVec.ofNat 32 a) v) s = .next u ∧ r u
    let lane := fun (o : Nat) (u : State) => exec (.registerWrite p (BitVec.ofNat 32 o) v) s = .next u
    let x := s.tile t
    let w := s.warden
    (s.warden.up = true → s.domOn 36 = true →
      (i < 4 → put (0x70 + 4 * i) { s with glb := { s.glb with scratch := Tbl.set 0 s.glb.scratch i v } })
      ∧ put 0x0C { s with glb := { s.glb with pcisub := v } }
      ∧ put 0x44 { s with glb := { s.glb with rstcause := s.glb.rstcause &&& ~~~v } }
      ∧ (s.glb.boot.getLsbD 31 = true → put 0x40 s)
      ∧ (s.glb.boot.getLsbD 31 = false → put 0x40 { s with glb := { s.glb with boot := v &&& 0x80000007 } })
      ∧ (v.toNat % 2 ^ 16 ≠ 0x5A17 → put 0x48 s) ∧ put 0x00 s ∧ put 0x3000 s
      ∧ put 0x4008 { s with clk := { s.clk with swcnt := v } }
      ∧ (s.vault.tcfg.getLsbD 31 = true → put 0x200010 s)
      ∧ (s.vault.tcfg.getLsbD 31 = false → put 0x200010 (s.updVault fun y => { y with tcfg := v &&& 0x80000003 }))
      ∧ (w.croakCfg.getLsbD 31 = true → put 0x900004 s)
      ∧ (i < 8 → put (0x900040 + 4 * i) (s.updWarden fun y => { y with wdw := Tbl.set 0 y.wdw i (v &&& 0x31F) }))
      ∧ (i < 16 → (Tbl.get Region.init w.regions i).attr.getLsbD 31 = true → put (0x900100 + 16 * i) s ∧ put (0x900108 + 16 * i) s)
      ∧ (i < 16 → (Tbl.get Region.init w.regions i).attr.getLsbD 31 = false → puts (0x900108 + 16 * i) fun u => (Tbl.get Region.init u.warden.regions i).attr = v &&& 0x8000007F)
      ∧ (i < 8 → i ≠ 5 → puts (0x910000 + 4 * i) fun u => ∀ j < 256, u.warden.pend.getLsbD j = (w.pend.getLsbD j && !(j / 32 == i && v.getLsbD (j % 32))))
      ∧ (i < 8 → puts (0x910020 + 4 * i) fun u => ∀ j < 256, u.warden.enable.getLsbD j = if j / 32 = i then v.getLsbD (j % 32) else w.enable.getLsbD j)
      ∧ (i < 1030 → put (0x921000 + 16 * i) (s.updPage i fun g => { g with overrun := g.overrun && !v.getLsbD 31 }))
      ∧ (d < 64 → s.domOn (32 + d / 32) = true → put (0x700008 + 0x40 * d) (s.updDrive d fun y => { y with cto := v &&& 0xFFFF })
        ∧ put (0x700010 + 0x40 * d) (s.updDrive d fun y => { y with vcnt := v })
        ∧ (v.toNat % 8 = 0 ∨ v.toNat % 8 = 4 ∨ v.toNat % 8 = 7 → put (0x700000 + 0x40 * d) s)
        ∧ ((s.drive d).overridden = false → (s.drive d).st ≠ 2 → v.toNat % 8 = 5 → put (0x700000 + 0x40 * d) (s.updDrive d fun y => { y with st := 5 }))
        ∧ ((s.drive d).overridden = false → (s.drive d).st = 2 → v.toNat % 8 = 5 → puts (0x700000 + 0x40 * d) fun u => (u.drive d).st = 5)
        ∧ ((s.drive d).overridden = true → (s.drive d).st ≠ 2 → v.toNat % 8 = 5 → put (0x700000 + 0x40 * d) (s.updDrive d fun y => { y with stReq := 5, parked := true })))
      ∧ (q < 4 → s.domOn (32 + q / 2) = true → put (0x500000 + 0x10000 * q) (s.updQuad q fun y => { y with en := v.getLsbD 31, elimit := v.toNat % 2 ^ 13 }))
      ∧ (d < 16 → s.domOn (32 + d / 8) = true → put (0x800020 + 0x10000 * d) (s.updGroup d fun y => { y with dcto := v &&& 0xFFFF }))
      ∧ (t < 16 → s.domOn t = true → put (0x300020 + 0x1000 * t) (s.setTile t { x with kcHit := v }) ∧ put (0x300000 + 0x1000 * t) (s.setTile t { x with ksbase := v &&& 0x11F })
        ∧ put (0x300014 + 0x1000 * t) (s.setTile t { x with errUlimit := x.errUlimit && !v.getLsbD 2, errDram := x.errDram && !v.getLsbD 1, errUnwrap := x.errUnwrap && !v.getLsbD 0 }))
      ∧ (t < 16 → s.domOn t = false → puts (0x300020 + 0x1000 * t) fun u => u.tile t = x ∧ u.warden.busValid = true ∧ u.warden.busWrite = true ∧ u.warden.busCount = satAdd w.busCount 1
        ∧ u.warden.busAddr.toNat = 0x300020 + 0x1000 * t ∧ u.warden.pend.getLsbD 26 = true)
      ∧ (i < 64 → put (0x404100 + 4 * i) (s.updPin i fun y => { y with cfg := v &&& 0x3FFB }))
      ∧ put 0x408200 { s with pio := { s.pio with chg := s.pio.chg &&& ~~~v } }
      ∧ (a % 4 ≠ 0 ∨ isRegBlock a = false → put a s))
    ∧ (s.warden.up = false → put a s)
    ∧ (p ≠ 128 → s.tileOn (tileOf p) = true → lane 0x004 (s.updEng p fun g => { g with even := v.truncate 12 }) ∧ lane 0x014 (s.updEng p fun g => { g with wdbAck := v.truncate 16 })
        ∧ lane 0x018 (s.updEng p fun g => { g with dlLo := v }) ∧ lane 0x1C8 (s.updEng p fun g => { g with moltFpLo := v })
        ∧ lane 0x1A8 (s.updEng p fun g => { g with errCls := g.errCls && !v.getLsbD 1, errDef := g.errDef && !v.getLsbD 0 }) ∧ lane 0x028 s ∧ lane 0x020 s ∧ lane 0x030 s)
    ∧ exec (.smbusBusError k) s = .next (s.raise (145 + k))
    ∧ exec .spiAccessComplete s = .next (s.raise 147)
    ∧ (kind = 1 → exec (.tapInstruction kind) s = .next (s.emit (.tap 0x121289A7)))
    ∧ (kind = 0 ∨ (kind = 2 ∧ s.vault.testOpen = false) → exec (.tapInstruction kind) s = .next (s.emit (.tap 0)))
    ∧ (∃ u x, exec (.tapInstruction kind) s = .next u ∧ u.out = .tap x :: s.out)

/-- A step takes the command at the front of the queue and runs exec on it with the queue's rest; with none waiting, VTIME's share of 10 ns and one TIME
tick pass (the model's choice, log 2). Rests on R73, R368. -/
def Obligations.StepTakesFrontCommand : Prop :=
  (∀ (s : State) (c : Instr) (rest : List Instr), s.pending = c :: rest → step s = exec c { s with pending := rest })
  ∧ ∀ s : State, s.pending = [] → s.boot.resetDue = none → ∃ t, step s = .next t ∧ t.time = (if s.domOn 38 then s.time + 1 else s.time) ∧ t.pending = []
      ∧ t.vacc + 100000000 * (t.vtime - s.vtime).toNat = s.vacc + 32768

/-- Every command answers a next state from every state, and touches nothing of the queue: no command faults and none is refused. Rests on R10, R79. -/
def Obligations.EveryCommandAnswers : Prop := ∀ (c : Instr) (s : State), ∃ t, exec c s = .next t ∧ t.pending = s.pending

/-- The values the spec gives for reset. Rests on R38, R88 to R93, R116, R131, R337, R438, R478, R485. -/
def Obligations.ResetValues : Prop :=
  let s := State.reset
  (∀ e < 128, ∀ n, (s.eng e).proc.reg n = 0)
  ∧ (∀ e < 128, let r := (s.eng e).proc
      r.pc = 0 ∧ r.mode = 2#2 ∧ r.epc = 0 ∧ r.ecause = 0 ∧ r.eval = 0 ∧ r.escratch = 0 ∧ r.evec = 0x40 ∧ r.lstat = 0 ∧ r.lcount0 = 0 ∧ r.lcount1 = 0 ∧ r.instret = 0
        ∧ r.busy = 0 ∧ r.loads = [] ∧ r.stores = [] ∧ r.hash.alg = none)
  ∧ (∀ e < 128, let g := s.eng e
      g.run = 2 ∧ g.hcause = 1 ∧ g.halt = true ∧ g.even = 0 ∧ g.dlArm = false ∧ g.wdbCnt = 0 ∧ g.xferCnt = 0 ∧ ∀ n < 4, (g.ctx n).st = 0)
  ∧ s.warden.proc.pc = 0x10000000 ∧ s.warden.proc.mode = 2#2 ∧ s.warden.pend = 0 ∧ s.warden.enable = 0 ∧ s.warden.croakCfg = 100 ∧ s.warden.busValid = false
  ∧ s.pwr.domreq = 0xFF00000000 ∧ s.pwr.budget = 7040 ∧ s.glb.pcisub = 0x00011F4C ∧ s.glb.boot = 0 ∧ s.glb.trip = 105 ∧ s.glb.hyst = 5
  ∧ (∀ t < 16, (s.tile t).purgeGo = false ∧ (s.tile t).wk = none) ∧ s.vault.epochst = 0 ∧ s.vault.tcfg = 3 ∧ s.vault.floorFuses = 0 ∧ s.pending = []

/-- The two invariants hold at reset, and so does the memories' canonical form. Rests on R38, R364, R478. -/
def Obligations.ResetIsGood : Prop := State.reset.PcInv ∧ State.reset.vault.Sound ∧ State.reset.boot.nor.wf ∧ ∀ e, (State.reset.eng e).iram.wf ∧ (State.reset.eng e).dram.wf

/-- The PC of every processor stays word aligned in every step, whatever the command: EVEC's low bits, branch addresses and the address of release with
it. Rests on R38. -/
def Obligations.PcStaysAligned : Prop := ∀ s t : State, s.PcInv → step s = .next t → t.PcInv

/-- No step puts in force an epoch below the floor, keeps a secret or a wrapping key outside an epoch, or takes back a blown fuse. Rests on R364 to R367,
R377, R387. -/
def Obligations.EpochFloorHolds : Prop :=
  ∀ s t : State, s.vault.Sound → step s = .next t → t.vault.Sound ∧ s.vault.floorFuses ≤ t.vault.floorFuses ∧ s.vault.testFuses ≤ t.vault.testFuses

/-- A word decodes to an instruction of a processor exactly when it is that instruction's encoding: no bit of an encoding is dropped, and no illegal word
is taken. Rests on R39 to R72. -/
def Obligations.DecodeEncodeAgree : Prop := ∀ (p : Pid) (w : Word) (i : Instr), encodeSialven i = some (p, w) ↔ decodeSialven p w = some i
end

