-- ==== Sys2Proof/Laws/Dispatch.lean ====
section
/-!
SUPPORT. Which meaning exec calls for each command: one lemma per arm, so that no proof unfolds the dispatch.
-/

namespace Sys2Proof.Machine

theorem exec_addi (p : Pid) (gd : Reg) (gs : Reg) (imm : Imm) (s : State) : exec (.addi p gd gs imm) s = execAddi p gd gs imm s := rfl
theorem exec_andi (p : Pid) (gd : Reg) (gs : Reg) (imm : Imm) (s : State) : exec (.andi p gd gs imm) s = execAndi p gd gs imm s := rfl
theorem exec_ori (p : Pid) (gd : Reg) (gs : Reg) (imm : Imm) (s : State) : exec (.ori p gd gs imm) s = execOri p gd gs imm s := rfl
theorem exec_xori (p : Pid) (gd : Reg) (gs : Reg) (imm : Imm) (s : State) : exec (.xori p gd gs imm) s = execXori p gd gs imm s := rfl
theorem exec_orhi (p : Pid) (gd : Reg) (gs : Reg) (imm : Imm) (s : State) : exec (.orhi p gd gs imm) s = execOrhi p gd gs imm s := rfl
theorem exec_addhi (p : Pid) (gd : Reg) (gs : Reg) (imm : Imm) (s : State) : exec (.addhi p gd gs imm) s = execAddhi p gd gs imm s := rfl
theorem exec_cmpi (p : Pid) (gd : Reg) (gs : Reg) (imm : Imm) (s : State) : exec (.cmpi p gd gs imm) s = execCmpi p gd gs imm s := rfl
theorem exec_cmpui (p : Pid) (gd : Reg) (gs : Reg) (imm : Imm) (s : State) : exec (.cmpui p gd gs imm) s = execCmpui p gd gs imm s := rfl
theorem exec_adrw (p : Pid) (gd : Reg) (imm : Imm) (s : State) : exec (.adrw p gd imm) s = execAdrw p gd imm s := rfl
theorem exec_add (p : Pid) (gd : Reg) (gs : Reg) (gt : Reg) (s : State) : exec (.add p gd gs gt) s = execAdd p gd gs gt s := rfl
theorem exec_sub (p : Pid) (gd : Reg) (gs : Reg) (gt : Reg) (s : State) : exec (.sub p gd gs gt) s = execSub p gd gs gt s := rfl
theorem exec_and (p : Pid) (gd : Reg) (gs : Reg) (gt : Reg) (s : State) : exec (.and p gd gs gt) s = execAnd p gd gs gt s := rfl
theorem exec_or (p : Pid) (gd : Reg) (gs : Reg) (gt : Reg) (s : State) : exec (.or p gd gs gt) s = execOr p gd gs gt s := rfl
theorem exec_xor (p : Pid) (gd : Reg) (gs : Reg) (gt : Reg) (s : State) : exec (.xor p gd gs gt) s = execXor p gd gs gt s := rfl
theorem exec_sll (p : Pid) (gd : Reg) (gs : Reg) (gt : Reg) (s : State) : exec (.sll p gd gs gt) s = execSll p gd gs gt s := rfl
theorem exec_srl (p : Pid) (gd : Reg) (gs : Reg) (gt : Reg) (s : State) : exec (.srl p gd gs gt) s = execSrl p gd gs gt s := rfl
theorem exec_sra (p : Pid) (gd : Reg) (gs : Reg) (gt : Reg) (s : State) : exec (.sra p gd gs gt) s = execSra p gd gs gt s := rfl
theorem exec_cmp (p : Pid) (gd : Reg) (gs : Reg) (gt : Reg) (s : State) : exec (.cmp p gd gs gt) s = execCmp p gd gs gt s := rfl
theorem exec_cmpu (p : Pid) (gd : Reg) (gs : Reg) (gt : Reg) (s : State) : exec (.cmpu p gd gs gt) s = execCmpu p gd gs gt s := rfl
theorem exec_slli (p : Pid) (gd : Reg) (gs : Reg) (sh : U5) (s : State) : exec (.slli p gd gs sh) s = execSlli p gd gs sh s := rfl
theorem exec_srli (p : Pid) (gd : Reg) (gs : Reg) (sh : U5) (s : State) : exec (.srli p gd gs sh) s = execSrli p gd gs sh s := rfl
theorem exec_srai (p : Pid) (gd : Reg) (gs : Reg) (sh : U5) (s : State) : exec (.srai p gd gs sh) s = execSrai p gd gs sh s := rfl
theorem exec_mul (p : Pid) (gd : Reg) (gs : Reg) (gt : Reg) (s : State) : exec (.mul p gd gs gt) s = execMul p gd gs gt s := rfl
theorem exec_mulhs (p : Pid) (gd : Reg) (gs : Reg) (gt : Reg) (s : State) : exec (.mulhs p gd gs gt) s = execMulhs p gd gs gt s := rfl
theorem exec_mulhu (p : Pid) (gd : Reg) (gs : Reg) (gt : Reg) (s : State) : exec (.mulhu p gd gs gt) s = execMulhu p gd gs gt s := rfl
theorem exec_macc (p : Pid) (gd : Reg) (gs : Reg) (gt : Reg) (s : State) : exec (.macc p gd gs gt) s = execMacc p gd gs gt s := rfl
theorem exec_div (p : Pid) (gd : Reg) (gs : Reg) (gt : Reg) (s : State) : exec (.div p gd gs gt) s = execDiv p gd gs gt s := rfl
theorem exec_divu (p : Pid) (gd : Reg) (gs : Reg) (gt : Reg) (s : State) : exec (.divu p gd gs gt) s = execDivu p gd gs gt s := rfl
theorem exec_mod (p : Pid) (gd : Reg) (gs : Reg) (gt : Reg) (s : State) : exec (.mod p gd gs gt) s = execMod p gd gs gt s := rfl
theorem exec_modu (p : Pid) (gd : Reg) (gs : Reg) (gt : Reg) (s : State) : exec (.modu p gd gs gt) s = execModu p gd gs gt s := rfl
theorem exec_clz (p : Pid) (gd : Reg) (gs : Reg) (s : State) : exec (.clz p gd gs) s = execClz p gd gs s := rfl
theorem exec_ctz (p : Pid) (gd : Reg) (gs : Reg) (s : State) : exec (.ctz p gd gs) s = execCtz p gd gs s := rfl
theorem exec_popc (p : Pid) (gd : Reg) (gs : Reg) (s : State) : exec (.popc p gd gs) s = execPopc p gd gs s := rfl
theorem exec_bswap (p : Pid) (gd : Reg) (gs : Reg) (s : State) : exec (.bswap p gd gs) s = execBswap p gd gs s := rfl
theorem exec_rotl (p : Pid) (gd : Reg) (gs : Reg) (gt : Reg) (s : State) : exec (.rotl p gd gs gt) s = execRotl p gd gs gt s := rfl
theorem exec_rotr (p : Pid) (gd : Reg) (gs : Reg) (gt : Reg) (s : State) : exec (.rotr p gd gs gt) s = execRotr p gd gs gt s := rfl
theorem exec_andn (p : Pid) (gd : Reg) (gs : Reg) (gt : Reg) (s : State) : exec (.andn p gd gs gt) s = execAndn p gd gs gt s := rfl
theorem exec_min (p : Pid) (gd : Reg) (gs : Reg) (gt : Reg) (s : State) : exec (.min p gd gs gt) s = execMin p gd gs gt s := rfl
theorem exec_max (p : Pid) (gd : Reg) (gs : Reg) (gt : Reg) (s : State) : exec (.max p gd gs gt) s = execMax p gd gs gt s := rfl
theorem exec_minu (p : Pid) (gd : Reg) (gs : Reg) (gt : Reg) (s : State) : exec (.minu p gd gs gt) s = execMinu p gd gs gt s := rfl
theorem exec_maxu (p : Pid) (gd : Reg) (gs : Reg) (gt : Reg) (s : State) : exec (.maxu p gd gs gt) s = execMaxu p gd gs gt s := rfl
theorem exec_crc32c (p : Pid) (gd : Reg) (gs : Reg) (gt : Reg) (size : Fin 3) (s : State) : exec (.crc32c p gd gs gt size) s = execCrc32c p gd gs gt size s := rfl
theorem exec_bfx (p : Pid) (gd : Reg) (gs : Reg) (pos : U5) (wm1 : U5) (s : State) : exec (.bfx p gd gs pos wm1) s = execBfx p gd gs pos wm1 s := rfl
theorem exec_bfi (p : Pid) (gd : Reg) (gs : Reg) (pos : U5) (wm1 : U5) (s : State) : exec (.bfi p gd gs pos wm1) s = execBfi p gd gs pos wm1 s := rfl
theorem exec_lb (p : Pid) (gd : Reg) (gs : Reg) (imm : Imm) (s : State) : exec (.lb p gd gs imm) s = execLb p gd gs imm s := rfl
theorem exec_lh (p : Pid) (gd : Reg) (gs : Reg) (imm : Imm) (s : State) : exec (.lh p gd gs imm) s = execLh p gd gs imm s := rfl
theorem exec_lw (p : Pid) (gd : Reg) (gs : Reg) (imm : Imm) (s : State) : exec (.lw p gd gs imm) s = execLw p gd gs imm s := rfl
theorem exec_lbu (p : Pid) (gd : Reg) (gs : Reg) (imm : Imm) (s : State) : exec (.lbu p gd gs imm) s = execLbu p gd gs imm s := rfl
theorem exec_lhu (p : Pid) (gd : Reg) (gs : Reg) (imm : Imm) (s : State) : exec (.lhu p gd gs imm) s = execLhu p gd gs imm s := rfl
theorem exec_sb (p : Pid) (gd : Reg) (gs : Reg) (imm : Imm) (s : State) : exec (.sb p gd gs imm) s = execSb p gd gs imm s := rfl
theorem exec_sh (p : Pid) (gd : Reg) (gs : Reg) (imm : Imm) (s : State) : exec (.sh p gd gs imm) s = execSh p gd gs imm s := rfl
theorem exec_sw (p : Pid) (gd : Reg) (gs : Reg) (imm : Imm) (s : State) : exec (.sw p gd gs imm) s = execSw p gd gs imm s := rfl
theorem exec_atswp (p : Pid) (gd : Reg) (gs : Reg) (gt : Reg) (s : State) : exec (.atswp p gd gs gt) s = execAtswp p gd gs gt s := rfl
theorem exec_atadd (p : Pid) (gd : Reg) (gs : Reg) (gt : Reg) (s : State) : exec (.atadd p gd gs gt) s = execAtadd p gd gs gt s := rfl
theorem exec_atand (p : Pid) (gd : Reg) (gs : Reg) (gt : Reg) (s : State) : exec (.atand p gd gs gt) s = execAtand p gd gs gt s := rfl
theorem exec_ator (p : Pid) (gd : Reg) (gs : Reg) (gt : Reg) (s : State) : exec (.ator p gd gs gt) s = execAtor p gd gs gt s := rfl
theorem exec_atxor (p : Pid) (gd : Reg) (gs : Reg) (gt : Reg) (s : State) : exec (.atxor p gd gs gt) s = execAtxor p gd gs gt s := rfl
theorem exec_atwrap (p : Pid) (gd : Reg) (gs : Reg) (gt : Reg) (s : State) : exec (.atwrap p gd gs gt) s = execAtwrap p gd gs gt s := rfl
theorem exec_atdsat (p : Pid) (gd : Reg) (gs : Reg) (gt : Reg) (s : State) : exec (.atdsat p gd gs gt) s = execAtdsat p gd gs gt s := rfl
theorem exec_atcas (p : Pid) (gd : Reg) (gs : Reg) (gt : Reg) (s : State) : exec (.atcas p gd gs gt) s = execAtcas p gd gs gt s := rfl
theorem exec_beq (p : Pid) (ga : Reg) (gb : Reg) (off : Imm) (s : State) : exec (.beq p ga gb off) s = execBeq p ga gb off s := rfl
theorem exec_bne (p : Pid) (ga : Reg) (gb : Reg) (off : Imm) (s : State) : exec (.bne p ga gb off) s = execBne p ga gb off s := rfl
theorem exec_blt (p : Pid) (ga : Reg) (gb : Reg) (off : Imm) (s : State) : exec (.blt p ga gb off) s = execBlt p ga gb off s := rfl
theorem exec_bge (p : Pid) (ga : Reg) (gb : Reg) (off : Imm) (s : State) : exec (.bge p ga gb off) s = execBge p ga gb off s := rfl
theorem exec_bltu (p : Pid) (ga : Reg) (gb : Reg) (off : Imm) (s : State) : exec (.bltu p ga gb off) s = execBltu p ga gb off s := rfl
theorem exec_bgeu (p : Pid) (ga : Reg) (gb : Reg) (off : Imm) (s : State) : exec (.bgeu p ga gb off) s = execBgeu p ga gb off s := rfl
theorem exec_j (p : Pid) (off : Off26) (s : State) : exec (.j p off) s = execJ p off s := rfl
theorem exec_jal (p : Pid) (off : Off26) (s : State) : exec (.jal p off) s = execJal p off s := rfl
theorem exec_jalr (p : Pid) (gd : Reg) (gs : Reg) (imm : Imm) (s : State) : exec (.jalr p gd gs imm) s = execJalr p gd gs imm s := rfl
theorem exec_crd (p : Pid) (gd : Reg) (num : Imm) (s : State) : exec (.crd p gd num) s = execCrd p gd num s := rfl
theorem exec_cwr (p : Pid) (num : Imm) (gs : Reg) (s : State) : exec (.cwr p num gs) s = execCwr p num gs s := rfl
theorem exec_loop (p : Pid) (gs : Reg) (len : Imm) (s : State) : exec (.loop p gs len) s = execLoop p gs len s := rfl
theorem exec_loopi (p : Pid) (count : U10) (len : Imm) (s : State) : exec (.loopi p count len) s = execLoopi p count len s := rfl
theorem exec_lexit (p : Pid) (s : State) : exec (.lexit p) s = execLexit p s := rfl
theorem exec_kload (p : Pid) (gd : Reg) (gs : Reg) (ctx : Fin 4) (rival : Option (EngId × Reg × Reg × Fin 4)) (s : State) :
    exec (.kload p gd gs ctx rival) s = execKload p gd gs ctx s rival := rfl
theorem exec_kwait (p : Pid) (gd : Reg) (ctx : Fin 4) (s : State) : exec (.kwait p gd ctx) s = execKwait p gd ctx s := rfl
theorem exec_krel (p : Pid) (ctx : Fin 4) (s : State) : exec (.krel p ctx) s = execKrel p ctx s := rfl
theorem exec_kset (p : Pid) (gs : Reg) (ctx : Fin 4) (sel : U5) (s : State) : exec (.kset p gs ctx sel) s = execKset p gs ctx sel s := rfl
theorem exec_kget (p : Pid) (gd : Reg) (ctx : Fin 4) (sel : U5) (s : State) : exec (.kget p gd ctx sel) s = execKget p gd ctx sel s := rfl
theorem exec_hinit (p : Pid) (alg : U5) (s : State) : exec (.hinit p alg) s = execHinit p alg s := rfl
theorem exec_habs (p : Pid) (gs : Reg) (gt : Reg) (s : State) : exec (.habs p gs gt) s = execHabs p gs gt s := rfl
theorem exec_hfin (p : Pid) (gd : Reg) (s : State) : exec (.hfin p gd) s = execHfin p gd s := rfl
theorem exec_hget (p : Pid) (gd : Reg) (idx : U5) (s : State) : exec (.hget p gd idx) s = execHget p gd idx s := rfl
theorem exec_setmode (p : Pid) (gs : Reg) (s : State) : exec (.setmode p gs) s = execSetmode p gs s := rfl
theorem exec_eret (p : Pid) (s : State) : exec (.eret p) s = execEret p s := rfl
theorem exec_trap (p : Pid) (code : U10) (s : State) : exec (.trap p code) s = execTrap p code s := rfl
theorem exec_evwait (p : Pid) (s : State) : exec (.evwait p) s = execEvwait p s := rfl
theorem exec_fence (p : Pid) (s : State) : exec (.fence p) s = execFence p s := rfl
theorem exec_flushi (p : Pid) (s : State) : exec (.flushi p) s = execFlushi p s := rfl
theorem exec_breakpoint (p : Pid) (s : State) : exec (.breakpoint p) s = execBreakpoint p s := rfl
theorem exec_loadDataReturn (p : Pid) (port : Bool) (k : Fin 16) (ecc : Fin 3) (s : State) : exec (.loadDataReturn p port k ecc) s = execLoadDataReturn p port k ecc s := rfl
theorem exec_storePerform (p : Pid) (port : Bool) (k : Fin 16) (s : State) : exec (.storePerform p port k) s = execStorePerform p port k s := rfl
theorem exec_kloadResolve (e : EngId) (ctx : Fin 4) (s : State) : exec (.kloadResolve e ctx) s = execKloadResolve e ctx s := rfl
theorem exec_habsComplete (p : Pid) (ecc : Fin 3) (s : State) :
    exec (.habsComplete p ecc) s = execHabsComplete p s ecc := rfl
theorem exec_evwaitResume (p : Pid) (s : State) : exec (.evwaitResume p) s = execEvwaitResume p s := rfl
theorem exec_interruptAccept (p : Pid) (s : State) : exec (.interruptAccept p) s = execInterruptAccept p s := rfl
theorem exec_engineReset (e : EngId) (s : State) : exec (.engineReset e) s = execEngineReset e s := rfl
theorem exec_stepEngine (e : EngId) (s : State) : exec (.stepEngine e) s = execStepEngine e s := rfl
theorem exec_halt (e : EngId) (s : State) : exec (.halt e) s = execHalt e s := rfl
theorem exec_engineRelease (e : EngId) (s : State) : exec (.engineRelease e) s = execEngineRelease e s := rfl
theorem exec_haltPoint (e : EngId) (s : State) : exec (.haltPoint e) s = execHaltPoint e s := rfl
theorem exec_engHaltLate (e : EngId) (s : State) : exec (.engHaltLate e) s = execEngHaltLate e s := rfl
theorem exec_wdbsetRing (e : EngId) (s : State) : exec (.wdbsetRing e) s = execWdbsetRing e s := rfl
theorem exec_deadlineArm (e : EngId) (value : Word) (s : State) : exec (.deadlineArm e value) s = execDeadlineArm e value s := rfl
theorem exec_deadlineReached (e : EngId) (s : State) : exec (.deadlineReached e) s = execDeadlineReached e s := rfl
theorem exec_dmgo (e : EngId) (s : State) : exec (.dmgo e) s = execDmgo e s := rfl
theorem exec_dmrel (e : EngId) (slot : SlotId) (s : State) : exec (.dmrel e slot) s = execDmrel e slot s := rfl
theorem exec_dmdoneRead (e : EngId) (s : State) : exec (.dmdoneRead e) s = execDmdoneRead e s := rfl
theorem exec_cutestRun (e : EngId) (s : State) : exec (.cutestRun e) s = execCutestRun e s := rfl
theorem exec_selftestEnd (e : EngId) (result : U8) (s : State) : exec (.selftestEnd e result) s = execSelftestEnd e result s := rfl
theorem exec_cuStageTimeout (e : EngId) (s : State) : exec (.cuStageTimeout e) s = execCuStageTimeout e s := rfl
theorem exec_tagPassComplete (e : EngId) (slot : SlotId) (lba : Fin 1024) (data : Bytes) (err : Fin 4) (s : State) : exec (.tagPassComplete e slot lba data err) s = execTagPassComplete e slot lba data err s := rfl
theorem exec_hostDataReturn (e : EngId) (slot : SlotId) (offset : Nat) (data : Bytes) (err : Fin 4) (s : State) : exec (.hostDataReturn e slot offset data err) s = execHostDataReturn e slot offset data err s := rfl
theorem exec_driveMemRead (drive : DriveId) (addr : DWord) (len : Nat) (err : Fin 3) (s : State) : exec (.driveMemRead drive addr len err) s = execDriveMemRead drive addr len err s := rfl
theorem exec_driveMemWrite (drive : DriveId) (addr : DWord) (data : Bytes) (err : Fin 3) (s : State) :
    exec (.driveMemWrite drive addr data err) s = execDriveMemWrite drive addr data s err := rfl
theorem exec_keyFillComplete (t : TileId) (slot : BitVec 20) (err : Bool) (s : State) : exec (.keyFillComplete t slot err) s = execKeyFillComplete t slot err s := rfl
theorem exec_evict (t : TileId) (s : State) : exec (.evict t) s = execEvict t s := rfl
theorem exec_keyWaitGrant (t : TileId) (s : State) : exec (.keyWaitGrant t) s = execKeyWaitGrant t s := rfl
theorem exec_keyDelivery (t : TileId) (err : Bool) (s : State) :
    exec (.keyDelivery t err) s = execKeyDelivery t s err := rfl
theorem exec_purgeLine (s : State) : exec (.purgeLine) s = execPurgeLine s := rfl
theorem exec_kcpurgeGo (t : TileId) (scope : Fin 4) (key : BitVec 20) (done : Bool) (s : State) : exec (.kcpurgeGo t scope key done) s = execKcpurgeGo t scope key done s := rfl
theorem exec_kcpinPin (t : TileId) (slot : BitVec 20) (gen : Fin 16) (s : State) : exec (.kcpinPin t slot gen) s = execKcpinPin t slot gen s := rfl
theorem exec_kcpinUnpin (t : TileId) (slot : BitVec 20) (s : State) : exec (.kcpinUnpin t slot) s = execKcpinUnpin t slot s := rfl
theorem exec_kcctrlWbflush (t : TileId) (s : State) : exec (.kcctrlWbflush t) s = execKcctrlWbflush t s := rfl
theorem exec_writebackItem (t : TileId) (s : State) : exec (.writebackItem t) s = execWritebackItem t s := rfl
theorem exec_deltaAgeExpiry (t : TileId) (slot : BitVec 20) (s : State) : exec (.deltaAgeExpiry t slot) s = execDeltaAgeExpiry t slot s := rfl
theorem exec_writebackPromote (t : TileId) (s : State) : exec (.writebackPromote t) s = execWritebackPromote t s := rfl
theorem exec_spreq (e : EngId) (value : Word) (rival : Option (EngId × Word)) (s : State) :
    exec (.spreq e value rival) s = execSpreq e value s rival := rfl
theorem exec_spillGrant (t : TileId) (s : State) : exec (.spillGrant t) s = execSpillGrant t s := rfl
theorem exec_spgntRead (e : EngId) (s : State) : exec (.spgntRead e) s = execSpgntRead e s := rfl
theorem exec_spret (e : EngId) (value : Word) (s : State) : exec (.spret e value) s = execSpret e value s := rfl
theorem exec_cmdpop (e : EngId) (s : State) : exec (.cmdpop e) s = execCmdpop e s := rfl
theorem exec_cmddefer (e : EngId) (value : Word) (s : State) : exec (.cmddefer e value) s = execCmddefer e value s := rfl
theorem exec_cplpost (e : EngId) (value : Word) (s : State) : exec (.cplpost e value) s = execCplpost e value s := rfl
theorem exec_slotget (e : EngId) (s : State) : exec (.slotget e) s = execSlotget e s := rfl
theorem exec_slotcls (e : EngId) (value : Word) (s : State) : exec (.slotcls e value) s = execSlotcls e value s := rfl
theorem exec_dcqpop (e : EngId) (s : State) : exec (.dcqpop e) s = execDcqpop e s := rfl
theorem exec_moltpop (e : EngId) (s : State) : exec (.moltpop e) s = execMoltpop e s := rfl
theorem exec_moltpostClaim (e : EngId) (m : MoltId) (s : State) : exec (.moltpostClaim e m) s = execMoltpostClaim e m s := rfl
theorem exec_moltpostFingerprint (e : EngId) (m : MoltId) (fp : DWord) (s : State) : exec (.moltpostFingerprint e m fp) s = execMoltpostFingerprint e m fp s := rfl
theorem exec_moltpostDone (e : EngId) (m : MoltId) (s : State) : exec (.moltpostDone e m) s = execMoltpostDone e m s := rfl
theorem exec_moltpostResolvedNew (e : EngId) (m : MoltId) (s : State) : exec (.moltpostResolvedNew e m) s = execMoltpostResolvedNew e m s := rfl
theorem exec_moltpostResolvedOld (e : EngId) (m : MoltId) (s : State) : exec (.moltpostResolvedOld e m) s = execMoltpostResolvedOld e m s := rfl
theorem exec_moltpostFailed (e : EngId) (m : MoltId) (s : State) : exec (.moltpostFailed e m) s = execMoltpostFailed e m s := rfl
theorem exec_moltRetryTimer (m : MoltId) (s : State) : exec (.moltRetryTimer m) s = execMoltRetryTimer m s := rfl
theorem exec_moltAgingPromote (m : MoltId) (s : State) : exec (.moltAgingPromote m) s = execMoltAgingPromote m s := rfl
theorem exec_sqDoorbell (f : FuncId) (index : Fin 130) (value : Word) (s : State) : exec (.sqDoorbell f index value) s = execSqDoorbell f index value s := rfl
theorem exec_sqEntryFetch (q : QuadId) (sqe : Bytes) (err : Bool) (s : State) : exec (.sqEntryFetch q sqe err) s = execSqEntryFetch q sqe err s := rfl
theorem exec_spillService (q : QuadId) (err : Bool) (s : State) :
    exec (.spillService q err) s = execSpillService q s err := rfl
theorem exec_gateClose (q : QuadId) (m : MoltId) (s : State) : exec (.gateClose q m) s = execGateClose q m s := rfl
theorem exec_gateOpen (q : QuadId) (m : MoltId) (s : State) : exec (.gateOpen q m) s = execGateOpen q m s := rfl
theorem exec_gateDrained (q : QuadId) (m : MoltId) (s : State) : exec (.gateDrained q m) s = execGateDrained q m s := rfl
theorem exec_gateDrainTimeout (q : QuadId) (m : MoltId) (s : State) : exec (.gateDrainTimeout q m) s = execGateDrainTimeout q m s := rfl
theorem exec_admidxWr (q : QuadId) (f : FuncId) (s : State) : exec (.admidxWr q f) s = execAdmidxWr q f s := rfl
theorem exec_admidxRd (q : QuadId) (f : FuncId) (s : State) : exec (.admidxRd q f) s = execAdmidxRd q f s := rfl
theorem exec_ledgerCopy (q : QuadId) (s : State) : exec (.ledgerCopy q) s = execLedgerCopy q s := rfl
theorem exec_cqFullTimeout (f : FuncId) (s : State) : exec (.cqFullTimeout f) s = execCqFullTimeout f s := rfl
theorem exec_deleteIoSq (f : FuncId) (s : State) : exec (.deleteIoSq f) s = execDeleteIoSq f s := rfl
theorem exec_createIoSq (f : FuncId) (s : State) : exec (.createIoSq f) s = execCreateIoSq f s := rfl
theorem exec_getLogPage (f : FuncId) (s : State) : exec (.getLogPage f) s = execGetLogPage f s := rfl
theorem exec_deleteIoCq (f : FuncId) (s : State) : exec (.deleteIoCq f) s = execDeleteIoCq f s := rfl
theorem exec_createIoCq (f : FuncId) (s : State) : exec (.createIoCq f) s = execCreateIoCq f s := rfl
theorem exec_nvmeIdentify (f : FuncId) (s : State) : exec (.nvmeIdentify f) s = execNvmeIdentify f s := rfl
theorem exec_abort (f : FuncId) (s : State) : exec (.abort f) s = execAbort f s := rfl
theorem exec_setFeatures (f : FuncId) (data : Bytes) (s : State) : exec (.setFeatures f data) s = execSetFeatures f data s := rfl
theorem exec_getFeatures (f : FuncId) (s : State) : exec (.getFeatures f) s = execGetFeatures f s := rfl
theorem exec_asyncEventRequest (f : FuncId) (s : State) : exec (.asyncEventRequest f) s = execAsyncEventRequest f s := rfl
theorem exec_formatNvm (f : FuncId) (late : List TileId) (s : State) : exec (.formatNvm f late) s = execFormatNvm f late s := rfl
theorem exec_sanitize (f : FuncId) (late : List TileId) (s : State) : exec (.sanitize f late) s = execSanitize f late s := rfl
theorem exec_flush (e : EngId) (slot : SlotId) (s : State) : exec (.flush e slot) s = execFlush e slot s := rfl
theorem exec_write (e : EngId) (slot : SlotId) (s : State) : exec (.write e slot) s = execWrite e slot s := rfl
theorem exec_read (e : EngId) (slot : SlotId) (s : State) : exec (.read e slot) s = execRead e slot s := rfl
theorem exec_datasetManagement (e : EngId) (slot : SlotId) (ranges : Bytes) (s : State) : exec (.datasetManagement e slot ranges) s = execDatasetManagement e slot ranges s := rfl
theorem exec_ccEnable (f : FuncId) (asqs : BitVec 12) (acqs : BitVec 12) (asq : DWord) (acq : DWord) (s : State) : exec (.ccEnable f asqs acqs asq acq) s = execCcEnable f asqs acqs asq acq s := rfl
theorem exec_controllerReset (f : FuncId) (s : State) : exec (.controllerReset f) s = execControllerReset f s := rfl
theorem exec_functionLevelReset (f : FuncId) (s : State) : exec (.functionLevelReset f) s = execFunctionLevelReset f s := rfl
theorem exec_vfEnableChange (u : PortId) (enable : Bool) (num : U8) (s : State) : exec (.vfEnableChange u enable num) s = execVfEnableChange u enable num s := rfl
theorem exec_inboundTlp (port : Fin 32) (linkB : Bool) (tlp : Tlp) (s : State) : exec (.inboundTlp port linkB tlp) s = execInboundTlp port linkB tlp s := rfl
theorem exec_completionTimeout (req : PortReq) (s : State) : exec (.completionTimeout req) s = execCompletionTimeout req s := rfl
theorem exec_l1Entry (link : LinkId) (sub : Fin 3) (latency : Word) (s : State) :
    exec (.l1Entry link sub latency) s = execL1Entry link sub s latency := rfl
theorem exec_l1Exit (link : LinkId) (s : State) :
    exec (.l1Exit link) s = execL1Exit link s := rfl
theorem exec_d3hotEntry (f : FuncId) (s : State) : exec (.d3hotEntry f) s = execD3hotEntry f s := rfl
theorem exec_d0Return (f : FuncId) (s : State) : exec (.d0Return f) s = execD0Return f s := rfl
theorem exec_pmeTurnOff (u : PortId) (s : State) : exec (.pmeTurnOff u) s = execPmeTurnOff u s := rfl
theorem exec_perstUpstream (u : PortId) (assert : Bool) (s : State) : exec (.perstUpstream u assert) s = execPerstUpstream u assert s := rfl
theorem exec_hotReset (u : PortId) (s : State) : exec (.hotReset u) s = execHotReset u s := rfl
theorem exec_dlDown (u : PortId) (s : State) : exec (.dlDown u) s = execDlDown u s := rfl
theorem exec_coalesceTimerExpiry (f : FuncId) (v : Fin 65) (s : State) : exec (.coalesceTimerExpiry f v) s = execCoalesceTimerExpiry f v s := rfl
theorem exec_msixUnmask (f : FuncId) (v : Fin 65) (s : State) : exec (.msixUnmask f v) s = execMsixUnmask f v s := rfl
theorem exec_refclkLoss (oot : Bool) (s : State) : exec (.refclkLoss oot) s = execRefclkLoss oot s := rfl
theorem exec_refclkQualified (b : Bool) (s : State) : exec (.refclkQualified b) s = execRefclkQualified b s := rfl
theorem exec_relockComplete (s : State) : exec (.relockComplete) s = execRelockComplete s := rfl
theorem exec_clkForce (s : State) : exec (.clkForce) s = execClkForce s := rfl
theorem exec_slotEnable (g : GroupId) (k : Fin 2) (en : Bool) (s : State) : exec (.slotEnable g k en) s = execSlotEnable g k en s := rfl
theorem exec_retrain (g : GroupId) (k : Fin 2) (s : State) : exec (.retrain g k) s = execRetrain g k s := rfl
theorem exec_perstDownstream (g : GroupId) (k : Fin 2) (on : Bool) (s : State) : exec (.perstDownstream g k on) s = execPerstDownstream g k on s := rfl
theorem exec_driveLinkUp (drive : DriveId) (rate : Fin 7) (width : Fin 17) (cto : Fin 16) (s : State) :
    exec (.driveLinkUp drive rate width cto) s = execDriveLinkUp drive s rate width cto := rfl
theorem exec_driveReady (drive : DriveId) (ident : DrvId) (fail : Bool) (s : State) : exec (.driveReady drive ident fail) s = execDriveReady drive ident fail s := rfl
theorem exec_driveAdminPoll (drive : DriveId) (kind : Fin 4) (e : EngId) (slot : SlotId) (s : State) : exec (.driveAdminPoll drive kind e slot) s = execDriveAdminPoll drive kind e slot s := rfl
theorem exec_driveCompletion (drive : DriveId) (sqid : BitVec 16) (sqhd : BitVec 16) (cid : BitVec 16) (dw0 : Word) (sct : Fin 8) (sc : U8) (dnr : Bool) (beyond : Bool) (cq : Fin 16) (s : State) :
    exec (.driveCompletion drive sqid sqhd cid dw0 sct sc dnr beyond cq) s = execDriveCompletion drive sqid sqhd cid dw0 sct sc dnr beyond s cq := rfl
theorem exec_driveInterruptLanding (drive : DriveId) (t : TileId) (data : Word) (s : State) : exec (.driveInterruptLanding drive t data) s = execDriveInterruptLanding drive t data s := rfl
theorem exec_shortTransferCheck (e : EngId) (slot : SlotId) (s : State) : exec (.shortTransferCheck e slot) s = execShortTransferCheck e slot s := rfl
theorem exec_driveCmdTimeout (e : EngId) (slot : SlotId) (s : State) : exec (.driveCmdTimeout e slot) s = execDriveCmdTimeout e slot s := rfl
theorem exec_driveAbortTimeout (e : EngId) (slot : SlotId) (s : State) : exec (.driveAbortTimeout e slot) s = execDriveAbortTimeout e slot s := rfl
theorem exec_cstsPoll (drive : DriveId) (cfs : Bool) (s : State) : exec (.cstsPoll drive cfs) s = execCstsPoll drive cfs s := rfl
theorem exec_driveResetComplete (drive : DriveId) (ok : Bool) (s : State) : exec (.driveResetComplete drive ok) s = execDriveResetComplete drive ok s := rfl
theorem exec_drvnQuar (drive : DriveId) (s : State) : exec (.drvnQuar drive) s = execDrvnQuar drive s := rfl
theorem exec_drvnRelease (drive : DriveId) (s : State) : exec (.drvnRelease drive) s = execDrvnRelease drive s := rfl
theorem exec_driveLinkDown (drive : DriveId) (s : State) : exec (.driveLinkDown drive) s = execDriveLinkDown drive s := rfl
theorem exec_dielinkDown (s : State) : exec (.dielinkDown) s = execDielinkDown s := rfl
theorem exec_dielinkRetrain (ok : Bool) (s : State) : exec (.dielinkRetrain ok) s = execDielinkRetrain ok s := rfl
theorem exec_faultEventRead (die : Bool) (s : State) : exec (.faultEventRead die) s = execFaultEventRead die s := rfl
theorem exec_recoveryDrainDone (entry : Fin 16) (fails : List Nat) (code : Fin 5) (s : State) : exec (.recoveryDrainDone entry fails code) s = execRecoveryDrainDone entry fails code s := rfl
theorem exec_queueFlush (q : Fin 1543) (s : State) : exec (.queueFlush q) s = execQueueFlush q s := rfl
theorem exec_queueEnable (q : Fin 1543) (en : Bool) (s : State) : exec (.queueEnable q en) s = execQueueEnable q en s := rfl
theorem exec_queueMiddleBurst (f : FuncId) (up : Bool) (err : Bool) (s : State) : exec (.queueMiddleBurst f up err) s = execQueueMiddleBurst f up err s := rfl
theorem exec_regAccessTimeout (index : Fin 16) (s : State) : exec (.regAccessTimeout index) s = execRegAccessTimeout index s := rfl
theorem exec_croak (seq : BitVec 16) (s : State) : exec (.croak seq) s = execCroak seq s := rfl
theorem exec_croakMiss (s : State) : exec (.croakMiss) s = execCroakMiss s := rfl
theorem exec_icuSwset (value : U8) (s : State) : exec (.icuSwset value) s = execIcuSwset value s := rfl
theorem exec_mbxDoorbell (p : PageId) (s : State) : exec (.mbxDoorbell p) s = execMbxDoorbell p s := rfl
theorem exec_mbxHdataAccess (p : PageId) (write : Option Word) (s : State) : exec (.mbxHdataAccess p write) s = execMbxHdataAccess p write s := rfl
theorem exec_mbxAccept (p : PageId) (s : State) : exec (.mbxAccept p) s = execMbxAccept p s := rfl
theorem exec_mbxDone (p : PageId) (s : State) : exec (.mbxDone p) s = execMbxDone p s := rfl
theorem exec_mbxPageReset (p : PageId) (s : State) : exec (.mbxPageReset p) s = execMbxPageReset p s := rfl
theorem exec_mctpMessage (k : Fin 2) (inner : Bytes) (s : State) : exec (.mctpMessage k inner) s = execMctpMessage k inner s := rfl
theorem exec_mctpAssemblyTimeout (k : Fin 2) (src : U8) (tag : Fin 16) (s : State) : exec (.mctpAssemblyTimeout k src tag) s = execMctpAssemblyTimeout k src tag s := rfl
theorem exec_spdmRequest (at_ : Fin 6) (kind : Fin 3) (msg : Bytes) (s : State) : exec (.spdmRequest at_ kind msg) s = execSpdmRequest at_ kind msg s := rfl
theorem exec_identify (p : PageId) (s : State) : exec (.identify p) s = execIdentify p s := rfl
theorem exec_status (p : PageId) (s : State) : exec (.status p) s = execStatus p s := rfl
theorem exec_attest (p : PageId) (nonce : Bytes) (s : State) : exec (.attest p nonce) s = execAttest p nonce s := rfl
theorem exec_certRead (p : PageId) (slot : U8) (off : Word) (len : BitVec 16) (s : State) : exec (.certRead p slot off len) s = execCertRead p slot off len s := rfl
theorem exec_importKeyGet (p : PageId) (s : State) : exec (.importKeyGet p) s = execImportKeyGet p s := rfl
theorem exec_nonceGet (p : PageId) (s : State) : exec (.nonceGet p) s = execNonceGet p s := rfl
theorem exec_keyImport (p : PageId) (nsid : Word) (band : U8) (mode : U8) (target : U8) (nonce : Bytes) (ct : Bytes) (sealed : Bytes) (spare : BitVec 20) (s : State) : exec (.keyImport p nsid band mode target nonce ct sealed spare) s = execKeyImport p nsid band mode target nonce ct sealed spare s := rfl
theorem exec_keyGenerate (p : PageId) (nsid : Word) (band : U8) (mode : U8) (target : U8) (spare : BitVec 20) (s : State) : exec (.keyGenerate p nsid band mode target spare) s = execKeyGenerate p nsid band mode target spare s := rfl
theorem exec_eraseBand (p : PageId) (band : U8) (f : BitVec 16) (nsid : Word) (late : List TileId) (s : State) : exec (.eraseBand p band f nsid late) s = execEraseBand p band f nsid late s := rfl
theorem exec_eraseNamespace (p : PageId) (f : BitVec 16) (nsid : Word) (late : List TileId) (s : State) : exec (.eraseNamespace p f nsid late) s = execEraseNamespace p f nsid late s := rfl
theorem exec_eraseController (p : PageId) (f : BitVec 16) (late : List TileId) (s : State) : exec (.eraseController p f late) s = execEraseController p f late s := rfl
theorem exec_eraseDevice (p : PageId) (s : State) : exec (.eraseDevice p) s = execEraseDevice p s := rfl
theorem exec_erasePurgeEscalation (index : Fin 2) (s : State) : exec (.erasePurgeEscalation index) s = execErasePurgeEscalation index s := rfl
theorem exec_ledgerRead (p : PageId) (f : BitVec 16) (s : State) : exec (.ledgerRead p f) s = execLedgerRead p f s := rfl
theorem exec_rateSet (p : PageId) (f : BitVec 16) (gRate : BitVec 16) (gBurst : BitVec 16) (vRate : BitVec 16) (vBurst : BitVec 16) (s : State) : exec (.rateSet p f gRate gBurst vRate vBurst) s = execRateSet p f gRate gBurst vRate vBurst s := rfl
theorem exec_moltStart (p : PageId) (nsid : Word) (band : U8) (s : State) : exec (.moltStart p nsid band) s = execMoltStart p nsid band s := rfl
theorem exec_moltPause (p : PageId) (m : U8) (s : State) : exec (.moltPause p m) s = execMoltPause p m s := rfl
theorem exec_moltResume (p : PageId) (m : U8) (s : State) : exec (.moltResume p m) s = execMoltResume p m s := rfl
theorem exec_moltCancel (p : PageId) (m : U8) (s : State) : exec (.moltCancel p m) s = execMoltCancel p m s := rfl
theorem exec_moltStatus (p : PageId) (m : U8) (s : State) : exec (.moltStatus p m) s = execMoltStatus p m s := rfl
theorem exec_tenantSet (p : PageId) (f : BitVec 16) (commit : BitVec 16) (elastic : BitVec 16) (quota : BitVec 16) (lat : U8) (home : Option (Fin 4)) (s : State) : exec (.tenantSet p f commit elastic quota lat home) s = execTenantSet p f commit elastic quota lat home s := rfl
theorem exec_tenantDelete (p : PageId) (f : BitVec 16) (s : State) : exec (.tenantDelete p f) s = execTenantDelete p f s := rfl
theorem exec_nsCreate (p : PageId) (nsze : DWord) (lbads : U8) (nbands : U8) (s : State) : exec (.nsCreate p nsze lbads nbands) s = execNsCreate p nsze lbads nbands s := rfl
theorem exec_nsExtents (p : PageId) (nsx : BitVec 16) (first : BitVec 16) (recs : List ExtRec) (commit : Bool) (s : State) : exec (.nsExtents p nsx first recs commit) s = execNsExtents p nsx first recs commit s := rfl
theorem exec_nsBands (p : PageId) (nsx : BitVec 16) (starts : List DWord) (s : State) : exec (.nsBands p nsx starts) s = execNsBands p nsx starts s := rfl
theorem exec_nsAttach (p : PageId) (f : BitVec 16) (nsid : Word) (nsx : BitVec 16) (alt : Bool) (s : State) : exec (.nsAttach p f nsid nsx alt) s = execNsAttach p f nsid nsx alt s := rfl
theorem exec_nsDetach (p : PageId) (f : BitVec 16) (nsid : Word) (nsx : BitVec 16) (s : State) : exec (.nsDetach p f nsid nsx) s = execNsDetach p f nsid nsx s := rfl
theorem exec_nsDelete (p : PageId) (nsx : BitVec 16) (s : State) : exec (.nsDelete p nsx) s = execNsDelete p nsx s := rfl
theorem exec_railCommit (p : PageId) (t : U8) (mv : BitVec 16) (s : State) : exec (.railCommit p t mv) s = execRailCommit p t mv s := rfl
theorem exec_ideRequire (p : PageId) (who : BitVec 16) (stream : Option (Fin 8)) (s : State) : exec (.ideRequire p who stream) s = execIdeRequire p who stream s := rfl
theorem exec_groupMode (p : PageId) (g : U8) (value : Word) (s : State) : exec (.groupMode p g value) s = execGroupMode p g value s := rfl
theorem exec_driveAssign (p : PageId) (d : U8) (s : State) : exec (.driveAssign p d) s = execDriveAssign p d s := rfl
theorem exec_driveRelease (p : PageId) (d : U8) (s : State) : exec (.driveRelease p d) s = execDriveRelease p d s := rfl
theorem exec_driveReset (p : PageId) (d : U8) (s : State) : exec (.driveReset p d) s = execDriveReset p d s := rfl
theorem exec_driveStatus (p : PageId) (d : U8) (s : State) : exec (.driveStatus p d) s = execDriveStatus p d s := rfl
theorem exec_faultRead (p : PageId) (s : State) : exec (.faultRead p) s = execFaultRead p s := rfl
theorem exec_faultClear (p : PageId) (level : U8) (index : U8) (s : State) : exec (.faultClear p level index) s = execFaultClear p level index s := rfl
theorem exec_powerStateActive (p : PageId) (flags : U8) (rsv : BitVec 16) (s : State) : exec (.powerStateActive p flags rsv) s = execPowerStateActive p flags rsv s := rfl
theorem exec_powerStateBasking (p : PageId) (flags : U8) (rsv : BitVec 16) (stop : Fin 6) (s : State) : exec (.powerStateBasking p flags rsv stop) s = execPowerStateBasking p flags rsv stop s := rfl
theorem exec_powerStateBrumation (p : PageId) (flags : U8) (rsv : BitVec 16) (stop : Fin 9) (s : State) : exec (.powerStateBrumation p flags rsv stop) s = execPowerStateBrumation p flags rsv stop s := rfl
theorem exec_capsuleCapture (p : PageId) (s : State) : exec (.capsuleCapture p) s = execCapsuleCapture p s := rfl
theorem exec_capsuleRead (p : PageId) (off : Word) (len : BitVec 16) (s : State) : exec (.capsuleRead p off len) s = execCapsuleRead p off len s := rfl
theorem exec_claim (p : PageId) (cls : U8) (first : U8) (count : U8) (label : U8) (s : State) : exec (.claim p cls first count label) s = execClaim p cls first count label s := rfl
theorem exec_release (p : PageId) (cls : U8) (first : U8) (count : U8) (s : State) : exec (.release p cls first count) s = execRelease p cls first count s := rfl
theorem exec_owners (p : PageId) (cls : U8) (s : State) : exec (.owners p cls) s = execOwners p cls s := rfl
theorem exec_fwStatus (p : PageId) (s : State) : exec (.fwStatus p) s = execFwStatus p s := rfl
theorem exec_fwBegin (p : PageId) (ok : Bool) (s : State) : exec (.fwBegin p ok) s = execFwBegin p ok s := rfl
theorem exec_fwWrite (p : PageId) (off : Word) (data : Bytes) (ok : Bool) (s : State) : exec (.fwWrite p off data ok) s = execFwWrite p off data ok s := rfl
theorem exec_fwVerify (p : PageId) (s : State) : exec (.fwVerify p) s = execFwVerify p s := rfl
theorem exec_fwActivate (p : PageId) (s : State) : exec (.fwActivate p) s = execFwActivate p s := rfl
theorem exec_fwInvalidate (p : PageId) (ok : Bool) (s : State) : exec (.fwInvalidate p ok) s = execFwInvalidate p ok s := rfl
theorem exec_configRead (p : PageId) (off : Word) (len : BitVec 16) (s : State) : exec (.configRead p off len) s = execConfigRead p off len s := rfl
theorem exec_configStage (p : PageId) (off : Word) (data : Bytes) (s : State) : exec (.configStage p off data) s = execConfigStage p off data s := rfl
theorem exec_configCommit (p : PageId) (ok : Bool) (s : State) : exec (.configCommit p ok) s = execConfigCommit p ok s := rfl
theorem exec_testChallenge (p : PageId) (s : State) : exec (.testChallenge p) s = execTestChallenge p s := rfl
theorem exec_testStage (p : PageId) (off : Word) (data : Bytes) (s : State) : exec (.testStage p off data) s = execTestStage p off data s := rfl
theorem exec_testUnlock (p : PageId) (s : State) : exec (.testUnlock p) s = execTestUnlock p s := rfl
theorem exec_testChallengeExpiry (s : State) : exec (.testChallengeExpiry) s = execTestChallengeExpiry s := rfl
theorem exec_partReset (p : PageId) (s : State) : exec (.partReset p) s = execPartReset p s := rfl
theorem exec_storeAdopt (p : PageId) (base : Fin 32) (s : State) : exec (.storeAdopt p base) s = execStoreAdopt p base s := rfl
theorem exec_custodyStatus (p : PageId) (s : State) : exec (.custodyStatus p) s = execCustodyStatus p s := rfl
theorem exec_custodyInit (p : PageId) (m : U8) (n : U8) (s : State) : exec (.custodyInit p m n) s = execCustodyInit p m n s := rfl
theorem exec_shareIssue (p : PageId) (index : U8) (c : Fin 64) (start key store : List (List Word)) (s : State) :
    exec (.shareIssue p index c start key store) s = execShareIssue p index c start key store s := rfl
theorem exec_shareRotate (p : PageId) (s : State) : exec (.shareRotate p) s = execShareRotate p s := rfl
theorem exec_restoreBegin (p : PageId) (s : State) : exec (.restoreBegin p) s = execRestoreBegin p s := rfl
theorem exec_restoreAdd (p : PageId) (index : U8) (c : Fin 64) (start select key release : List (List Word)) (s : State) :
    exec (.restoreAdd p index c start select key release) s = execRestoreAdd p index c start select key release s := rfl
theorem exec_restoreAbort (p : PageId) (s : State) : exec (.restoreAbort p) s = execRestoreAbort p s := rfl
theorem exec_tamperAck (p : PageId) (noisy : BitVec 7) (s : State) : exec (.tamperAck p noisy) s = execTamperAck p noisy s := rfl
theorem exec_wakeConfig (p : PageId) (pin : U8) (en : Bool) (pol : Bool) (level : Bool) (s : State) : exec (.wakeConfig p pin en pol level) s = execWakeConfig p pin en pol level s := rfl
theorem exec_vledgerRead (p : PageId) (off : Word) (len : BitVec 16) (s : State) : exec (.vledgerRead p off len) s = execVledgerRead p off len s := rfl
theorem exec_deviceEraseStatus (p : PageId) (s : State) : exec (.deviceEraseStatus p) s = execDeviceEraseStatus p s := rfl
theorem exec_eraseregRegister (s : State) : exec (.eraseregRegister) s = execEraseregRegister s := rfl
theorem exec_eraseregWithdraw (slot : Fin 2) (s : State) : exec (.eraseregWithdraw slot) s = execEraseregWithdraw slot s := rfl
theorem exec_eraseBackstop (slot : Fin 2) (s : State) : exec (.eraseBackstop slot) s = execEraseBackstop slot s := rfl
theorem exec_vltNonce (f : FuncId) (s : State) : exec (.vltNonce f) s = execVltNonce f s := rfl
theorem exec_vltImport (f : FuncId) (mode : Fin 4) (slot : BitVec 20) (gen : Fin 16) (nsx : BitVec 16) (band : Fin 64) (alt : Option (Fin 1024)) (aad : Bytes) (ct : Bytes) (sealed : Bytes) (s : State) : exec (.vltImport f mode slot gen nsx band alt aad ct sealed) s = execVltImport f mode slot gen nsx band alt aad ct sealed s := rfl
theorem exec_vltGenerate (f : FuncId) (mode : Fin 4) (slot : BitVec 20) (gen : Fin 16) (nsx : BitVec 16) (band : Fin 64) (alt : Option (Fin 1024)) (s : State) : exec (.vltGenerate f mode slot gen nsx band alt) s = execVltGenerate f mode slot gen nsx band alt s := rfl
theorem exec_vltSign (slot : Fin 2) (digest : Bytes) (s : State) : exec (.vltSign slot digest) s = execVltSign slot digest s := rfl
theorem exec_vltDeviceErase (s : State) : exec (.vltDeviceErase) s = execVltDeviceErase s := rfl
theorem exec_vltSlotmapBump (s : State) : exec (.vltSlotmapBump) s = execVltSlotmapBump s := rfl
theorem exec_vltCustodyInit (m : U8) (n : U8) (s : State) : exec (.vltCustodyInit m n) s = execVltCustodyInit m n s := rfl
theorem exec_vltShareRotate (s : State) : exec (.vltShareRotate) s = execVltShareRotate s := rfl
theorem exec_vltShareOut (index : U8) (card : Bytes) (s : State) : exec (.vltShareOut index card) s = execVltShareOut index card s := rfl
theorem exec_vltRestoreBegin (s : State) : exec (.vltRestoreBegin) s = execVltRestoreBegin s := rfl
theorem exec_vltChallenge (index : U8) (s : State) : exec (.vltChallenge index) s = execVltChallenge index s := rfl
theorem exec_vltShareIn (index : U8) (card : Bytes) (blob : Bytes) (s : State) : exec (.vltShareIn index card blob) s = execVltShareIn index card blob s := rfl
theorem exec_vltRestoreAbort (s : State) : exec (.vltRestoreAbort) s = execVltRestoreAbort s := rfl
theorem exec_vltTamperAck (noisy : BitVec 7) (s : State) : exec (.vltTamperAck noisy) s = execVltTamperAck noisy s := rfl
theorem exec_vltWardenReset (s : State) : exec (.vltWardenReset) s = execVltWardenReset s := rfl
theorem exec_vltTestUnlock (token : Bytes) (s : State) : exec (.vltTestUnlock token) s = execVltTestUnlock token s := rfl
theorem exec_ledgerDataAccess (write : Option Word) (s : State) : exec (.ledgerDataAccess write) s = execLedgerDataAccess write s := rfl
theorem exec_tamperTrip (sensors : BitVec 7) (first : Fin 7) (s : State) : exec (.tamperTrip sensors first) s = execTamperTrip sensors first s := rfl
theorem exec_vholdGlitchArm (s : State) : exec (.vholdGlitchArm) s = execVholdGlitchArm s := rfl
theorem exec_brownout (s : State) : exec (.brownout) s = execBrownout s := rfl
theorem exec_brownoutRecovery (s : State) : exec (.brownoutRecovery) s = execBrownoutRecovery s := rfl
theorem exec_vholdLow (mv : Fin 6500) (s : State) : exec (.vholdLow mv) s = execVholdLow mv s := rfl
theorem exec_vaultCoreStart (lost : Bool) (pufFail : Bool) (noiseOk : Bool) (bad : BitVec 5) (s : State) : exec (.vaultCoreStart lost pufFail noiseOk bad) s = execVaultCoreStart lost pufFail noiseOk bad s := rfl
theorem exec_wake (first : Fin 8) (mask : U8) (levels : U8) (s : State) : exec (.wake first mask levels) s = execWake first mask levels s := rfl
theorem exec_nonceExpiry (f : FuncId) (s : State) : exec (.nonceExpiry f) s = execNonceExpiry f s := rfl
theorem exec_restoreTimeout (s : State) : exec (.restoreTimeout) s = execRestoreTimeout s := rfl
theorem exec_powerUp (mv : Fin 40001) (iin : BitVec 16) (s : State) : exec (.powerUp mv iin) s = execPowerUp mv iin s := rfl
theorem exec_partRstPin (s : State) : exec (.partRstPin) s = execPartRstPin s := rfl
theorem exec_partrst (key : BitVec 16) (s : State) : exec (.partrst key) s = execPartrst key s := rfl
theorem exec_wardenBoot (norOk : Bool) (cfgOk : Bool) (s : State) : exec (.wardenBoot norOk cfgOk) s = execWardenBoot norOk cfgOk s := rfl
theorem exec_storeLoad (base : Fin 32) (s : State) : exec (.storeLoad base) s = execStoreLoad base s := rfl
theorem exec_tailDropEntry (mv : Fin 40001) (iin : BitVec 16) (s : State) : exec (.tailDropEntry mv iin) s = execTailDropEntry mv iin s := rfl
theorem exec_tailDropExit (mv : Fin 40001) (iin : BitVec 16) (volts : List Nat) (s : State) : exec (.tailDropExit mv iin volts) s = execTailDropExit mv iin volts s := rfl
theorem exec_vinCollapse (mv : Fin 40001) (iin : BitVec 16) (s : State) : exec (.vinCollapse mv iin) s = execVinCollapse mv iin s := rfl
theorem exec_thermalClip (tj : U8) (s : State) : exec (.thermalClip tj) s = execThermalClip tj s := rfl
theorem exec_thermalClipEnd (tj : U8) (volts : List Nat) (s : State) : exec (.thermalClipEnd tj volts) s = execThermalClipEnd tj volts s := rfl
theorem exec_thermalShutdown (tj : U8) (s : State) : exec (.thermalShutdown tj) s = execThermalShutdown tj s := rfl
theorem exec_thermThreshold (tj : U8) (s : State) : exec (.thermThreshold tj) s = execThermThreshold tj s := rfl
theorem exec_domreqWrite (hi : Bool) (value : Word) (s : State) : exec (.domreqWrite hi value) s = execDomreqWrite hi value s := rfl
theorem exec_domainSwitchComplete (index : Fin 40) (s : State) : exec (.domainSwitchComplete index) s = execDomainSwitchComplete index s := rfl
theorem exec_railTargetWrite (t : TileId) (target : Fin 1024) (mv : Fin 1024) (s : State) : exec (.railTargetWrite t target mv) s = execRailTargetWrite t target mv s := rfl
theorem exec_railSettled (t : TileId) (mv : Fin 1024) (s : State) : exec (.railSettled t mv) s = execRailSettled t mv s := rfl
theorem exec_budgetWrite (value : Fin 8192) (s : State) : exec (.budgetWrite value) s = execBudgetWrite value s := rfl
theorem exec_brumate (s : State) : exec (.brumate) s = execBrumate s := rfl
theorem exec_tdstatClr (s : State) : exec (.tdstatClr) s = execTdstatClr s := rfl
theorem exec_dramSelfRefresh (ch : Fin 16) (mode : Fin 3) (s : State) : exec (.dramSelfRefresh ch mode) s = execDramSelfRefresh ch mode s := rfl
theorem exec_goTadpole (n : Fin 8) (c : Fin 8) (test : Fin 8) (neg : Bool) (addr : BitVec 6) (balls : DWord) (s : State) : exec (.goTadpole n c test neg addr balls) s = execGoTadpole n c test neg addr balls s := rfl
theorem exec_cdn (n : Fin 8) (c : Fin 8) (k : Bool) (s : State) : exec (.cdn n c k) s = execCdn n c k s := rfl
theorem exec_hold (n : Fin 8) (c : Fin 8) (lvl : Bool) (src : Fin 4) (index : BitVec 6) (balls : DWord) (s : State) : exec (.hold n c lvl src index balls) s = execHold n c lvl src index balls s := rfl
theorem exec_shin (n : Fin 8) (c : Fin 8) (src : Fin 8) (count : BitVec 6) (balls : DWord) (s : State) : exec (.shin n c src count balls) s = execShin n c src count balls s := rfl
theorem exec_shout (n : Fin 8) (c : Fin 8) (dst : Fin 8) (count : BitVec 6) (s : State) : exec (.shout n c dst count) s = execShout n c dst count s := rfl
theorem exec_push (n : Fin 8) (c : Fin 8) (s : State) : exec (.push n c) s = execPush n c s := rfl
theorem exec_pull (n : Fin 8) (c : Fin 8) (s : State) : exec (.pull n c) s = execPull n c s := rfl
theorem exec_put (n : Fin 8) (c : Fin 8) (act : Fin 4) (level : Bool) (mask : BitVec 5) (s : State) : exec (.put n c act level mask) s = execPut n c act level mask s := rfl
theorem exec_ldk (n : Fin 8) (c : Fin 8) (k : Bool) (append : Bool) (imm : BitVec 10) (s : State) : exec (.ldk n c k append imm) s = execLdk n c k append imm s := rfl
theorem exec_xfer (n : Fin 8) (c : Fin 8) (dst : Fin 8) (op : Fin 4) (src : Fin 8) (balls : DWord) (s : State) : exec (.xfer n c dst op src balls) s = execXfer n c dst op src balls s := rfl
theorem exec_sig (n : Fin 8) (c : Fin 8) (op : Fin 4) (flag : Fin 8) (s : State) : exec (.sig n c op flag) s = execSig n c op flag s := rfl
theorem exec_endContext (n : Fin 8) (c : Fin 8) (s : State) : exec (.endContext n c) s = execEndContext n c s := rfl
theorem exec_run (n : Fin 8) (c : Fin 8) (s : State) : exec (.run n c) s = execRun n c s := rfl
theorem exec_arm (n : Fin 8) (c : Fin 8) (s : State) : exec (.arm n c) s = execArm n c s := rfl
theorem exec_stop (n : Fin 8) (c : Fin 8) (s : State) : exec (.stop n c) s = execStop n c s := rfl
theorem exec_pioFlush (n : Fin 8) (c : Fin 8) (s : State) : exec (.pioFlush n c) s = execPioFlush n c s := rfl
theorem exec_start (mask : U8) (s : State) : exec (.start mask) s = execStart mask s := rfl
theorem exec_stopclk (mask : U8) (s : State) : exec (.stopclk mask) s = execStopclk mask s := rfl
theorem exec_restart (mask : U8) (s : State) : exec (.restart mask) s = execRestart mask s := rfl
theorem exec_pioTxWrite (n : Fin 8) (c : Fin 8) (data : Word) (s : State) : exec (.pioTxWrite n c data) s = execPioTxWrite n c data s := rfl
theorem exec_pioRxRead (n : Fin 8) (c : Fin 8) (s : State) : exec (.pioRxRead n c) s = execPioRxRead n c s := rfl
theorem exec_flagset (n : Fin 8) (value : U8) (s : State) : exec (.flagset n value) s = execFlagset n value s := rfl
theorem exec_tickerEnable (k : Fin 8) (value : Word) (s : State) : exec (.tickerEnable k value) s = execTickerEnable k value s := rfl
theorem exec_tickerExpiry (k : Fin 8) (s : State) : exec (.tickerExpiry k) s = execTickerExpiry k s := rfl
theorem exec_cardPresenceLoss (c : Fin 64) (s : State) : exec (.cardPresenceLoss c) s = execCardPresenceLoss c s := rfl
theorem exec_lampVerdict (j : Fin 32) (vpin : U8) (cur : BitVec 16) (s : State) : exec (.lampVerdict j vpin cur) s = execLampVerdict j vpin cur s := rfl
theorem exec_lampProbe (j : Fin 32) (vpin : U8) (cur : BitVec 16) (s : State) : exec (.lampProbe j vpin cur) s = execLampProbe j vpin cur s := rfl
theorem exec_lampUnmeasuredTimeout (j : Fin 32) (s : State) : exec (.lampUnmeasuredTimeout j) s = execLampUnmeasuredTimeout j s := rfl
theorem exec_shortoffRelease (j : Fin 32) (s : State) : exec (.shortoffRelease j) s = execShortoffRelease j s := rfl
theorem exec_registerWrite (p : Pid) (addr : Word) (value : Word) (s : State) : exec (.registerWrite p addr value) s = execRegisterWrite p addr value s := rfl
theorem exec_illegal (p : Pid) (word : Word) (parity : Bool) (s : State) : exec (.illegal p word parity) s = execIllegal p word parity s := rfl
theorem exec_illegalTadpoleWord (n : Fin 8) (c : Fin 8) (word : BitVec 16) (s : State) : exec (.illegalTadpoleWord n c word) s = execIllegalTadpoleWord n c word s := rfl
theorem exec_rekeyMoved (e : EngId) (slot : SlotId) (err : Fin 3) (s : State) : exec (.rekeyMoved e slot err) s = execRekeyMoved e slot err s := rfl
theorem exec_refclkQualifying (b : Bool) (s : State) : exec (.refclkQualifying b) s = execRefclkQualifying b s := rfl
theorem exec_refclkStandbyLoss (oot : Bool) (s : State) : exec (.refclkStandbyLoss oot) s = execRefclkStandbyLoss oot s := rfl
theorem exec_switchbackLimitExpiry (s : State) : exec (.switchbackLimitExpiry) s = execSwitchbackLimitExpiry s := rfl
theorem exec_upstreamLinkUp (u : PortId) (rate : Fin 7) (width : Fin 17) (s : State) : exec (.upstreamLinkUp u rate width) s = execUpstreamLinkUp u rate width s := rfl
theorem exec_clkreqEdge (u : PortId) (high : Bool) (s : State) : exec (.clkreqEdge u high) s = execClkreqEdge u high s := rfl
theorem exec_ccShnChange (f : FuncId) (shn : Fin 4) (s : State) : exec (.ccShnChange f shn) s = execCcShnChange f shn s := rfl
theorem exec_replayTimerExpiry (port : Fin 32) (linkB : Bool) (s : State) : exec (.replayTimerExpiry port linkB) s = execReplayTimerExpiry port linkB s := rfl
theorem exec_mctpPacket (k : Fin 2) (pec : Bool) (dest : U8) (src : U8) (tag : Fin 16) (som : Bool) (eom : Bool) (seq : Fin 4) (data : Bytes) (s : State) : exec (.mctpPacket k pec dest src tag som eom seq data) s = execMctpPacket k pec dest src tag som eom seq data s := rfl
theorem exec_smbusBusError (k : Fin 2) (s : State) : exec (.smbusBusError k) s = execSmbusBusError k s := rfl
theorem exec_spiAccessComplete (s : State) : exec (.spiAccessComplete) s = execSpiAccessComplete s := rfl
theorem exec_vholdGlitchDisarm (s : State) : exec (.vholdGlitchDisarm) s = execVholdGlitchDisarm s := rfl
theorem exec_nohold (mv : BitVec 16) (s : State) : exec (.nohold mv) s = execNohold mv s := rfl
theorem exec_tapInstruction (kind : Fin 3) (s : State) : exec (.tapInstruction kind) s = execTapInstruction kind s := rfl

end Sys2Proof.Machine
end

