-- ==== Sys2Proof/Laws/Tbl.lean ====
section
/-!
SUPPORT. Laws of sparse tables and memories: a read after a write to the same place gives the value written, a write leaves every other place
alone, and every operation keeps the canonical form.
-/

namespace Sys2Proof.Machine

variable {α : Type}

/-! ## Reads of a table -/

@[simp] theorem Tbl.get_nil (d : α) (k : Nat) : Tbl.get d [] k = d := rfl

theorem Tbl.get_del_same (d : α) (t : Tbl α) (k : Nat) : Tbl.get d (Tbl.del t k) k = d := by
  induction t with
  | nil => rfl
  | cons p t ih =>
    obtain ⟨i, v⟩ := p
    by_cases h : i = k <;> simp [Tbl.del, h, ih, Tbl.get]

theorem Tbl.get_del_ne (d : α) (t : Tbl α) {k j : Nat} (h : k ≠ j) : Tbl.get d (Tbl.del t k) j = Tbl.get d t j := by
  induction t with
  | nil => rfl
  | cons p t ih =>
    obtain ⟨i, v⟩ := p
    by_cases hi : i = k
    · subst hi; simp [Tbl.del, Tbl.get, h, ih]
    · simp [Tbl.del, hi, Tbl.get, ih]

theorem Tbl.get_ins_same (d : α) (t : Tbl α) (k : Nat) (v : α) (h : Tbl.del t k = t) : Tbl.get d (Tbl.ins t k v) k = v := by
  induction t with
  | nil => simp [Tbl.ins, Tbl.get]
  | cons p t ih =>
    obtain ⟨i, w⟩ := p
    have hi : i ≠ k := by
      intro e; subst e
      simp only [Tbl.del, if_true] at h
      have hl : ∀ u : Tbl α, (Tbl.del u i).length ≤ u.length := by
        intro u; induction u with
        | nil => simp [Tbl.del]
        | cons q u ihu => obtain ⟨j, x⟩ := q; by_cases hj : j = i <;> simp [Tbl.del, hj] <;> omega
      have := hl t
      rw [h] at this; simp at this
    simp only [Tbl.del, if_neg hi, List.cons.injEq, true_and] at h
    by_cases hk : k < i <;> simp [Tbl.ins, hk, Tbl.get, hi, ih h]

theorem Tbl.get_ins_ne (d : α) (t : Tbl α) {k j : Nat} (v : α) (h : k ≠ j) : Tbl.get d (Tbl.ins t k v) j = Tbl.get d t j := by
  induction t with
  | nil => simp [Tbl.ins, Tbl.get, h]
  | cons p t ih =>
    obtain ⟨i, w⟩ := p
    by_cases hk : k < i <;> simp [Tbl.ins, hk, Tbl.get, h, ih]

theorem Tbl.del_del (t : Tbl α) (k : Nat) : Tbl.del (Tbl.del t k) k = Tbl.del t k := by
  induction t with
  | nil => rfl
  | cons p t ih =>
    obtain ⟨i, v⟩ := p
    by_cases h : i = k <;> simp [Tbl.del, h, ih]

/-! ## The canonical form, read inductively -/

/-- Keys of a canonical table exceed a bound, strictly rise, and no value is the default: the inductive reading of `Tbl.wf`. -/
def Tbl.above (d : α) : Nat → Tbl α → Prop
  | _, [] => True
  | b, (i, v) :: t => b ≤ i ∧ v ≠ d ∧ Tbl.above d (i + 1) t

theorem Tbl.above_mono (d : α) (t : Tbl α) {a b : Nat} (h : a ≤ b) (ht : Tbl.above d b t) : Tbl.above d a t := by
  cases t with
  | nil => trivial
  | cons p t => obtain ⟨i, v⟩ := p; exact ⟨le_trans h ht.1, ht.2⟩

theorem Tbl.above_del (d : α) (t : Tbl α) (k : Nat) : ∀ b, Tbl.above d b t → Tbl.above d b (Tbl.del t k) := by
  induction t with
  | nil => intro b _; trivial
  | cons p t ih =>
    intro b h
    obtain ⟨i, v⟩ := p
    obtain ⟨hb, hv, ht⟩ := h
    by_cases hi : i = k
    · simp only [Tbl.del, hi, if_true]
      exact Tbl.above_mono d _ (by omega) (ih _ ht)
    · simp only [Tbl.del, if_neg hi]
      exact ⟨hb, hv, ih _ ht⟩

theorem Tbl.above_ins (d : α) (t : Tbl α) (k : Nat) (v : α) (hv : v ≠ d) (hk : Tbl.del t k = t) :
    ∀ b, b ≤ k → Tbl.above d b t → Tbl.above d b (Tbl.ins t k v) := by
  induction t with
  | nil => intro b hb _; exact ⟨hb, hv, trivial⟩
  | cons p t ih =>
    intro b hb h
    obtain ⟨i, w⟩ := p
    obtain ⟨hbi, hw, ht⟩ := h
    have hi : i ≠ k := by
      intro e; subst e
      simp only [Tbl.del, if_true] at hk
      have hlen : ∀ u : Tbl α, (Tbl.del u i).length ≤ u.length := by
        intro u; induction u with
        | nil => simp [Tbl.del]
        | cons q u ihu => obtain ⟨j, x⟩ := q; by_cases hj : j = i <;> simp [Tbl.del, hj] <;> omega
      have h2 := hlen t
      rw [hk] at h2; simp at h2
    simp only [Tbl.del, if_neg hi, List.cons.injEq, true_and] at hk
    by_cases hki : k < i
    · simp only [Tbl.ins, hki, if_true]
      exact ⟨hb, hv, by omega, hw, ht⟩
    · simp only [Tbl.ins, hki, if_false]
      exact ⟨hbi, hw, ih hk _ (by omega) ht⟩

variable [DecidableEq α]

/-- Read after write of the same key. -/
@[simp] theorem Tbl.get_set_same (d : α) (t : Tbl α) (k : Nat) (v : α) : Tbl.get d (Tbl.set d t k v) k = v := by
  unfold Tbl.set
  split
  · next h => rw [Tbl.get_del_same, h]
  · exact Tbl.get_ins_same d _ k v (Tbl.del_del t k)

/-- A write leaves every other key alone. -/
theorem Tbl.get_set_ne (d : α) (t : Tbl α) {k j : Nat} (v : α) (h : k ≠ j) : Tbl.get d (Tbl.set d t k v) j = Tbl.get d t j := by
  unfold Tbl.set
  split
  · exact Tbl.get_del_ne d t h
  · rw [Tbl.get_ins_ne d _ v h, Tbl.get_del_ne d t h]

/-- A read after a write, whichever the keys. -/
theorem Tbl.get_set (d : α) (t : Tbl α) (k j : Nat) (v : α) : Tbl.get d (Tbl.set d t k v) j = if k = j then v else Tbl.get d t j := by
  by_cases h : k = j
  · subst h; simp
  · simp [h, Tbl.get_set_ne d t v h]

@[simp] theorem Tbl.get_upd_same (d : α) (t : Tbl α) (k : Nat) (f : α → α) : Tbl.get d (Tbl.upd d t k f) k = f (Tbl.get d t k) := by
  simp [Tbl.upd]

theorem Tbl.get_upd_ne (d : α) (t : Tbl α) {k j : Nat} (f : α → α) (h : k ≠ j) : Tbl.get d (Tbl.upd d t k f) j = Tbl.get d t j := by
  simp [Tbl.upd, Tbl.get_set_ne d t _ h]

/-! ## The canonical form -/

theorem Tbl.wf_iff_above (d : α) (t : Tbl α) : Tbl.wf d t = true ↔ Tbl.above d 0 t := by
  have key : ∀ (t : Tbl α) (i : Nat) (v : α), Tbl.wf d ((i, v) :: t) = true ↔ v ≠ d ∧ Tbl.above d (i + 1) t := by
    intro t
    induction t with
    | nil => intro i v; simp [Tbl.wf, Tbl.above]
    | cons q t ih =>
      intro i v
      obtain ⟨j, w⟩ := q
      simp only [Tbl.wf, Bool.and_eq_true, decide_eq_true_eq, ih, Tbl.above]
      constructor
      · rintro ⟨⟨hv, hij⟩, hw, ha⟩; exact ⟨hv, by omega, hw, ha⟩
      · rintro ⟨hv, hij, hw, ha⟩; exact ⟨⟨hv, by omega⟩, hw, ha⟩
  cases t with
  | nil => simp [Tbl.wf, Tbl.above]
  | cons p t => obtain ⟨i, v⟩ := p; rw [key]; simp [Tbl.above]

/-- A write keeps the canonical form. -/
theorem Tbl.wf_set (d : α) (t : Tbl α) (k : Nat) (v : α) (h : Tbl.wf d t = true) : Tbl.wf d (Tbl.set d t k v) = true := by
  rw [Tbl.wf_iff_above] at h ⊢
  unfold Tbl.set
  split
  · exact Tbl.above_del d t k 0 h
  · next hv => exact Tbl.above_ins d _ k v hv (Tbl.del_del t k) 0 (Nat.zero_le k) (Tbl.above_del d t k 0 h)

theorem Tbl.wf_upd (d : α) (t : Tbl α) (k : Nat) (f : α → α) (h : Tbl.wf d t = true) : Tbl.wf d (Tbl.upd d t k f) = true :=
  Tbl.wf_set d t k _ h

/-! ## Memories -/

theorem Memory.rd_wr (m : Memory) (a b : Nat) (v : Byte) : Memory.rd (Memory.wr m a v) b = if a = b then v else Memory.rd m b :=
  Tbl.get_set 0 m a b v

@[simp] theorem Memory.rd_wr_same (m : Memory) (a : Nat) (v : Byte) : Memory.rd (Memory.wr m a v) a = v := Tbl.get_set_same 0 m a v

theorem Memory.rd_wr_ne (m : Memory) {a b : Nat} (v : Byte) (h : a ≠ b) : Memory.rd (Memory.wr m a v) b = Memory.rd m b :=
  Tbl.get_set_ne 0 m v h

/-- Bytes outside those written read as before. -/
theorem Memory.rd_put_out (bs : List Byte) : ∀ (m : Memory) (a b : Nat), b < a ∨ a + bs.length ≤ b →
    Memory.rd (Memory.put m a bs) b = Memory.rd m b := by
  induction bs with
  | nil => intros; rfl
  | cons x bs ih =>
    intro m a b h
    simp only [List.length_cons] at h
    rw [Memory.put, ih _ _ _ (by omega), Memory.rd_wr_ne _ _ (by omega)]

/-- Bytes written read as written. -/
theorem Memory.rd_put_in (bs : List Byte) : ∀ (m : Memory) (a i : Nat), i < bs.length →
    Memory.rd (Memory.put m a bs) (a + i) = bs.getD i 0 := by
  induction bs with
  | nil => intro m a i h; simp at h
  | cons x bs ih =>
    intro m a i h
    cases i with
    | zero => rw [Memory.put, Memory.rd_put_out _ _ _ _ (by omega)]; simp
    | succ i =>
      simp only [List.length_cons] at h
      have := ih (Memory.wr m a x) (a + 1) i (by omega)
      rw [Memory.put, show a + (i + 1) = a + 1 + i by omega, this]; simp

theorem Memory.wf_wr (m : Memory) (a : Nat) (v : Byte) (h : Memory.wf m) : Memory.wf (Memory.wr m a v) := Tbl.wf_set 0 m a v h

/-- A write of a byte string keeps the canonical form. -/
theorem Memory.wf_put (bs : List Byte) : ∀ (m : Memory) (a : Nat), Memory.wf m → Memory.wf (Memory.put m a bs) := by
  induction bs with
  | nil => intro m a h; exact h
  | cons x bs ih => intro m a h; exact ih _ _ (Memory.wf_wr m a x h)

@[simp] theorem Memory.length_bytes (m : Memory) (a n : Nat) : (Memory.bytes m a n).length = n := by simp [Memory.bytes]

/-! ## Byte strings -/

@[simp] theorem leBytes_length (n v : Nat) : (leBytes n v).length = n := by
  induction n generalizing v with
  | zero => rfl
  | succ n ih => simp [leBytes, ih]

theorem ofLe_leBytes (n : Nat) : ∀ v, ofLe (leBytes n v) = v % 256 ^ n := by
  induction n with
  | zero => intro v; simp [leBytes, ofLe, Nat.mod_one]
  | succ n ih =>
    intro v
    simp only [leBytes, ofLe, ih]
    have e : (BitVec.ofNat 8 v).toNat = v % 256 := rfl
    rw [Nat.pow_succ', e, Nat.mod_mul (x := v) (a := 256) (b := 256 ^ n)]

end Sys2Proof.Machine
end

