-- ==== Sys2Proof/Laws/State.lean ====
section
/-!
SUPPORT. What each update of the state changes and what it leaves: one lemma per field per update, so that no proof unfolds a record update.
-/

namespace Sys2Proof.Machine

/-! ## setEng -/

@[simp] theorem State.updEng_eq (s : State) (n : Nat) (f : Engine → Engine) : s.updEng n f = s.setEng n (f (s.eng n)) := rfl
@[simp] theorem State.eng_setEng_same (s : State) (n : Nat) (x : Engine) : (s.setEng n x).eng n = x := Tbl.get_set_same _ _ _ _
theorem State.eng_setEng_ne (s : State) (n m : Nat) (x : Engine) (h : n ≠ m) : (s.setEng n x).eng m = s.eng m := Tbl.get_set_ne _ _ _ h
theorem State.eng_setEng (s : State) (n m : Nat) (x : Engine) : (s.setEng n x).eng m = if n = m then x else s.eng m := Tbl.get_set _ _ _ _ _
@[simp] theorem State.setEng_time (s : State) (n : Nat) (x : Engine) : (s.setEng n x).time = s.time := rfl
@[simp] theorem State.setEng_vtime (s : State) (n : Nat) (x : Engine) : (s.setEng n x).vtime = s.vtime := rfl
@[simp] theorem State.setEng_vacc (s : State) (n : Nat) (x : Engine) : (s.setEng n x).vacc = s.vacc := rfl
@[simp] theorem State.setEng_free (s : State) (n : Nat) (x : Engine) : (s.setEng n x).free = s.free := rfl
@[simp] theorem State.setEng_tiles (s : State) (n : Nat) (x : Engine) : (s.setEng n x).tiles = s.tiles := rfl
@[simp] theorem State.setEng_quads (s : State) (n : Nat) (x : Engine) : (s.setEng n x).quads = s.quads := rfl
@[simp] theorem State.setEng_ctls (s : State) (n : Nat) (x : Engine) : (s.setEng n x).ctls = s.ctls := rfl
@[simp] theorem State.setEng_nss (s : State) (n : Nat) (x : Engine) : (s.setEng n x).nss = s.nss := rfl
@[simp] theorem State.setEng_molts (s : State) (n : Nat) (x : Engine) : (s.setEng n x).molts = s.molts := rfl
@[simp] theorem State.setEng_drives (s : State) (n : Nat) (x : Engine) : (s.setEng n x).drives = s.drives := rfl
@[simp] theorem State.setEng_groups (s : State) (n : Nat) (x : Engine) : (s.setEng n x).groups = s.groups := rfl
@[simp] theorem State.setEng_ports (s : State) (n : Nat) (x : Engine) : (s.setEng n x).ports = s.ports := rfl
@[simp] theorem State.setEng_queues (s : State) (n : Nat) (x : Engine) : (s.setEng n x).queues = s.queues := rfl
@[simp] theorem State.setEng_pages (s : State) (n : Nat) (x : Engine) : (s.setEng n x).pages = s.pages := rfl
@[simp] theorem State.setEng_eps (s : State) (n : Nat) (x : Engine) : (s.setEng n x).eps = s.eps := rfl
@[simp] theorem State.setEng_claims (s : State) (n : Nat) (x : Engine) : (s.setEng n x).claims = s.claims := rfl
@[simp] theorem State.setEng_erases (s : State) (n : Nat) (x : Engine) : (s.setEng n x).erases = s.erases := rfl
@[simp] theorem State.setEng_warden (s : State) (n : Nat) (x : Engine) : (s.setEng n x).warden = s.warden := rfl
@[simp] theorem State.setEng_glb (s : State) (n : Nat) (x : Engine) : (s.setEng n x).glb = s.glb := rfl
@[simp] theorem State.setEng_clk (s : State) (n : Nat) (x : Engine) : (s.setEng n x).clk = s.clk := rfl
@[simp] theorem State.setEng_flt (s : State) (n : Nat) (x : Engine) : (s.setEng n x).flt = s.flt := rfl
@[simp] theorem State.setEng_vault (s : State) (n : Nat) (x : Engine) : (s.setEng n x).vault = s.vault := rfl
@[simp] theorem State.setEng_pwr (s : State) (n : Nat) (x : Engine) : (s.setEng n x).pwr = s.pwr := rfl
@[simp] theorem State.setEng_pio (s : State) (n : Nat) (x : Engine) : (s.setEng n x).pio = s.pio := rfl
@[simp] theorem State.setEng_boot (s : State) (n : Nat) (x : Engine) : (s.setEng n x).boot = s.boot := rfl
@[simp] theorem State.setEng_stackA (s : State) (n : Nat) (x : Engine) : (s.setEng n x).stackA = s.stackA := rfl
@[simp] theorem State.setEng_stackB (s : State) (n : Nat) (x : Engine) : (s.setEng n x).stackB = s.stackB := rfl
@[simp] theorem State.setEng_dieLink (s : State) (n : Nat) (x : Engine) : (s.setEng n x).dieLink = s.dieLink := rfl
@[simp] theorem State.setEng_versions (s : State) (n : Nat) (x : Engine) : (s.setEng n x).versions = s.versions := rfl
@[simp] theorem State.setEng_out (s : State) (n : Nat) (x : Engine) : (s.setEng n x).out = s.out := rfl
@[simp] theorem State.setEng_pending (s : State) (n : Nat) (x : Engine) : (s.setEng n x).pending = s.pending := rfl
@[simp] theorem State.tile_setEng (s : State) (n m : Nat) (x : Engine) : (s.setEng n x).tile m = s.tile m := rfl
@[simp] theorem State.quad_setEng (s : State) (n m : Nat) (x : Engine) : (s.setEng n x).quad m = s.quad m := rfl
@[simp] theorem State.ctl_setEng (s : State) (n m : Nat) (x : Engine) : (s.setEng n x).ctl m = s.ctl m := rfl
@[simp] theorem State.ns_setEng (s : State) (n m : Nat) (x : Engine) : (s.setEng n x).ns m = s.ns m := rfl
@[simp] theorem State.molt_setEng (s : State) (n m : Nat) (x : Engine) : (s.setEng n x).molt m = s.molt m := rfl
@[simp] theorem State.drive_setEng (s : State) (n m : Nat) (x : Engine) : (s.setEng n x).drive m = s.drive m := rfl
@[simp] theorem State.group_setEng (s : State) (n m : Nat) (x : Engine) : (s.setEng n x).group m = s.group m := rfl
@[simp] theorem State.port_setEng (s : State) (n m : Nat) (x : Engine) : (s.setEng n x).port m = s.port m := rfl
@[simp] theorem State.queue_setEng (s : State) (n m : Nat) (x : Engine) : (s.setEng n x).queue m = s.queue m := rfl
@[simp] theorem State.page_setEng (s : State) (n m : Nat) (x : Engine) : (s.setEng n x).page m = s.page m := rfl
@[simp] theorem State.ep_setEng (s : State) (n m : Nat) (x : Engine) : (s.setEng n x).ep m = s.ep m := rfl
@[simp] theorem State.domOn_setEng (s : State) (n i : Nat) (x : Engine) : (s.setEng n x).domOn i = s.domOn i := rfl
@[simp] theorem State.tileOn_setEng (s : State) (n i : Nat) (x : Engine) : (s.setEng n x).tileOn i = s.tileOn i := rfl

/-! ## setTile -/

@[simp] theorem State.updTile_eq (s : State) (n : Nat) (f : Tile → Tile) : s.updTile n f = s.setTile n (f (s.tile n)) := rfl
@[simp] theorem State.tile_setTile_same (s : State) (n : Nat) (x : Tile) : (s.setTile n x).tile n = x := Tbl.get_set_same _ _ _ _
theorem State.tile_setTile_ne (s : State) (n m : Nat) (x : Tile) (h : n ≠ m) : (s.setTile n x).tile m = s.tile m := Tbl.get_set_ne _ _ _ h
theorem State.tile_setTile (s : State) (n m : Nat) (x : Tile) : (s.setTile n x).tile m = if n = m then x else s.tile m := Tbl.get_set _ _ _ _ _
@[simp] theorem State.setTile_time (s : State) (n : Nat) (x : Tile) : (s.setTile n x).time = s.time := rfl
@[simp] theorem State.setTile_vtime (s : State) (n : Nat) (x : Tile) : (s.setTile n x).vtime = s.vtime := rfl
@[simp] theorem State.setTile_vacc (s : State) (n : Nat) (x : Tile) : (s.setTile n x).vacc = s.vacc := rfl
@[simp] theorem State.setTile_free (s : State) (n : Nat) (x : Tile) : (s.setTile n x).free = s.free := rfl
@[simp] theorem State.setTile_engines (s : State) (n : Nat) (x : Tile) : (s.setTile n x).engines = s.engines := rfl
@[simp] theorem State.setTile_quads (s : State) (n : Nat) (x : Tile) : (s.setTile n x).quads = s.quads := rfl
@[simp] theorem State.setTile_ctls (s : State) (n : Nat) (x : Tile) : (s.setTile n x).ctls = s.ctls := rfl
@[simp] theorem State.setTile_nss (s : State) (n : Nat) (x : Tile) : (s.setTile n x).nss = s.nss := rfl
@[simp] theorem State.setTile_molts (s : State) (n : Nat) (x : Tile) : (s.setTile n x).molts = s.molts := rfl
@[simp] theorem State.setTile_drives (s : State) (n : Nat) (x : Tile) : (s.setTile n x).drives = s.drives := rfl
@[simp] theorem State.setTile_groups (s : State) (n : Nat) (x : Tile) : (s.setTile n x).groups = s.groups := rfl
@[simp] theorem State.setTile_ports (s : State) (n : Nat) (x : Tile) : (s.setTile n x).ports = s.ports := rfl
@[simp] theorem State.setTile_queues (s : State) (n : Nat) (x : Tile) : (s.setTile n x).queues = s.queues := rfl
@[simp] theorem State.setTile_pages (s : State) (n : Nat) (x : Tile) : (s.setTile n x).pages = s.pages := rfl
@[simp] theorem State.setTile_eps (s : State) (n : Nat) (x : Tile) : (s.setTile n x).eps = s.eps := rfl
@[simp] theorem State.setTile_claims (s : State) (n : Nat) (x : Tile) : (s.setTile n x).claims = s.claims := rfl
@[simp] theorem State.setTile_erases (s : State) (n : Nat) (x : Tile) : (s.setTile n x).erases = s.erases := rfl
@[simp] theorem State.setTile_warden (s : State) (n : Nat) (x : Tile) : (s.setTile n x).warden = s.warden := rfl
@[simp] theorem State.setTile_glb (s : State) (n : Nat) (x : Tile) : (s.setTile n x).glb = s.glb := rfl
@[simp] theorem State.setTile_clk (s : State) (n : Nat) (x : Tile) : (s.setTile n x).clk = s.clk := rfl
@[simp] theorem State.setTile_flt (s : State) (n : Nat) (x : Tile) : (s.setTile n x).flt = s.flt := rfl
@[simp] theorem State.setTile_vault (s : State) (n : Nat) (x : Tile) : (s.setTile n x).vault = s.vault := rfl
@[simp] theorem State.setTile_pwr (s : State) (n : Nat) (x : Tile) : (s.setTile n x).pwr = s.pwr := rfl
@[simp] theorem State.setTile_pio (s : State) (n : Nat) (x : Tile) : (s.setTile n x).pio = s.pio := rfl
@[simp] theorem State.setTile_boot (s : State) (n : Nat) (x : Tile) : (s.setTile n x).boot = s.boot := rfl
@[simp] theorem State.setTile_stackA (s : State) (n : Nat) (x : Tile) : (s.setTile n x).stackA = s.stackA := rfl
@[simp] theorem State.setTile_stackB (s : State) (n : Nat) (x : Tile) : (s.setTile n x).stackB = s.stackB := rfl
@[simp] theorem State.setTile_dieLink (s : State) (n : Nat) (x : Tile) : (s.setTile n x).dieLink = s.dieLink := rfl
@[simp] theorem State.setTile_versions (s : State) (n : Nat) (x : Tile) : (s.setTile n x).versions = s.versions := rfl
@[simp] theorem State.setTile_out (s : State) (n : Nat) (x : Tile) : (s.setTile n x).out = s.out := rfl
@[simp] theorem State.setTile_pending (s : State) (n : Nat) (x : Tile) : (s.setTile n x).pending = s.pending := rfl
@[simp] theorem State.eng_setTile (s : State) (n m : Nat) (x : Tile) : (s.setTile n x).eng m = s.eng m := rfl
@[simp] theorem State.quad_setTile (s : State) (n m : Nat) (x : Tile) : (s.setTile n x).quad m = s.quad m := rfl
@[simp] theorem State.ctl_setTile (s : State) (n m : Nat) (x : Tile) : (s.setTile n x).ctl m = s.ctl m := rfl
@[simp] theorem State.ns_setTile (s : State) (n m : Nat) (x : Tile) : (s.setTile n x).ns m = s.ns m := rfl
@[simp] theorem State.molt_setTile (s : State) (n m : Nat) (x : Tile) : (s.setTile n x).molt m = s.molt m := rfl
@[simp] theorem State.drive_setTile (s : State) (n m : Nat) (x : Tile) : (s.setTile n x).drive m = s.drive m := rfl
@[simp] theorem State.group_setTile (s : State) (n m : Nat) (x : Tile) : (s.setTile n x).group m = s.group m := rfl
@[simp] theorem State.port_setTile (s : State) (n m : Nat) (x : Tile) : (s.setTile n x).port m = s.port m := rfl
@[simp] theorem State.queue_setTile (s : State) (n m : Nat) (x : Tile) : (s.setTile n x).queue m = s.queue m := rfl
@[simp] theorem State.page_setTile (s : State) (n m : Nat) (x : Tile) : (s.setTile n x).page m = s.page m := rfl
@[simp] theorem State.ep_setTile (s : State) (n m : Nat) (x : Tile) : (s.setTile n x).ep m = s.ep m := rfl
@[simp] theorem State.domOn_setTile (s : State) (n i : Nat) (x : Tile) : (s.setTile n x).domOn i = s.domOn i := rfl
@[simp] theorem State.tileOn_setTile (s : State) (n i : Nat) (x : Tile) : (s.setTile n x).tileOn i = s.tileOn i := rfl

/-! ## setQuad -/

@[simp] theorem State.updQuad_eq (s : State) (n : Nat) (f : Quad → Quad) : s.updQuad n f = s.setQuad n (f (s.quad n)) := rfl
@[simp] theorem State.quad_setQuad_same (s : State) (n : Nat) (x : Quad) : (s.setQuad n x).quad n = x := Tbl.get_set_same _ _ _ _
theorem State.quad_setQuad_ne (s : State) (n m : Nat) (x : Quad) (h : n ≠ m) : (s.setQuad n x).quad m = s.quad m := Tbl.get_set_ne _ _ _ h
theorem State.quad_setQuad (s : State) (n m : Nat) (x : Quad) : (s.setQuad n x).quad m = if n = m then x else s.quad m := Tbl.get_set _ _ _ _ _
@[simp] theorem State.setQuad_time (s : State) (n : Nat) (x : Quad) : (s.setQuad n x).time = s.time := rfl
@[simp] theorem State.setQuad_vtime (s : State) (n : Nat) (x : Quad) : (s.setQuad n x).vtime = s.vtime := rfl
@[simp] theorem State.setQuad_vacc (s : State) (n : Nat) (x : Quad) : (s.setQuad n x).vacc = s.vacc := rfl
@[simp] theorem State.setQuad_free (s : State) (n : Nat) (x : Quad) : (s.setQuad n x).free = s.free := rfl
@[simp] theorem State.setQuad_engines (s : State) (n : Nat) (x : Quad) : (s.setQuad n x).engines = s.engines := rfl
@[simp] theorem State.setQuad_tiles (s : State) (n : Nat) (x : Quad) : (s.setQuad n x).tiles = s.tiles := rfl
@[simp] theorem State.setQuad_ctls (s : State) (n : Nat) (x : Quad) : (s.setQuad n x).ctls = s.ctls := rfl
@[simp] theorem State.setQuad_nss (s : State) (n : Nat) (x : Quad) : (s.setQuad n x).nss = s.nss := rfl
@[simp] theorem State.setQuad_molts (s : State) (n : Nat) (x : Quad) : (s.setQuad n x).molts = s.molts := rfl
@[simp] theorem State.setQuad_drives (s : State) (n : Nat) (x : Quad) : (s.setQuad n x).drives = s.drives := rfl
@[simp] theorem State.setQuad_groups (s : State) (n : Nat) (x : Quad) : (s.setQuad n x).groups = s.groups := rfl
@[simp] theorem State.setQuad_ports (s : State) (n : Nat) (x : Quad) : (s.setQuad n x).ports = s.ports := rfl
@[simp] theorem State.setQuad_queues (s : State) (n : Nat) (x : Quad) : (s.setQuad n x).queues = s.queues := rfl
@[simp] theorem State.setQuad_pages (s : State) (n : Nat) (x : Quad) : (s.setQuad n x).pages = s.pages := rfl
@[simp] theorem State.setQuad_eps (s : State) (n : Nat) (x : Quad) : (s.setQuad n x).eps = s.eps := rfl
@[simp] theorem State.setQuad_claims (s : State) (n : Nat) (x : Quad) : (s.setQuad n x).claims = s.claims := rfl
@[simp] theorem State.setQuad_erases (s : State) (n : Nat) (x : Quad) : (s.setQuad n x).erases = s.erases := rfl
@[simp] theorem State.setQuad_warden (s : State) (n : Nat) (x : Quad) : (s.setQuad n x).warden = s.warden := rfl
@[simp] theorem State.setQuad_glb (s : State) (n : Nat) (x : Quad) : (s.setQuad n x).glb = s.glb := rfl
@[simp] theorem State.setQuad_clk (s : State) (n : Nat) (x : Quad) : (s.setQuad n x).clk = s.clk := rfl
@[simp] theorem State.setQuad_flt (s : State) (n : Nat) (x : Quad) : (s.setQuad n x).flt = s.flt := rfl
@[simp] theorem State.setQuad_vault (s : State) (n : Nat) (x : Quad) : (s.setQuad n x).vault = s.vault := rfl
@[simp] theorem State.setQuad_pwr (s : State) (n : Nat) (x : Quad) : (s.setQuad n x).pwr = s.pwr := rfl
@[simp] theorem State.setQuad_pio (s : State) (n : Nat) (x : Quad) : (s.setQuad n x).pio = s.pio := rfl
@[simp] theorem State.setQuad_boot (s : State) (n : Nat) (x : Quad) : (s.setQuad n x).boot = s.boot := rfl
@[simp] theorem State.setQuad_stackA (s : State) (n : Nat) (x : Quad) : (s.setQuad n x).stackA = s.stackA := rfl
@[simp] theorem State.setQuad_stackB (s : State) (n : Nat) (x : Quad) : (s.setQuad n x).stackB = s.stackB := rfl
@[simp] theorem State.setQuad_dieLink (s : State) (n : Nat) (x : Quad) : (s.setQuad n x).dieLink = s.dieLink := rfl
@[simp] theorem State.setQuad_versions (s : State) (n : Nat) (x : Quad) : (s.setQuad n x).versions = s.versions := rfl
@[simp] theorem State.setQuad_out (s : State) (n : Nat) (x : Quad) : (s.setQuad n x).out = s.out := rfl
@[simp] theorem State.setQuad_pending (s : State) (n : Nat) (x : Quad) : (s.setQuad n x).pending = s.pending := rfl
@[simp] theorem State.eng_setQuad (s : State) (n m : Nat) (x : Quad) : (s.setQuad n x).eng m = s.eng m := rfl
@[simp] theorem State.tile_setQuad (s : State) (n m : Nat) (x : Quad) : (s.setQuad n x).tile m = s.tile m := rfl
@[simp] theorem State.ctl_setQuad (s : State) (n m : Nat) (x : Quad) : (s.setQuad n x).ctl m = s.ctl m := rfl
@[simp] theorem State.ns_setQuad (s : State) (n m : Nat) (x : Quad) : (s.setQuad n x).ns m = s.ns m := rfl
@[simp] theorem State.molt_setQuad (s : State) (n m : Nat) (x : Quad) : (s.setQuad n x).molt m = s.molt m := rfl
@[simp] theorem State.drive_setQuad (s : State) (n m : Nat) (x : Quad) : (s.setQuad n x).drive m = s.drive m := rfl
@[simp] theorem State.group_setQuad (s : State) (n m : Nat) (x : Quad) : (s.setQuad n x).group m = s.group m := rfl
@[simp] theorem State.port_setQuad (s : State) (n m : Nat) (x : Quad) : (s.setQuad n x).port m = s.port m := rfl
@[simp] theorem State.queue_setQuad (s : State) (n m : Nat) (x : Quad) : (s.setQuad n x).queue m = s.queue m := rfl
@[simp] theorem State.page_setQuad (s : State) (n m : Nat) (x : Quad) : (s.setQuad n x).page m = s.page m := rfl
@[simp] theorem State.ep_setQuad (s : State) (n m : Nat) (x : Quad) : (s.setQuad n x).ep m = s.ep m := rfl
@[simp] theorem State.domOn_setQuad (s : State) (n i : Nat) (x : Quad) : (s.setQuad n x).domOn i = s.domOn i := rfl
@[simp] theorem State.tileOn_setQuad (s : State) (n i : Nat) (x : Quad) : (s.setQuad n x).tileOn i = s.tileOn i := rfl

/-! ## setCtl -/

@[simp] theorem State.updCtl_eq (s : State) (n : Nat) (f : Ctl → Ctl) : s.updCtl n f = s.setCtl n (f (s.ctl n)) := rfl
@[simp] theorem State.ctl_setCtl_same (s : State) (n : Nat) (x : Ctl) : (s.setCtl n x).ctl n = x := Tbl.get_set_same _ _ _ _
theorem State.ctl_setCtl_ne (s : State) (n m : Nat) (x : Ctl) (h : n ≠ m) : (s.setCtl n x).ctl m = s.ctl m := Tbl.get_set_ne _ _ _ h
theorem State.ctl_setCtl (s : State) (n m : Nat) (x : Ctl) : (s.setCtl n x).ctl m = if n = m then x else s.ctl m := Tbl.get_set _ _ _ _ _
@[simp] theorem State.setCtl_time (s : State) (n : Nat) (x : Ctl) : (s.setCtl n x).time = s.time := rfl
@[simp] theorem State.setCtl_vtime (s : State) (n : Nat) (x : Ctl) : (s.setCtl n x).vtime = s.vtime := rfl
@[simp] theorem State.setCtl_vacc (s : State) (n : Nat) (x : Ctl) : (s.setCtl n x).vacc = s.vacc := rfl
@[simp] theorem State.setCtl_free (s : State) (n : Nat) (x : Ctl) : (s.setCtl n x).free = s.free := rfl
@[simp] theorem State.setCtl_engines (s : State) (n : Nat) (x : Ctl) : (s.setCtl n x).engines = s.engines := rfl
@[simp] theorem State.setCtl_tiles (s : State) (n : Nat) (x : Ctl) : (s.setCtl n x).tiles = s.tiles := rfl
@[simp] theorem State.setCtl_quads (s : State) (n : Nat) (x : Ctl) : (s.setCtl n x).quads = s.quads := rfl
@[simp] theorem State.setCtl_nss (s : State) (n : Nat) (x : Ctl) : (s.setCtl n x).nss = s.nss := rfl
@[simp] theorem State.setCtl_molts (s : State) (n : Nat) (x : Ctl) : (s.setCtl n x).molts = s.molts := rfl
@[simp] theorem State.setCtl_drives (s : State) (n : Nat) (x : Ctl) : (s.setCtl n x).drives = s.drives := rfl
@[simp] theorem State.setCtl_groups (s : State) (n : Nat) (x : Ctl) : (s.setCtl n x).groups = s.groups := rfl
@[simp] theorem State.setCtl_ports (s : State) (n : Nat) (x : Ctl) : (s.setCtl n x).ports = s.ports := rfl
@[simp] theorem State.setCtl_queues (s : State) (n : Nat) (x : Ctl) : (s.setCtl n x).queues = s.queues := rfl
@[simp] theorem State.setCtl_pages (s : State) (n : Nat) (x : Ctl) : (s.setCtl n x).pages = s.pages := rfl
@[simp] theorem State.setCtl_eps (s : State) (n : Nat) (x : Ctl) : (s.setCtl n x).eps = s.eps := rfl
@[simp] theorem State.setCtl_claims (s : State) (n : Nat) (x : Ctl) : (s.setCtl n x).claims = s.claims := rfl
@[simp] theorem State.setCtl_erases (s : State) (n : Nat) (x : Ctl) : (s.setCtl n x).erases = s.erases := rfl
@[simp] theorem State.setCtl_warden (s : State) (n : Nat) (x : Ctl) : (s.setCtl n x).warden = s.warden := rfl
@[simp] theorem State.setCtl_glb (s : State) (n : Nat) (x : Ctl) : (s.setCtl n x).glb = s.glb := rfl
@[simp] theorem State.setCtl_clk (s : State) (n : Nat) (x : Ctl) : (s.setCtl n x).clk = s.clk := rfl
@[simp] theorem State.setCtl_flt (s : State) (n : Nat) (x : Ctl) : (s.setCtl n x).flt = s.flt := rfl
@[simp] theorem State.setCtl_vault (s : State) (n : Nat) (x : Ctl) : (s.setCtl n x).vault = s.vault := rfl
@[simp] theorem State.setCtl_pwr (s : State) (n : Nat) (x : Ctl) : (s.setCtl n x).pwr = s.pwr := rfl
@[simp] theorem State.setCtl_pio (s : State) (n : Nat) (x : Ctl) : (s.setCtl n x).pio = s.pio := rfl
@[simp] theorem State.setCtl_boot (s : State) (n : Nat) (x : Ctl) : (s.setCtl n x).boot = s.boot := rfl
@[simp] theorem State.setCtl_stackA (s : State) (n : Nat) (x : Ctl) : (s.setCtl n x).stackA = s.stackA := rfl
@[simp] theorem State.setCtl_stackB (s : State) (n : Nat) (x : Ctl) : (s.setCtl n x).stackB = s.stackB := rfl
@[simp] theorem State.setCtl_dieLink (s : State) (n : Nat) (x : Ctl) : (s.setCtl n x).dieLink = s.dieLink := rfl
@[simp] theorem State.setCtl_versions (s : State) (n : Nat) (x : Ctl) : (s.setCtl n x).versions = s.versions := rfl
@[simp] theorem State.setCtl_out (s : State) (n : Nat) (x : Ctl) : (s.setCtl n x).out = s.out := rfl
@[simp] theorem State.setCtl_pending (s : State) (n : Nat) (x : Ctl) : (s.setCtl n x).pending = s.pending := rfl
@[simp] theorem State.eng_setCtl (s : State) (n m : Nat) (x : Ctl) : (s.setCtl n x).eng m = s.eng m := rfl
@[simp] theorem State.tile_setCtl (s : State) (n m : Nat) (x : Ctl) : (s.setCtl n x).tile m = s.tile m := rfl
@[simp] theorem State.quad_setCtl (s : State) (n m : Nat) (x : Ctl) : (s.setCtl n x).quad m = s.quad m := rfl
@[simp] theorem State.ns_setCtl (s : State) (n m : Nat) (x : Ctl) : (s.setCtl n x).ns m = s.ns m := rfl
@[simp] theorem State.molt_setCtl (s : State) (n m : Nat) (x : Ctl) : (s.setCtl n x).molt m = s.molt m := rfl
@[simp] theorem State.drive_setCtl (s : State) (n m : Nat) (x : Ctl) : (s.setCtl n x).drive m = s.drive m := rfl
@[simp] theorem State.group_setCtl (s : State) (n m : Nat) (x : Ctl) : (s.setCtl n x).group m = s.group m := rfl
@[simp] theorem State.port_setCtl (s : State) (n m : Nat) (x : Ctl) : (s.setCtl n x).port m = s.port m := rfl
@[simp] theorem State.queue_setCtl (s : State) (n m : Nat) (x : Ctl) : (s.setCtl n x).queue m = s.queue m := rfl
@[simp] theorem State.page_setCtl (s : State) (n m : Nat) (x : Ctl) : (s.setCtl n x).page m = s.page m := rfl
@[simp] theorem State.ep_setCtl (s : State) (n m : Nat) (x : Ctl) : (s.setCtl n x).ep m = s.ep m := rfl
@[simp] theorem State.domOn_setCtl (s : State) (n i : Nat) (x : Ctl) : (s.setCtl n x).domOn i = s.domOn i := rfl
@[simp] theorem State.tileOn_setCtl (s : State) (n i : Nat) (x : Ctl) : (s.setCtl n x).tileOn i = s.tileOn i := rfl

/-! ## setNs -/

@[simp] theorem State.updNs_eq (s : State) (n : Nat) (f : Ns → Ns) : s.updNs n f = s.setNs n (f (s.ns n)) := rfl
@[simp] theorem State.ns_setNs_same (s : State) (n : Nat) (x : Ns) : (s.setNs n x).ns n = x := Tbl.get_set_same _ _ _ _
theorem State.ns_setNs_ne (s : State) (n m : Nat) (x : Ns) (h : n ≠ m) : (s.setNs n x).ns m = s.ns m := Tbl.get_set_ne _ _ _ h
theorem State.ns_setNs (s : State) (n m : Nat) (x : Ns) : (s.setNs n x).ns m = if n = m then x else s.ns m := Tbl.get_set _ _ _ _ _
@[simp] theorem State.setNs_time (s : State) (n : Nat) (x : Ns) : (s.setNs n x).time = s.time := rfl
@[simp] theorem State.setNs_vtime (s : State) (n : Nat) (x : Ns) : (s.setNs n x).vtime = s.vtime := rfl
@[simp] theorem State.setNs_vacc (s : State) (n : Nat) (x : Ns) : (s.setNs n x).vacc = s.vacc := rfl
@[simp] theorem State.setNs_free (s : State) (n : Nat) (x : Ns) : (s.setNs n x).free = s.free := rfl
@[simp] theorem State.setNs_engines (s : State) (n : Nat) (x : Ns) : (s.setNs n x).engines = s.engines := rfl
@[simp] theorem State.setNs_tiles (s : State) (n : Nat) (x : Ns) : (s.setNs n x).tiles = s.tiles := rfl
@[simp] theorem State.setNs_quads (s : State) (n : Nat) (x : Ns) : (s.setNs n x).quads = s.quads := rfl
@[simp] theorem State.setNs_ctls (s : State) (n : Nat) (x : Ns) : (s.setNs n x).ctls = s.ctls := rfl
@[simp] theorem State.setNs_molts (s : State) (n : Nat) (x : Ns) : (s.setNs n x).molts = s.molts := rfl
@[simp] theorem State.setNs_drives (s : State) (n : Nat) (x : Ns) : (s.setNs n x).drives = s.drives := rfl
@[simp] theorem State.setNs_groups (s : State) (n : Nat) (x : Ns) : (s.setNs n x).groups = s.groups := rfl
@[simp] theorem State.setNs_ports (s : State) (n : Nat) (x : Ns) : (s.setNs n x).ports = s.ports := rfl
@[simp] theorem State.setNs_queues (s : State) (n : Nat) (x : Ns) : (s.setNs n x).queues = s.queues := rfl
@[simp] theorem State.setNs_pages (s : State) (n : Nat) (x : Ns) : (s.setNs n x).pages = s.pages := rfl
@[simp] theorem State.setNs_eps (s : State) (n : Nat) (x : Ns) : (s.setNs n x).eps = s.eps := rfl
@[simp] theorem State.setNs_claims (s : State) (n : Nat) (x : Ns) : (s.setNs n x).claims = s.claims := rfl
@[simp] theorem State.setNs_erases (s : State) (n : Nat) (x : Ns) : (s.setNs n x).erases = s.erases := rfl
@[simp] theorem State.setNs_warden (s : State) (n : Nat) (x : Ns) : (s.setNs n x).warden = s.warden := rfl
@[simp] theorem State.setNs_glb (s : State) (n : Nat) (x : Ns) : (s.setNs n x).glb = s.glb := rfl
@[simp] theorem State.setNs_clk (s : State) (n : Nat) (x : Ns) : (s.setNs n x).clk = s.clk := rfl
@[simp] theorem State.setNs_flt (s : State) (n : Nat) (x : Ns) : (s.setNs n x).flt = s.flt := rfl
@[simp] theorem State.setNs_vault (s : State) (n : Nat) (x : Ns) : (s.setNs n x).vault = s.vault := rfl
@[simp] theorem State.setNs_pwr (s : State) (n : Nat) (x : Ns) : (s.setNs n x).pwr = s.pwr := rfl
@[simp] theorem State.setNs_pio (s : State) (n : Nat) (x : Ns) : (s.setNs n x).pio = s.pio := rfl
@[simp] theorem State.setNs_boot (s : State) (n : Nat) (x : Ns) : (s.setNs n x).boot = s.boot := rfl
@[simp] theorem State.setNs_stackA (s : State) (n : Nat) (x : Ns) : (s.setNs n x).stackA = s.stackA := rfl
@[simp] theorem State.setNs_stackB (s : State) (n : Nat) (x : Ns) : (s.setNs n x).stackB = s.stackB := rfl
@[simp] theorem State.setNs_dieLink (s : State) (n : Nat) (x : Ns) : (s.setNs n x).dieLink = s.dieLink := rfl
@[simp] theorem State.setNs_versions (s : State) (n : Nat) (x : Ns) : (s.setNs n x).versions = s.versions := rfl
@[simp] theorem State.setNs_out (s : State) (n : Nat) (x : Ns) : (s.setNs n x).out = s.out := rfl
@[simp] theorem State.setNs_pending (s : State) (n : Nat) (x : Ns) : (s.setNs n x).pending = s.pending := rfl
@[simp] theorem State.eng_setNs (s : State) (n m : Nat) (x : Ns) : (s.setNs n x).eng m = s.eng m := rfl
@[simp] theorem State.tile_setNs (s : State) (n m : Nat) (x : Ns) : (s.setNs n x).tile m = s.tile m := rfl
@[simp] theorem State.quad_setNs (s : State) (n m : Nat) (x : Ns) : (s.setNs n x).quad m = s.quad m := rfl
@[simp] theorem State.ctl_setNs (s : State) (n m : Nat) (x : Ns) : (s.setNs n x).ctl m = s.ctl m := rfl
@[simp] theorem State.molt_setNs (s : State) (n m : Nat) (x : Ns) : (s.setNs n x).molt m = s.molt m := rfl
@[simp] theorem State.drive_setNs (s : State) (n m : Nat) (x : Ns) : (s.setNs n x).drive m = s.drive m := rfl
@[simp] theorem State.group_setNs (s : State) (n m : Nat) (x : Ns) : (s.setNs n x).group m = s.group m := rfl
@[simp] theorem State.port_setNs (s : State) (n m : Nat) (x : Ns) : (s.setNs n x).port m = s.port m := rfl
@[simp] theorem State.queue_setNs (s : State) (n m : Nat) (x : Ns) : (s.setNs n x).queue m = s.queue m := rfl
@[simp] theorem State.page_setNs (s : State) (n m : Nat) (x : Ns) : (s.setNs n x).page m = s.page m := rfl
@[simp] theorem State.ep_setNs (s : State) (n m : Nat) (x : Ns) : (s.setNs n x).ep m = s.ep m := rfl
@[simp] theorem State.domOn_setNs (s : State) (n i : Nat) (x : Ns) : (s.setNs n x).domOn i = s.domOn i := rfl
@[simp] theorem State.tileOn_setNs (s : State) (n i : Nat) (x : Ns) : (s.setNs n x).tileOn i = s.tileOn i := rfl

/-! ## setMolt -/

@[simp] theorem State.updMolt_eq (s : State) (n : Nat) (f : Molt → Molt) : s.updMolt n f = s.setMolt n (f (s.molt n)) := rfl
@[simp] theorem State.molt_setMolt_same (s : State) (n : Nat) (x : Molt) : (s.setMolt n x).molt n = x := Tbl.get_set_same _ _ _ _
theorem State.molt_setMolt_ne (s : State) (n m : Nat) (x : Molt) (h : n ≠ m) : (s.setMolt n x).molt m = s.molt m := Tbl.get_set_ne _ _ _ h
theorem State.molt_setMolt (s : State) (n m : Nat) (x : Molt) : (s.setMolt n x).molt m = if n = m then x else s.molt m := Tbl.get_set _ _ _ _ _
@[simp] theorem State.setMolt_time (s : State) (n : Nat) (x : Molt) : (s.setMolt n x).time = s.time := rfl
@[simp] theorem State.setMolt_vtime (s : State) (n : Nat) (x : Molt) : (s.setMolt n x).vtime = s.vtime := rfl
@[simp] theorem State.setMolt_vacc (s : State) (n : Nat) (x : Molt) : (s.setMolt n x).vacc = s.vacc := rfl
@[simp] theorem State.setMolt_free (s : State) (n : Nat) (x : Molt) : (s.setMolt n x).free = s.free := rfl
@[simp] theorem State.setMolt_engines (s : State) (n : Nat) (x : Molt) : (s.setMolt n x).engines = s.engines := rfl
@[simp] theorem State.setMolt_tiles (s : State) (n : Nat) (x : Molt) : (s.setMolt n x).tiles = s.tiles := rfl
@[simp] theorem State.setMolt_quads (s : State) (n : Nat) (x : Molt) : (s.setMolt n x).quads = s.quads := rfl
@[simp] theorem State.setMolt_ctls (s : State) (n : Nat) (x : Molt) : (s.setMolt n x).ctls = s.ctls := rfl
@[simp] theorem State.setMolt_nss (s : State) (n : Nat) (x : Molt) : (s.setMolt n x).nss = s.nss := rfl
@[simp] theorem State.setMolt_drives (s : State) (n : Nat) (x : Molt) : (s.setMolt n x).drives = s.drives := rfl
@[simp] theorem State.setMolt_groups (s : State) (n : Nat) (x : Molt) : (s.setMolt n x).groups = s.groups := rfl
@[simp] theorem State.setMolt_ports (s : State) (n : Nat) (x : Molt) : (s.setMolt n x).ports = s.ports := rfl
@[simp] theorem State.setMolt_queues (s : State) (n : Nat) (x : Molt) : (s.setMolt n x).queues = s.queues := rfl
@[simp] theorem State.setMolt_pages (s : State) (n : Nat) (x : Molt) : (s.setMolt n x).pages = s.pages := rfl
@[simp] theorem State.setMolt_eps (s : State) (n : Nat) (x : Molt) : (s.setMolt n x).eps = s.eps := rfl
@[simp] theorem State.setMolt_claims (s : State) (n : Nat) (x : Molt) : (s.setMolt n x).claims = s.claims := rfl
@[simp] theorem State.setMolt_erases (s : State) (n : Nat) (x : Molt) : (s.setMolt n x).erases = s.erases := rfl
@[simp] theorem State.setMolt_warden (s : State) (n : Nat) (x : Molt) : (s.setMolt n x).warden = s.warden := rfl
@[simp] theorem State.setMolt_glb (s : State) (n : Nat) (x : Molt) : (s.setMolt n x).glb = s.glb := rfl
@[simp] theorem State.setMolt_clk (s : State) (n : Nat) (x : Molt) : (s.setMolt n x).clk = s.clk := rfl
@[simp] theorem State.setMolt_flt (s : State) (n : Nat) (x : Molt) : (s.setMolt n x).flt = s.flt := rfl
@[simp] theorem State.setMolt_vault (s : State) (n : Nat) (x : Molt) : (s.setMolt n x).vault = s.vault := rfl
@[simp] theorem State.setMolt_pwr (s : State) (n : Nat) (x : Molt) : (s.setMolt n x).pwr = s.pwr := rfl
@[simp] theorem State.setMolt_pio (s : State) (n : Nat) (x : Molt) : (s.setMolt n x).pio = s.pio := rfl
@[simp] theorem State.setMolt_boot (s : State) (n : Nat) (x : Molt) : (s.setMolt n x).boot = s.boot := rfl
@[simp] theorem State.setMolt_stackA (s : State) (n : Nat) (x : Molt) : (s.setMolt n x).stackA = s.stackA := rfl
@[simp] theorem State.setMolt_stackB (s : State) (n : Nat) (x : Molt) : (s.setMolt n x).stackB = s.stackB := rfl
@[simp] theorem State.setMolt_dieLink (s : State) (n : Nat) (x : Molt) : (s.setMolt n x).dieLink = s.dieLink := rfl
@[simp] theorem State.setMolt_versions (s : State) (n : Nat) (x : Molt) : (s.setMolt n x).versions = s.versions := rfl
@[simp] theorem State.setMolt_out (s : State) (n : Nat) (x : Molt) : (s.setMolt n x).out = s.out := rfl
@[simp] theorem State.setMolt_pending (s : State) (n : Nat) (x : Molt) : (s.setMolt n x).pending = s.pending := rfl
@[simp] theorem State.eng_setMolt (s : State) (n m : Nat) (x : Molt) : (s.setMolt n x).eng m = s.eng m := rfl
@[simp] theorem State.tile_setMolt (s : State) (n m : Nat) (x : Molt) : (s.setMolt n x).tile m = s.tile m := rfl
@[simp] theorem State.quad_setMolt (s : State) (n m : Nat) (x : Molt) : (s.setMolt n x).quad m = s.quad m := rfl
@[simp] theorem State.ctl_setMolt (s : State) (n m : Nat) (x : Molt) : (s.setMolt n x).ctl m = s.ctl m := rfl
@[simp] theorem State.ns_setMolt (s : State) (n m : Nat) (x : Molt) : (s.setMolt n x).ns m = s.ns m := rfl
@[simp] theorem State.drive_setMolt (s : State) (n m : Nat) (x : Molt) : (s.setMolt n x).drive m = s.drive m := rfl
@[simp] theorem State.group_setMolt (s : State) (n m : Nat) (x : Molt) : (s.setMolt n x).group m = s.group m := rfl
@[simp] theorem State.port_setMolt (s : State) (n m : Nat) (x : Molt) : (s.setMolt n x).port m = s.port m := rfl
@[simp] theorem State.queue_setMolt (s : State) (n m : Nat) (x : Molt) : (s.setMolt n x).queue m = s.queue m := rfl
@[simp] theorem State.page_setMolt (s : State) (n m : Nat) (x : Molt) : (s.setMolt n x).page m = s.page m := rfl
@[simp] theorem State.ep_setMolt (s : State) (n m : Nat) (x : Molt) : (s.setMolt n x).ep m = s.ep m := rfl
@[simp] theorem State.domOn_setMolt (s : State) (n i : Nat) (x : Molt) : (s.setMolt n x).domOn i = s.domOn i := rfl
@[simp] theorem State.tileOn_setMolt (s : State) (n i : Nat) (x : Molt) : (s.setMolt n x).tileOn i = s.tileOn i := rfl

/-! ## setDrive -/

@[simp] theorem State.updDrive_eq (s : State) (n : Nat) (f : Drive → Drive) : s.updDrive n f = s.setDrive n (f (s.drive n)) := rfl
@[simp] theorem State.drive_setDrive_same (s : State) (n : Nat) (x : Drive) : (s.setDrive n x).drive n = x := Tbl.get_set_same _ _ _ _
theorem State.drive_setDrive_ne (s : State) (n m : Nat) (x : Drive) (h : n ≠ m) : (s.setDrive n x).drive m = s.drive m := Tbl.get_set_ne _ _ _ h
theorem State.drive_setDrive (s : State) (n m : Nat) (x : Drive) : (s.setDrive n x).drive m = if n = m then x else s.drive m := Tbl.get_set _ _ _ _ _
@[simp] theorem State.setDrive_time (s : State) (n : Nat) (x : Drive) : (s.setDrive n x).time = s.time := rfl
@[simp] theorem State.setDrive_vtime (s : State) (n : Nat) (x : Drive) : (s.setDrive n x).vtime = s.vtime := rfl
@[simp] theorem State.setDrive_vacc (s : State) (n : Nat) (x : Drive) : (s.setDrive n x).vacc = s.vacc := rfl
@[simp] theorem State.setDrive_free (s : State) (n : Nat) (x : Drive) : (s.setDrive n x).free = s.free := rfl
@[simp] theorem State.setDrive_engines (s : State) (n : Nat) (x : Drive) : (s.setDrive n x).engines = s.engines := rfl
@[simp] theorem State.setDrive_tiles (s : State) (n : Nat) (x : Drive) : (s.setDrive n x).tiles = s.tiles := rfl
@[simp] theorem State.setDrive_quads (s : State) (n : Nat) (x : Drive) : (s.setDrive n x).quads = s.quads := rfl
@[simp] theorem State.setDrive_ctls (s : State) (n : Nat) (x : Drive) : (s.setDrive n x).ctls = s.ctls := rfl
@[simp] theorem State.setDrive_nss (s : State) (n : Nat) (x : Drive) : (s.setDrive n x).nss = s.nss := rfl
@[simp] theorem State.setDrive_molts (s : State) (n : Nat) (x : Drive) : (s.setDrive n x).molts = s.molts := rfl
@[simp] theorem State.setDrive_groups (s : State) (n : Nat) (x : Drive) : (s.setDrive n x).groups = s.groups := rfl
@[simp] theorem State.setDrive_ports (s : State) (n : Nat) (x : Drive) : (s.setDrive n x).ports = s.ports := rfl
@[simp] theorem State.setDrive_queues (s : State) (n : Nat) (x : Drive) : (s.setDrive n x).queues = s.queues := rfl
@[simp] theorem State.setDrive_pages (s : State) (n : Nat) (x : Drive) : (s.setDrive n x).pages = s.pages := rfl
@[simp] theorem State.setDrive_eps (s : State) (n : Nat) (x : Drive) : (s.setDrive n x).eps = s.eps := rfl
@[simp] theorem State.setDrive_claims (s : State) (n : Nat) (x : Drive) : (s.setDrive n x).claims = s.claims := rfl
@[simp] theorem State.setDrive_erases (s : State) (n : Nat) (x : Drive) : (s.setDrive n x).erases = s.erases := rfl
@[simp] theorem State.setDrive_warden (s : State) (n : Nat) (x : Drive) : (s.setDrive n x).warden = s.warden := rfl
@[simp] theorem State.setDrive_glb (s : State) (n : Nat) (x : Drive) : (s.setDrive n x).glb = s.glb := rfl
@[simp] theorem State.setDrive_clk (s : State) (n : Nat) (x : Drive) : (s.setDrive n x).clk = s.clk := rfl
@[simp] theorem State.setDrive_flt (s : State) (n : Nat) (x : Drive) : (s.setDrive n x).flt = s.flt := rfl
@[simp] theorem State.setDrive_vault (s : State) (n : Nat) (x : Drive) : (s.setDrive n x).vault = s.vault := rfl
@[simp] theorem State.setDrive_pwr (s : State) (n : Nat) (x : Drive) : (s.setDrive n x).pwr = s.pwr := rfl
@[simp] theorem State.setDrive_pio (s : State) (n : Nat) (x : Drive) : (s.setDrive n x).pio = s.pio := rfl
@[simp] theorem State.setDrive_boot (s : State) (n : Nat) (x : Drive) : (s.setDrive n x).boot = s.boot := rfl
@[simp] theorem State.setDrive_stackA (s : State) (n : Nat) (x : Drive) : (s.setDrive n x).stackA = s.stackA := rfl
@[simp] theorem State.setDrive_stackB (s : State) (n : Nat) (x : Drive) : (s.setDrive n x).stackB = s.stackB := rfl
@[simp] theorem State.setDrive_dieLink (s : State) (n : Nat) (x : Drive) : (s.setDrive n x).dieLink = s.dieLink := rfl
@[simp] theorem State.setDrive_versions (s : State) (n : Nat) (x : Drive) : (s.setDrive n x).versions = s.versions := rfl
@[simp] theorem State.setDrive_out (s : State) (n : Nat) (x : Drive) : (s.setDrive n x).out = s.out := rfl
@[simp] theorem State.setDrive_pending (s : State) (n : Nat) (x : Drive) : (s.setDrive n x).pending = s.pending := rfl
@[simp] theorem State.eng_setDrive (s : State) (n m : Nat) (x : Drive) : (s.setDrive n x).eng m = s.eng m := rfl
@[simp] theorem State.tile_setDrive (s : State) (n m : Nat) (x : Drive) : (s.setDrive n x).tile m = s.tile m := rfl
@[simp] theorem State.quad_setDrive (s : State) (n m : Nat) (x : Drive) : (s.setDrive n x).quad m = s.quad m := rfl
@[simp] theorem State.ctl_setDrive (s : State) (n m : Nat) (x : Drive) : (s.setDrive n x).ctl m = s.ctl m := rfl
@[simp] theorem State.ns_setDrive (s : State) (n m : Nat) (x : Drive) : (s.setDrive n x).ns m = s.ns m := rfl
@[simp] theorem State.molt_setDrive (s : State) (n m : Nat) (x : Drive) : (s.setDrive n x).molt m = s.molt m := rfl
@[simp] theorem State.group_setDrive (s : State) (n m : Nat) (x : Drive) : (s.setDrive n x).group m = s.group m := rfl
@[simp] theorem State.port_setDrive (s : State) (n m : Nat) (x : Drive) : (s.setDrive n x).port m = s.port m := rfl
@[simp] theorem State.queue_setDrive (s : State) (n m : Nat) (x : Drive) : (s.setDrive n x).queue m = s.queue m := rfl
@[simp] theorem State.page_setDrive (s : State) (n m : Nat) (x : Drive) : (s.setDrive n x).page m = s.page m := rfl
@[simp] theorem State.ep_setDrive (s : State) (n m : Nat) (x : Drive) : (s.setDrive n x).ep m = s.ep m := rfl
@[simp] theorem State.domOn_setDrive (s : State) (n i : Nat) (x : Drive) : (s.setDrive n x).domOn i = s.domOn i := rfl
@[simp] theorem State.tileOn_setDrive (s : State) (n i : Nat) (x : Drive) : (s.setDrive n x).tileOn i = s.tileOn i := rfl

/-! ## setGroup -/

@[simp] theorem State.updGroup_eq (s : State) (n : Nat) (f : Group → Group) : s.updGroup n f = s.setGroup n (f (s.group n)) := rfl
@[simp] theorem State.group_setGroup_same (s : State) (n : Nat) (x : Group) : (s.setGroup n x).group n = x := Tbl.get_set_same _ _ _ _
theorem State.group_setGroup_ne (s : State) (n m : Nat) (x : Group) (h : n ≠ m) : (s.setGroup n x).group m = s.group m := Tbl.get_set_ne _ _ _ h
theorem State.group_setGroup (s : State) (n m : Nat) (x : Group) : (s.setGroup n x).group m = if n = m then x else s.group m := Tbl.get_set _ _ _ _ _
@[simp] theorem State.setGroup_time (s : State) (n : Nat) (x : Group) : (s.setGroup n x).time = s.time := rfl
@[simp] theorem State.setGroup_vtime (s : State) (n : Nat) (x : Group) : (s.setGroup n x).vtime = s.vtime := rfl
@[simp] theorem State.setGroup_vacc (s : State) (n : Nat) (x : Group) : (s.setGroup n x).vacc = s.vacc := rfl
@[simp] theorem State.setGroup_free (s : State) (n : Nat) (x : Group) : (s.setGroup n x).free = s.free := rfl
@[simp] theorem State.setGroup_engines (s : State) (n : Nat) (x : Group) : (s.setGroup n x).engines = s.engines := rfl
@[simp] theorem State.setGroup_tiles (s : State) (n : Nat) (x : Group) : (s.setGroup n x).tiles = s.tiles := rfl
@[simp] theorem State.setGroup_quads (s : State) (n : Nat) (x : Group) : (s.setGroup n x).quads = s.quads := rfl
@[simp] theorem State.setGroup_ctls (s : State) (n : Nat) (x : Group) : (s.setGroup n x).ctls = s.ctls := rfl
@[simp] theorem State.setGroup_nss (s : State) (n : Nat) (x : Group) : (s.setGroup n x).nss = s.nss := rfl
@[simp] theorem State.setGroup_molts (s : State) (n : Nat) (x : Group) : (s.setGroup n x).molts = s.molts := rfl
@[simp] theorem State.setGroup_drives (s : State) (n : Nat) (x : Group) : (s.setGroup n x).drives = s.drives := rfl
@[simp] theorem State.setGroup_ports (s : State) (n : Nat) (x : Group) : (s.setGroup n x).ports = s.ports := rfl
@[simp] theorem State.setGroup_queues (s : State) (n : Nat) (x : Group) : (s.setGroup n x).queues = s.queues := rfl
@[simp] theorem State.setGroup_pages (s : State) (n : Nat) (x : Group) : (s.setGroup n x).pages = s.pages := rfl
@[simp] theorem State.setGroup_eps (s : State) (n : Nat) (x : Group) : (s.setGroup n x).eps = s.eps := rfl
@[simp] theorem State.setGroup_claims (s : State) (n : Nat) (x : Group) : (s.setGroup n x).claims = s.claims := rfl
@[simp] theorem State.setGroup_erases (s : State) (n : Nat) (x : Group) : (s.setGroup n x).erases = s.erases := rfl
@[simp] theorem State.setGroup_warden (s : State) (n : Nat) (x : Group) : (s.setGroup n x).warden = s.warden := rfl
@[simp] theorem State.setGroup_glb (s : State) (n : Nat) (x : Group) : (s.setGroup n x).glb = s.glb := rfl
@[simp] theorem State.setGroup_clk (s : State) (n : Nat) (x : Group) : (s.setGroup n x).clk = s.clk := rfl
@[simp] theorem State.setGroup_flt (s : State) (n : Nat) (x : Group) : (s.setGroup n x).flt = s.flt := rfl
@[simp] theorem State.setGroup_vault (s : State) (n : Nat) (x : Group) : (s.setGroup n x).vault = s.vault := rfl
@[simp] theorem State.setGroup_pwr (s : State) (n : Nat) (x : Group) : (s.setGroup n x).pwr = s.pwr := rfl
@[simp] theorem State.setGroup_pio (s : State) (n : Nat) (x : Group) : (s.setGroup n x).pio = s.pio := rfl
@[simp] theorem State.setGroup_boot (s : State) (n : Nat) (x : Group) : (s.setGroup n x).boot = s.boot := rfl
@[simp] theorem State.setGroup_stackA (s : State) (n : Nat) (x : Group) : (s.setGroup n x).stackA = s.stackA := rfl
@[simp] theorem State.setGroup_stackB (s : State) (n : Nat) (x : Group) : (s.setGroup n x).stackB = s.stackB := rfl
@[simp] theorem State.setGroup_dieLink (s : State) (n : Nat) (x : Group) : (s.setGroup n x).dieLink = s.dieLink := rfl
@[simp] theorem State.setGroup_versions (s : State) (n : Nat) (x : Group) : (s.setGroup n x).versions = s.versions := rfl
@[simp] theorem State.setGroup_out (s : State) (n : Nat) (x : Group) : (s.setGroup n x).out = s.out := rfl
@[simp] theorem State.setGroup_pending (s : State) (n : Nat) (x : Group) : (s.setGroup n x).pending = s.pending := rfl
@[simp] theorem State.eng_setGroup (s : State) (n m : Nat) (x : Group) : (s.setGroup n x).eng m = s.eng m := rfl
@[simp] theorem State.tile_setGroup (s : State) (n m : Nat) (x : Group) : (s.setGroup n x).tile m = s.tile m := rfl
@[simp] theorem State.quad_setGroup (s : State) (n m : Nat) (x : Group) : (s.setGroup n x).quad m = s.quad m := rfl
@[simp] theorem State.ctl_setGroup (s : State) (n m : Nat) (x : Group) : (s.setGroup n x).ctl m = s.ctl m := rfl
@[simp] theorem State.ns_setGroup (s : State) (n m : Nat) (x : Group) : (s.setGroup n x).ns m = s.ns m := rfl
@[simp] theorem State.molt_setGroup (s : State) (n m : Nat) (x : Group) : (s.setGroup n x).molt m = s.molt m := rfl
@[simp] theorem State.drive_setGroup (s : State) (n m : Nat) (x : Group) : (s.setGroup n x).drive m = s.drive m := rfl
@[simp] theorem State.port_setGroup (s : State) (n m : Nat) (x : Group) : (s.setGroup n x).port m = s.port m := rfl
@[simp] theorem State.queue_setGroup (s : State) (n m : Nat) (x : Group) : (s.setGroup n x).queue m = s.queue m := rfl
@[simp] theorem State.page_setGroup (s : State) (n m : Nat) (x : Group) : (s.setGroup n x).page m = s.page m := rfl
@[simp] theorem State.ep_setGroup (s : State) (n m : Nat) (x : Group) : (s.setGroup n x).ep m = s.ep m := rfl
@[simp] theorem State.domOn_setGroup (s : State) (n i : Nat) (x : Group) : (s.setGroup n x).domOn i = s.domOn i := rfl
@[simp] theorem State.tileOn_setGroup (s : State) (n i : Nat) (x : Group) : (s.setGroup n x).tileOn i = s.tileOn i := rfl

/-! ## setPort -/

@[simp] theorem State.updPort_eq (s : State) (n : Nat) (f : UpPort → UpPort) : s.updPort n f = s.setPort n (f (s.port n)) := rfl
@[simp] theorem State.port_setPort_same (s : State) (n : Nat) (x : UpPort) : (s.setPort n x).port n = x := Tbl.get_set_same _ _ _ _
theorem State.port_setPort_ne (s : State) (n m : Nat) (x : UpPort) (h : n ≠ m) : (s.setPort n x).port m = s.port m := Tbl.get_set_ne _ _ _ h
theorem State.port_setPort (s : State) (n m : Nat) (x : UpPort) : (s.setPort n x).port m = if n = m then x else s.port m := Tbl.get_set _ _ _ _ _
@[simp] theorem State.setPort_time (s : State) (n : Nat) (x : UpPort) : (s.setPort n x).time = s.time := rfl
@[simp] theorem State.setPort_vtime (s : State) (n : Nat) (x : UpPort) : (s.setPort n x).vtime = s.vtime := rfl
@[simp] theorem State.setPort_vacc (s : State) (n : Nat) (x : UpPort) : (s.setPort n x).vacc = s.vacc := rfl
@[simp] theorem State.setPort_free (s : State) (n : Nat) (x : UpPort) : (s.setPort n x).free = s.free := rfl
@[simp] theorem State.setPort_engines (s : State) (n : Nat) (x : UpPort) : (s.setPort n x).engines = s.engines := rfl
@[simp] theorem State.setPort_tiles (s : State) (n : Nat) (x : UpPort) : (s.setPort n x).tiles = s.tiles := rfl
@[simp] theorem State.setPort_quads (s : State) (n : Nat) (x : UpPort) : (s.setPort n x).quads = s.quads := rfl
@[simp] theorem State.setPort_ctls (s : State) (n : Nat) (x : UpPort) : (s.setPort n x).ctls = s.ctls := rfl
@[simp] theorem State.setPort_nss (s : State) (n : Nat) (x : UpPort) : (s.setPort n x).nss = s.nss := rfl
@[simp] theorem State.setPort_molts (s : State) (n : Nat) (x : UpPort) : (s.setPort n x).molts = s.molts := rfl
@[simp] theorem State.setPort_drives (s : State) (n : Nat) (x : UpPort) : (s.setPort n x).drives = s.drives := rfl
@[simp] theorem State.setPort_groups (s : State) (n : Nat) (x : UpPort) : (s.setPort n x).groups = s.groups := rfl
@[simp] theorem State.setPort_queues (s : State) (n : Nat) (x : UpPort) : (s.setPort n x).queues = s.queues := rfl
@[simp] theorem State.setPort_pages (s : State) (n : Nat) (x : UpPort) : (s.setPort n x).pages = s.pages := rfl
@[simp] theorem State.setPort_eps (s : State) (n : Nat) (x : UpPort) : (s.setPort n x).eps = s.eps := rfl
@[simp] theorem State.setPort_claims (s : State) (n : Nat) (x : UpPort) : (s.setPort n x).claims = s.claims := rfl
@[simp] theorem State.setPort_erases (s : State) (n : Nat) (x : UpPort) : (s.setPort n x).erases = s.erases := rfl
@[simp] theorem State.setPort_warden (s : State) (n : Nat) (x : UpPort) : (s.setPort n x).warden = s.warden := rfl
@[simp] theorem State.setPort_glb (s : State) (n : Nat) (x : UpPort) : (s.setPort n x).glb = s.glb := rfl
@[simp] theorem State.setPort_clk (s : State) (n : Nat) (x : UpPort) : (s.setPort n x).clk = s.clk := rfl
@[simp] theorem State.setPort_flt (s : State) (n : Nat) (x : UpPort) : (s.setPort n x).flt = s.flt := rfl
@[simp] theorem State.setPort_vault (s : State) (n : Nat) (x : UpPort) : (s.setPort n x).vault = s.vault := rfl
@[simp] theorem State.setPort_pwr (s : State) (n : Nat) (x : UpPort) : (s.setPort n x).pwr = s.pwr := rfl
@[simp] theorem State.setPort_pio (s : State) (n : Nat) (x : UpPort) : (s.setPort n x).pio = s.pio := rfl
@[simp] theorem State.setPort_boot (s : State) (n : Nat) (x : UpPort) : (s.setPort n x).boot = s.boot := rfl
@[simp] theorem State.setPort_stackA (s : State) (n : Nat) (x : UpPort) : (s.setPort n x).stackA = s.stackA := rfl
@[simp] theorem State.setPort_stackB (s : State) (n : Nat) (x : UpPort) : (s.setPort n x).stackB = s.stackB := rfl
@[simp] theorem State.setPort_dieLink (s : State) (n : Nat) (x : UpPort) : (s.setPort n x).dieLink = s.dieLink := rfl
@[simp] theorem State.setPort_versions (s : State) (n : Nat) (x : UpPort) : (s.setPort n x).versions = s.versions := rfl
@[simp] theorem State.setPort_out (s : State) (n : Nat) (x : UpPort) : (s.setPort n x).out = s.out := rfl
@[simp] theorem State.setPort_pending (s : State) (n : Nat) (x : UpPort) : (s.setPort n x).pending = s.pending := rfl
@[simp] theorem State.eng_setPort (s : State) (n m : Nat) (x : UpPort) : (s.setPort n x).eng m = s.eng m := rfl
@[simp] theorem State.tile_setPort (s : State) (n m : Nat) (x : UpPort) : (s.setPort n x).tile m = s.tile m := rfl
@[simp] theorem State.quad_setPort (s : State) (n m : Nat) (x : UpPort) : (s.setPort n x).quad m = s.quad m := rfl
@[simp] theorem State.ctl_setPort (s : State) (n m : Nat) (x : UpPort) : (s.setPort n x).ctl m = s.ctl m := rfl
@[simp] theorem State.ns_setPort (s : State) (n m : Nat) (x : UpPort) : (s.setPort n x).ns m = s.ns m := rfl
@[simp] theorem State.molt_setPort (s : State) (n m : Nat) (x : UpPort) : (s.setPort n x).molt m = s.molt m := rfl
@[simp] theorem State.drive_setPort (s : State) (n m : Nat) (x : UpPort) : (s.setPort n x).drive m = s.drive m := rfl
@[simp] theorem State.group_setPort (s : State) (n m : Nat) (x : UpPort) : (s.setPort n x).group m = s.group m := rfl
@[simp] theorem State.queue_setPort (s : State) (n m : Nat) (x : UpPort) : (s.setPort n x).queue m = s.queue m := rfl
@[simp] theorem State.page_setPort (s : State) (n m : Nat) (x : UpPort) : (s.setPort n x).page m = s.page m := rfl
@[simp] theorem State.ep_setPort (s : State) (n m : Nat) (x : UpPort) : (s.setPort n x).ep m = s.ep m := rfl
@[simp] theorem State.domOn_setPort (s : State) (n i : Nat) (x : UpPort) : (s.setPort n x).domOn i = s.domOn i := rfl
@[simp] theorem State.tileOn_setPort (s : State) (n i : Nat) (x : UpPort) : (s.setPort n x).tileOn i = s.tileOn i := rfl

/-! ## setQueue -/

@[simp] theorem State.updQueue_eq (s : State) (n : Nat) (f : Queue → Queue) : s.updQueue n f = s.setQueue n (f (s.queue n)) := rfl
@[simp] theorem State.queue_setQueue_same (s : State) (n : Nat) (x : Queue) : (s.setQueue n x).queue n = x := Tbl.get_set_same _ _ _ _
theorem State.queue_setQueue_ne (s : State) (n m : Nat) (x : Queue) (h : n ≠ m) : (s.setQueue n x).queue m = s.queue m := Tbl.get_set_ne _ _ _ h
theorem State.queue_setQueue (s : State) (n m : Nat) (x : Queue) : (s.setQueue n x).queue m = if n = m then x else s.queue m := Tbl.get_set _ _ _ _ _
@[simp] theorem State.setQueue_time (s : State) (n : Nat) (x : Queue) : (s.setQueue n x).time = s.time := rfl
@[simp] theorem State.setQueue_vtime (s : State) (n : Nat) (x : Queue) : (s.setQueue n x).vtime = s.vtime := rfl
@[simp] theorem State.setQueue_vacc (s : State) (n : Nat) (x : Queue) : (s.setQueue n x).vacc = s.vacc := rfl
@[simp] theorem State.setQueue_free (s : State) (n : Nat) (x : Queue) : (s.setQueue n x).free = s.free := rfl
@[simp] theorem State.setQueue_engines (s : State) (n : Nat) (x : Queue) : (s.setQueue n x).engines = s.engines := rfl
@[simp] theorem State.setQueue_tiles (s : State) (n : Nat) (x : Queue) : (s.setQueue n x).tiles = s.tiles := rfl
@[simp] theorem State.setQueue_quads (s : State) (n : Nat) (x : Queue) : (s.setQueue n x).quads = s.quads := rfl
@[simp] theorem State.setQueue_ctls (s : State) (n : Nat) (x : Queue) : (s.setQueue n x).ctls = s.ctls := rfl
@[simp] theorem State.setQueue_nss (s : State) (n : Nat) (x : Queue) : (s.setQueue n x).nss = s.nss := rfl
@[simp] theorem State.setQueue_molts (s : State) (n : Nat) (x : Queue) : (s.setQueue n x).molts = s.molts := rfl
@[simp] theorem State.setQueue_drives (s : State) (n : Nat) (x : Queue) : (s.setQueue n x).drives = s.drives := rfl
@[simp] theorem State.setQueue_groups (s : State) (n : Nat) (x : Queue) : (s.setQueue n x).groups = s.groups := rfl
@[simp] theorem State.setQueue_ports (s : State) (n : Nat) (x : Queue) : (s.setQueue n x).ports = s.ports := rfl
@[simp] theorem State.setQueue_pages (s : State) (n : Nat) (x : Queue) : (s.setQueue n x).pages = s.pages := rfl
@[simp] theorem State.setQueue_eps (s : State) (n : Nat) (x : Queue) : (s.setQueue n x).eps = s.eps := rfl
@[simp] theorem State.setQueue_claims (s : State) (n : Nat) (x : Queue) : (s.setQueue n x).claims = s.claims := rfl
@[simp] theorem State.setQueue_erases (s : State) (n : Nat) (x : Queue) : (s.setQueue n x).erases = s.erases := rfl
@[simp] theorem State.setQueue_warden (s : State) (n : Nat) (x : Queue) : (s.setQueue n x).warden = s.warden := rfl
@[simp] theorem State.setQueue_glb (s : State) (n : Nat) (x : Queue) : (s.setQueue n x).glb = s.glb := rfl
@[simp] theorem State.setQueue_clk (s : State) (n : Nat) (x : Queue) : (s.setQueue n x).clk = s.clk := rfl
@[simp] theorem State.setQueue_flt (s : State) (n : Nat) (x : Queue) : (s.setQueue n x).flt = s.flt := rfl
@[simp] theorem State.setQueue_vault (s : State) (n : Nat) (x : Queue) : (s.setQueue n x).vault = s.vault := rfl
@[simp] theorem State.setQueue_pwr (s : State) (n : Nat) (x : Queue) : (s.setQueue n x).pwr = s.pwr := rfl
@[simp] theorem State.setQueue_pio (s : State) (n : Nat) (x : Queue) : (s.setQueue n x).pio = s.pio := rfl
@[simp] theorem State.setQueue_boot (s : State) (n : Nat) (x : Queue) : (s.setQueue n x).boot = s.boot := rfl
@[simp] theorem State.setQueue_stackA (s : State) (n : Nat) (x : Queue) : (s.setQueue n x).stackA = s.stackA := rfl
@[simp] theorem State.setQueue_stackB (s : State) (n : Nat) (x : Queue) : (s.setQueue n x).stackB = s.stackB := rfl
@[simp] theorem State.setQueue_dieLink (s : State) (n : Nat) (x : Queue) : (s.setQueue n x).dieLink = s.dieLink := rfl
@[simp] theorem State.setQueue_versions (s : State) (n : Nat) (x : Queue) : (s.setQueue n x).versions = s.versions := rfl
@[simp] theorem State.setQueue_out (s : State) (n : Nat) (x : Queue) : (s.setQueue n x).out = s.out := rfl
@[simp] theorem State.setQueue_pending (s : State) (n : Nat) (x : Queue) : (s.setQueue n x).pending = s.pending := rfl
@[simp] theorem State.eng_setQueue (s : State) (n m : Nat) (x : Queue) : (s.setQueue n x).eng m = s.eng m := rfl
@[simp] theorem State.tile_setQueue (s : State) (n m : Nat) (x : Queue) : (s.setQueue n x).tile m = s.tile m := rfl
@[simp] theorem State.quad_setQueue (s : State) (n m : Nat) (x : Queue) : (s.setQueue n x).quad m = s.quad m := rfl
@[simp] theorem State.ctl_setQueue (s : State) (n m : Nat) (x : Queue) : (s.setQueue n x).ctl m = s.ctl m := rfl
@[simp] theorem State.ns_setQueue (s : State) (n m : Nat) (x : Queue) : (s.setQueue n x).ns m = s.ns m := rfl
@[simp] theorem State.molt_setQueue (s : State) (n m : Nat) (x : Queue) : (s.setQueue n x).molt m = s.molt m := rfl
@[simp] theorem State.drive_setQueue (s : State) (n m : Nat) (x : Queue) : (s.setQueue n x).drive m = s.drive m := rfl
@[simp] theorem State.group_setQueue (s : State) (n m : Nat) (x : Queue) : (s.setQueue n x).group m = s.group m := rfl
@[simp] theorem State.port_setQueue (s : State) (n m : Nat) (x : Queue) : (s.setQueue n x).port m = s.port m := rfl
@[simp] theorem State.page_setQueue (s : State) (n m : Nat) (x : Queue) : (s.setQueue n x).page m = s.page m := rfl
@[simp] theorem State.ep_setQueue (s : State) (n m : Nat) (x : Queue) : (s.setQueue n x).ep m = s.ep m := rfl
@[simp] theorem State.domOn_setQueue (s : State) (n i : Nat) (x : Queue) : (s.setQueue n x).domOn i = s.domOn i := rfl
@[simp] theorem State.tileOn_setQueue (s : State) (n i : Nat) (x : Queue) : (s.setQueue n x).tileOn i = s.tileOn i := rfl

/-! ## setPage -/

@[simp] theorem State.updPage_eq (s : State) (n : Nat) (f : Page → Page) : s.updPage n f = s.setPage n (f (s.page n)) := rfl
@[simp] theorem State.page_setPage_same (s : State) (n : Nat) (x : Page) : (s.setPage n x).page n = x := Tbl.get_set_same _ _ _ _
theorem State.page_setPage_ne (s : State) (n m : Nat) (x : Page) (h : n ≠ m) : (s.setPage n x).page m = s.page m := Tbl.get_set_ne _ _ _ h
theorem State.page_setPage (s : State) (n m : Nat) (x : Page) : (s.setPage n x).page m = if n = m then x else s.page m := Tbl.get_set _ _ _ _ _
@[simp] theorem State.setPage_time (s : State) (n : Nat) (x : Page) : (s.setPage n x).time = s.time := rfl
@[simp] theorem State.setPage_vtime (s : State) (n : Nat) (x : Page) : (s.setPage n x).vtime = s.vtime := rfl
@[simp] theorem State.setPage_vacc (s : State) (n : Nat) (x : Page) : (s.setPage n x).vacc = s.vacc := rfl
@[simp] theorem State.setPage_free (s : State) (n : Nat) (x : Page) : (s.setPage n x).free = s.free := rfl
@[simp] theorem State.setPage_engines (s : State) (n : Nat) (x : Page) : (s.setPage n x).engines = s.engines := rfl
@[simp] theorem State.setPage_tiles (s : State) (n : Nat) (x : Page) : (s.setPage n x).tiles = s.tiles := rfl
@[simp] theorem State.setPage_quads (s : State) (n : Nat) (x : Page) : (s.setPage n x).quads = s.quads := rfl
@[simp] theorem State.setPage_ctls (s : State) (n : Nat) (x : Page) : (s.setPage n x).ctls = s.ctls := rfl
@[simp] theorem State.setPage_nss (s : State) (n : Nat) (x : Page) : (s.setPage n x).nss = s.nss := rfl
@[simp] theorem State.setPage_molts (s : State) (n : Nat) (x : Page) : (s.setPage n x).molts = s.molts := rfl
@[simp] theorem State.setPage_drives (s : State) (n : Nat) (x : Page) : (s.setPage n x).drives = s.drives := rfl
@[simp] theorem State.setPage_groups (s : State) (n : Nat) (x : Page) : (s.setPage n x).groups = s.groups := rfl
@[simp] theorem State.setPage_ports (s : State) (n : Nat) (x : Page) : (s.setPage n x).ports = s.ports := rfl
@[simp] theorem State.setPage_queues (s : State) (n : Nat) (x : Page) : (s.setPage n x).queues = s.queues := rfl
@[simp] theorem State.setPage_eps (s : State) (n : Nat) (x : Page) : (s.setPage n x).eps = s.eps := rfl
@[simp] theorem State.setPage_claims (s : State) (n : Nat) (x : Page) : (s.setPage n x).claims = s.claims := rfl
@[simp] theorem State.setPage_erases (s : State) (n : Nat) (x : Page) : (s.setPage n x).erases = s.erases := rfl
@[simp] theorem State.setPage_warden (s : State) (n : Nat) (x : Page) : (s.setPage n x).warden = s.warden := rfl
@[simp] theorem State.setPage_glb (s : State) (n : Nat) (x : Page) : (s.setPage n x).glb = s.glb := rfl
@[simp] theorem State.setPage_clk (s : State) (n : Nat) (x : Page) : (s.setPage n x).clk = s.clk := rfl
@[simp] theorem State.setPage_flt (s : State) (n : Nat) (x : Page) : (s.setPage n x).flt = s.flt := rfl
@[simp] theorem State.setPage_vault (s : State) (n : Nat) (x : Page) : (s.setPage n x).vault = s.vault := rfl
@[simp] theorem State.setPage_pwr (s : State) (n : Nat) (x : Page) : (s.setPage n x).pwr = s.pwr := rfl
@[simp] theorem State.setPage_pio (s : State) (n : Nat) (x : Page) : (s.setPage n x).pio = s.pio := rfl
@[simp] theorem State.setPage_boot (s : State) (n : Nat) (x : Page) : (s.setPage n x).boot = s.boot := rfl
@[simp] theorem State.setPage_stackA (s : State) (n : Nat) (x : Page) : (s.setPage n x).stackA = s.stackA := rfl
@[simp] theorem State.setPage_stackB (s : State) (n : Nat) (x : Page) : (s.setPage n x).stackB = s.stackB := rfl
@[simp] theorem State.setPage_dieLink (s : State) (n : Nat) (x : Page) : (s.setPage n x).dieLink = s.dieLink := rfl
@[simp] theorem State.setPage_versions (s : State) (n : Nat) (x : Page) : (s.setPage n x).versions = s.versions := rfl
@[simp] theorem State.setPage_out (s : State) (n : Nat) (x : Page) : (s.setPage n x).out = s.out := rfl
@[simp] theorem State.setPage_pending (s : State) (n : Nat) (x : Page) : (s.setPage n x).pending = s.pending := rfl
@[simp] theorem State.eng_setPage (s : State) (n m : Nat) (x : Page) : (s.setPage n x).eng m = s.eng m := rfl
@[simp] theorem State.tile_setPage (s : State) (n m : Nat) (x : Page) : (s.setPage n x).tile m = s.tile m := rfl
@[simp] theorem State.quad_setPage (s : State) (n m : Nat) (x : Page) : (s.setPage n x).quad m = s.quad m := rfl
@[simp] theorem State.ctl_setPage (s : State) (n m : Nat) (x : Page) : (s.setPage n x).ctl m = s.ctl m := rfl
@[simp] theorem State.ns_setPage (s : State) (n m : Nat) (x : Page) : (s.setPage n x).ns m = s.ns m := rfl
@[simp] theorem State.molt_setPage (s : State) (n m : Nat) (x : Page) : (s.setPage n x).molt m = s.molt m := rfl
@[simp] theorem State.drive_setPage (s : State) (n m : Nat) (x : Page) : (s.setPage n x).drive m = s.drive m := rfl
@[simp] theorem State.group_setPage (s : State) (n m : Nat) (x : Page) : (s.setPage n x).group m = s.group m := rfl
@[simp] theorem State.port_setPage (s : State) (n m : Nat) (x : Page) : (s.setPage n x).port m = s.port m := rfl
@[simp] theorem State.queue_setPage (s : State) (n m : Nat) (x : Page) : (s.setPage n x).queue m = s.queue m := rfl
@[simp] theorem State.ep_setPage (s : State) (n m : Nat) (x : Page) : (s.setPage n x).ep m = s.ep m := rfl
@[simp] theorem State.domOn_setPage (s : State) (n i : Nat) (x : Page) : (s.setPage n x).domOn i = s.domOn i := rfl
@[simp] theorem State.tileOn_setPage (s : State) (n i : Nat) (x : Page) : (s.setPage n x).tileOn i = s.tileOn i := rfl

/-! ## setEp -/

@[simp] theorem State.updEp_eq (s : State) (n : Nat) (f : Endpoint → Endpoint) : s.updEp n f = s.setEp n (f (s.ep n)) := rfl
@[simp] theorem State.ep_setEp_same (s : State) (n : Nat) (x : Endpoint) : (s.setEp n x).ep n = x := Tbl.get_set_same _ _ _ _
theorem State.ep_setEp_ne (s : State) (n m : Nat) (x : Endpoint) (h : n ≠ m) : (s.setEp n x).ep m = s.ep m := Tbl.get_set_ne _ _ _ h
theorem State.ep_setEp (s : State) (n m : Nat) (x : Endpoint) : (s.setEp n x).ep m = if n = m then x else s.ep m := Tbl.get_set _ _ _ _ _
@[simp] theorem State.setEp_time (s : State) (n : Nat) (x : Endpoint) : (s.setEp n x).time = s.time := rfl
@[simp] theorem State.setEp_vtime (s : State) (n : Nat) (x : Endpoint) : (s.setEp n x).vtime = s.vtime := rfl
@[simp] theorem State.setEp_vacc (s : State) (n : Nat) (x : Endpoint) : (s.setEp n x).vacc = s.vacc := rfl
@[simp] theorem State.setEp_free (s : State) (n : Nat) (x : Endpoint) : (s.setEp n x).free = s.free := rfl
@[simp] theorem State.setEp_engines (s : State) (n : Nat) (x : Endpoint) : (s.setEp n x).engines = s.engines := rfl
@[simp] theorem State.setEp_tiles (s : State) (n : Nat) (x : Endpoint) : (s.setEp n x).tiles = s.tiles := rfl
@[simp] theorem State.setEp_quads (s : State) (n : Nat) (x : Endpoint) : (s.setEp n x).quads = s.quads := rfl
@[simp] theorem State.setEp_ctls (s : State) (n : Nat) (x : Endpoint) : (s.setEp n x).ctls = s.ctls := rfl
@[simp] theorem State.setEp_nss (s : State) (n : Nat) (x : Endpoint) : (s.setEp n x).nss = s.nss := rfl
@[simp] theorem State.setEp_molts (s : State) (n : Nat) (x : Endpoint) : (s.setEp n x).molts = s.molts := rfl
@[simp] theorem State.setEp_drives (s : State) (n : Nat) (x : Endpoint) : (s.setEp n x).drives = s.drives := rfl
@[simp] theorem State.setEp_groups (s : State) (n : Nat) (x : Endpoint) : (s.setEp n x).groups = s.groups := rfl
@[simp] theorem State.setEp_ports (s : State) (n : Nat) (x : Endpoint) : (s.setEp n x).ports = s.ports := rfl
@[simp] theorem State.setEp_queues (s : State) (n : Nat) (x : Endpoint) : (s.setEp n x).queues = s.queues := rfl
@[simp] theorem State.setEp_pages (s : State) (n : Nat) (x : Endpoint) : (s.setEp n x).pages = s.pages := rfl
@[simp] theorem State.setEp_claims (s : State) (n : Nat) (x : Endpoint) : (s.setEp n x).claims = s.claims := rfl
@[simp] theorem State.setEp_erases (s : State) (n : Nat) (x : Endpoint) : (s.setEp n x).erases = s.erases := rfl
@[simp] theorem State.setEp_warden (s : State) (n : Nat) (x : Endpoint) : (s.setEp n x).warden = s.warden := rfl
@[simp] theorem State.setEp_glb (s : State) (n : Nat) (x : Endpoint) : (s.setEp n x).glb = s.glb := rfl
@[simp] theorem State.setEp_clk (s : State) (n : Nat) (x : Endpoint) : (s.setEp n x).clk = s.clk := rfl
@[simp] theorem State.setEp_flt (s : State) (n : Nat) (x : Endpoint) : (s.setEp n x).flt = s.flt := rfl
@[simp] theorem State.setEp_vault (s : State) (n : Nat) (x : Endpoint) : (s.setEp n x).vault = s.vault := rfl
@[simp] theorem State.setEp_pwr (s : State) (n : Nat) (x : Endpoint) : (s.setEp n x).pwr = s.pwr := rfl
@[simp] theorem State.setEp_pio (s : State) (n : Nat) (x : Endpoint) : (s.setEp n x).pio = s.pio := rfl
@[simp] theorem State.setEp_boot (s : State) (n : Nat) (x : Endpoint) : (s.setEp n x).boot = s.boot := rfl
@[simp] theorem State.setEp_stackA (s : State) (n : Nat) (x : Endpoint) : (s.setEp n x).stackA = s.stackA := rfl
@[simp] theorem State.setEp_stackB (s : State) (n : Nat) (x : Endpoint) : (s.setEp n x).stackB = s.stackB := rfl
@[simp] theorem State.setEp_dieLink (s : State) (n : Nat) (x : Endpoint) : (s.setEp n x).dieLink = s.dieLink := rfl
@[simp] theorem State.setEp_versions (s : State) (n : Nat) (x : Endpoint) : (s.setEp n x).versions = s.versions := rfl
@[simp] theorem State.setEp_out (s : State) (n : Nat) (x : Endpoint) : (s.setEp n x).out = s.out := rfl
@[simp] theorem State.setEp_pending (s : State) (n : Nat) (x : Endpoint) : (s.setEp n x).pending = s.pending := rfl
@[simp] theorem State.eng_setEp (s : State) (n m : Nat) (x : Endpoint) : (s.setEp n x).eng m = s.eng m := rfl
@[simp] theorem State.tile_setEp (s : State) (n m : Nat) (x : Endpoint) : (s.setEp n x).tile m = s.tile m := rfl
@[simp] theorem State.quad_setEp (s : State) (n m : Nat) (x : Endpoint) : (s.setEp n x).quad m = s.quad m := rfl
@[simp] theorem State.ctl_setEp (s : State) (n m : Nat) (x : Endpoint) : (s.setEp n x).ctl m = s.ctl m := rfl
@[simp] theorem State.ns_setEp (s : State) (n m : Nat) (x : Endpoint) : (s.setEp n x).ns m = s.ns m := rfl
@[simp] theorem State.molt_setEp (s : State) (n m : Nat) (x : Endpoint) : (s.setEp n x).molt m = s.molt m := rfl
@[simp] theorem State.drive_setEp (s : State) (n m : Nat) (x : Endpoint) : (s.setEp n x).drive m = s.drive m := rfl
@[simp] theorem State.group_setEp (s : State) (n m : Nat) (x : Endpoint) : (s.setEp n x).group m = s.group m := rfl
@[simp] theorem State.port_setEp (s : State) (n m : Nat) (x : Endpoint) : (s.setEp n x).port m = s.port m := rfl
@[simp] theorem State.queue_setEp (s : State) (n m : Nat) (x : Endpoint) : (s.setEp n x).queue m = s.queue m := rfl
@[simp] theorem State.page_setEp (s : State) (n m : Nat) (x : Endpoint) : (s.setEp n x).page m = s.page m := rfl
@[simp] theorem State.domOn_setEp (s : State) (n i : Nat) (x : Endpoint) : (s.setEp n x).domOn i = s.domOn i := rfl
@[simp] theorem State.tileOn_setEp (s : State) (n i : Nat) (x : Endpoint) : (s.setEp n x).tileOn i = s.tileOn i := rfl

/-! ## updWarden -/

@[simp] theorem State.updWarden_self (s : State) (f : Warden → Warden) : (s.updWarden f).warden = f s.warden := rfl
@[simp] theorem State.updWarden_time (s : State) (f : Warden → Warden) : (s.updWarden f).time = s.time := rfl
@[simp] theorem State.updWarden_vtime (s : State) (f : Warden → Warden) : (s.updWarden f).vtime = s.vtime := rfl
@[simp] theorem State.updWarden_vacc (s : State) (f : Warden → Warden) : (s.updWarden f).vacc = s.vacc := rfl
@[simp] theorem State.updWarden_free (s : State) (f : Warden → Warden) : (s.updWarden f).free = s.free := rfl
@[simp] theorem State.updWarden_engines (s : State) (f : Warden → Warden) : (s.updWarden f).engines = s.engines := rfl
@[simp] theorem State.updWarden_tiles (s : State) (f : Warden → Warden) : (s.updWarden f).tiles = s.tiles := rfl
@[simp] theorem State.updWarden_quads (s : State) (f : Warden → Warden) : (s.updWarden f).quads = s.quads := rfl
@[simp] theorem State.updWarden_ctls (s : State) (f : Warden → Warden) : (s.updWarden f).ctls = s.ctls := rfl
@[simp] theorem State.updWarden_nss (s : State) (f : Warden → Warden) : (s.updWarden f).nss = s.nss := rfl
@[simp] theorem State.updWarden_molts (s : State) (f : Warden → Warden) : (s.updWarden f).molts = s.molts := rfl
@[simp] theorem State.updWarden_drives (s : State) (f : Warden → Warden) : (s.updWarden f).drives = s.drives := rfl
@[simp] theorem State.updWarden_groups (s : State) (f : Warden → Warden) : (s.updWarden f).groups = s.groups := rfl
@[simp] theorem State.updWarden_ports (s : State) (f : Warden → Warden) : (s.updWarden f).ports = s.ports := rfl
@[simp] theorem State.updWarden_queues (s : State) (f : Warden → Warden) : (s.updWarden f).queues = s.queues := rfl
@[simp] theorem State.updWarden_pages (s : State) (f : Warden → Warden) : (s.updWarden f).pages = s.pages := rfl
@[simp] theorem State.updWarden_eps (s : State) (f : Warden → Warden) : (s.updWarden f).eps = s.eps := rfl
@[simp] theorem State.updWarden_claims (s : State) (f : Warden → Warden) : (s.updWarden f).claims = s.claims := rfl
@[simp] theorem State.updWarden_erases (s : State) (f : Warden → Warden) : (s.updWarden f).erases = s.erases := rfl
@[simp] theorem State.updWarden_glb (s : State) (f : Warden → Warden) : (s.updWarden f).glb = s.glb := rfl
@[simp] theorem State.updWarden_clk (s : State) (f : Warden → Warden) : (s.updWarden f).clk = s.clk := rfl
@[simp] theorem State.updWarden_flt (s : State) (f : Warden → Warden) : (s.updWarden f).flt = s.flt := rfl
@[simp] theorem State.updWarden_vault (s : State) (f : Warden → Warden) : (s.updWarden f).vault = s.vault := rfl
@[simp] theorem State.updWarden_pwr (s : State) (f : Warden → Warden) : (s.updWarden f).pwr = s.pwr := rfl
@[simp] theorem State.updWarden_pio (s : State) (f : Warden → Warden) : (s.updWarden f).pio = s.pio := rfl
@[simp] theorem State.updWarden_boot (s : State) (f : Warden → Warden) : (s.updWarden f).boot = s.boot := rfl
@[simp] theorem State.updWarden_stackA (s : State) (f : Warden → Warden) : (s.updWarden f).stackA = s.stackA := rfl
@[simp] theorem State.updWarden_stackB (s : State) (f : Warden → Warden) : (s.updWarden f).stackB = s.stackB := rfl
@[simp] theorem State.updWarden_dieLink (s : State) (f : Warden → Warden) : (s.updWarden f).dieLink = s.dieLink := rfl
@[simp] theorem State.updWarden_versions (s : State) (f : Warden → Warden) : (s.updWarden f).versions = s.versions := rfl
@[simp] theorem State.updWarden_out (s : State) (f : Warden → Warden) : (s.updWarden f).out = s.out := rfl
@[simp] theorem State.updWarden_pending (s : State) (f : Warden → Warden) : (s.updWarden f).pending = s.pending := rfl
@[simp] theorem State.eng_updWarden (s : State) (m : Nat) (f : Warden → Warden) : (s.updWarden f).eng m = s.eng m := rfl
@[simp] theorem State.tile_updWarden (s : State) (m : Nat) (f : Warden → Warden) : (s.updWarden f).tile m = s.tile m := rfl
@[simp] theorem State.quad_updWarden (s : State) (m : Nat) (f : Warden → Warden) : (s.updWarden f).quad m = s.quad m := rfl
@[simp] theorem State.ctl_updWarden (s : State) (m : Nat) (f : Warden → Warden) : (s.updWarden f).ctl m = s.ctl m := rfl
@[simp] theorem State.ns_updWarden (s : State) (m : Nat) (f : Warden → Warden) : (s.updWarden f).ns m = s.ns m := rfl
@[simp] theorem State.molt_updWarden (s : State) (m : Nat) (f : Warden → Warden) : (s.updWarden f).molt m = s.molt m := rfl
@[simp] theorem State.drive_updWarden (s : State) (m : Nat) (f : Warden → Warden) : (s.updWarden f).drive m = s.drive m := rfl
@[simp] theorem State.group_updWarden (s : State) (m : Nat) (f : Warden → Warden) : (s.updWarden f).group m = s.group m := rfl
@[simp] theorem State.port_updWarden (s : State) (m : Nat) (f : Warden → Warden) : (s.updWarden f).port m = s.port m := rfl
@[simp] theorem State.queue_updWarden (s : State) (m : Nat) (f : Warden → Warden) : (s.updWarden f).queue m = s.queue m := rfl
@[simp] theorem State.page_updWarden (s : State) (m : Nat) (f : Warden → Warden) : (s.updWarden f).page m = s.page m := rfl
@[simp] theorem State.ep_updWarden (s : State) (m : Nat) (f : Warden → Warden) : (s.updWarden f).ep m = s.ep m := rfl

/-! ## updVault -/

@[simp] theorem State.updVault_self (s : State) (f : Vault → Vault) : (s.updVault f).vault = f s.vault := rfl
@[simp] theorem State.updVault_time (s : State) (f : Vault → Vault) : (s.updVault f).time = s.time := rfl
@[simp] theorem State.updVault_vtime (s : State) (f : Vault → Vault) : (s.updVault f).vtime = s.vtime := rfl
@[simp] theorem State.updVault_vacc (s : State) (f : Vault → Vault) : (s.updVault f).vacc = s.vacc := rfl
@[simp] theorem State.updVault_free (s : State) (f : Vault → Vault) : (s.updVault f).free = s.free := rfl
@[simp] theorem State.updVault_engines (s : State) (f : Vault → Vault) : (s.updVault f).engines = s.engines := rfl
@[simp] theorem State.updVault_tiles (s : State) (f : Vault → Vault) : (s.updVault f).tiles = s.tiles := rfl
@[simp] theorem State.updVault_quads (s : State) (f : Vault → Vault) : (s.updVault f).quads = s.quads := rfl
@[simp] theorem State.updVault_ctls (s : State) (f : Vault → Vault) : (s.updVault f).ctls = s.ctls := rfl
@[simp] theorem State.updVault_nss (s : State) (f : Vault → Vault) : (s.updVault f).nss = s.nss := rfl
@[simp] theorem State.updVault_molts (s : State) (f : Vault → Vault) : (s.updVault f).molts = s.molts := rfl
@[simp] theorem State.updVault_drives (s : State) (f : Vault → Vault) : (s.updVault f).drives = s.drives := rfl
@[simp] theorem State.updVault_groups (s : State) (f : Vault → Vault) : (s.updVault f).groups = s.groups := rfl
@[simp] theorem State.updVault_ports (s : State) (f : Vault → Vault) : (s.updVault f).ports = s.ports := rfl
@[simp] theorem State.updVault_queues (s : State) (f : Vault → Vault) : (s.updVault f).queues = s.queues := rfl
@[simp] theorem State.updVault_pages (s : State) (f : Vault → Vault) : (s.updVault f).pages = s.pages := rfl
@[simp] theorem State.updVault_eps (s : State) (f : Vault → Vault) : (s.updVault f).eps = s.eps := rfl
@[simp] theorem State.updVault_claims (s : State) (f : Vault → Vault) : (s.updVault f).claims = s.claims := rfl
@[simp] theorem State.updVault_erases (s : State) (f : Vault → Vault) : (s.updVault f).erases = s.erases := rfl
@[simp] theorem State.updVault_warden (s : State) (f : Vault → Vault) : (s.updVault f).warden = s.warden := rfl
@[simp] theorem State.updVault_glb (s : State) (f : Vault → Vault) : (s.updVault f).glb = s.glb := rfl
@[simp] theorem State.updVault_clk (s : State) (f : Vault → Vault) : (s.updVault f).clk = s.clk := rfl
@[simp] theorem State.updVault_flt (s : State) (f : Vault → Vault) : (s.updVault f).flt = s.flt := rfl
@[simp] theorem State.updVault_pwr (s : State) (f : Vault → Vault) : (s.updVault f).pwr = s.pwr := rfl
@[simp] theorem State.updVault_pio (s : State) (f : Vault → Vault) : (s.updVault f).pio = s.pio := rfl
@[simp] theorem State.updVault_boot (s : State) (f : Vault → Vault) : (s.updVault f).boot = s.boot := rfl
@[simp] theorem State.updVault_stackA (s : State) (f : Vault → Vault) : (s.updVault f).stackA = s.stackA := rfl
@[simp] theorem State.updVault_stackB (s : State) (f : Vault → Vault) : (s.updVault f).stackB = s.stackB := rfl
@[simp] theorem State.updVault_dieLink (s : State) (f : Vault → Vault) : (s.updVault f).dieLink = s.dieLink := rfl
@[simp] theorem State.updVault_versions (s : State) (f : Vault → Vault) : (s.updVault f).versions = s.versions := rfl
@[simp] theorem State.updVault_out (s : State) (f : Vault → Vault) : (s.updVault f).out = s.out := rfl
@[simp] theorem State.updVault_pending (s : State) (f : Vault → Vault) : (s.updVault f).pending = s.pending := rfl
@[simp] theorem State.eng_updVault (s : State) (m : Nat) (f : Vault → Vault) : (s.updVault f).eng m = s.eng m := rfl
@[simp] theorem State.tile_updVault (s : State) (m : Nat) (f : Vault → Vault) : (s.updVault f).tile m = s.tile m := rfl
@[simp] theorem State.quad_updVault (s : State) (m : Nat) (f : Vault → Vault) : (s.updVault f).quad m = s.quad m := rfl
@[simp] theorem State.ctl_updVault (s : State) (m : Nat) (f : Vault → Vault) : (s.updVault f).ctl m = s.ctl m := rfl
@[simp] theorem State.ns_updVault (s : State) (m : Nat) (f : Vault → Vault) : (s.updVault f).ns m = s.ns m := rfl
@[simp] theorem State.molt_updVault (s : State) (m : Nat) (f : Vault → Vault) : (s.updVault f).molt m = s.molt m := rfl
@[simp] theorem State.drive_updVault (s : State) (m : Nat) (f : Vault → Vault) : (s.updVault f).drive m = s.drive m := rfl
@[simp] theorem State.group_updVault (s : State) (m : Nat) (f : Vault → Vault) : (s.updVault f).group m = s.group m := rfl
@[simp] theorem State.port_updVault (s : State) (m : Nat) (f : Vault → Vault) : (s.updVault f).port m = s.port m := rfl
@[simp] theorem State.queue_updVault (s : State) (m : Nat) (f : Vault → Vault) : (s.updVault f).queue m = s.queue m := rfl
@[simp] theorem State.page_updVault (s : State) (m : Nat) (f : Vault → Vault) : (s.updVault f).page m = s.page m := rfl
@[simp] theorem State.ep_updVault (s : State) (m : Nat) (f : Vault → Vault) : (s.updVault f).ep m = s.ep m := rfl

/-! ## updPwr -/

@[simp] theorem State.updPwr_self (s : State) (f : Pwr → Pwr) : (s.updPwr f).pwr = f s.pwr := rfl
@[simp] theorem State.updPwr_time (s : State) (f : Pwr → Pwr) : (s.updPwr f).time = s.time := rfl
@[simp] theorem State.updPwr_vtime (s : State) (f : Pwr → Pwr) : (s.updPwr f).vtime = s.vtime := rfl
@[simp] theorem State.updPwr_vacc (s : State) (f : Pwr → Pwr) : (s.updPwr f).vacc = s.vacc := rfl
@[simp] theorem State.updPwr_free (s : State) (f : Pwr → Pwr) : (s.updPwr f).free = s.free := rfl
@[simp] theorem State.updPwr_engines (s : State) (f : Pwr → Pwr) : (s.updPwr f).engines = s.engines := rfl
@[simp] theorem State.updPwr_tiles (s : State) (f : Pwr → Pwr) : (s.updPwr f).tiles = s.tiles := rfl
@[simp] theorem State.updPwr_quads (s : State) (f : Pwr → Pwr) : (s.updPwr f).quads = s.quads := rfl
@[simp] theorem State.updPwr_ctls (s : State) (f : Pwr → Pwr) : (s.updPwr f).ctls = s.ctls := rfl
@[simp] theorem State.updPwr_nss (s : State) (f : Pwr → Pwr) : (s.updPwr f).nss = s.nss := rfl
@[simp] theorem State.updPwr_molts (s : State) (f : Pwr → Pwr) : (s.updPwr f).molts = s.molts := rfl
@[simp] theorem State.updPwr_drives (s : State) (f : Pwr → Pwr) : (s.updPwr f).drives = s.drives := rfl
@[simp] theorem State.updPwr_groups (s : State) (f : Pwr → Pwr) : (s.updPwr f).groups = s.groups := rfl
@[simp] theorem State.updPwr_ports (s : State) (f : Pwr → Pwr) : (s.updPwr f).ports = s.ports := rfl
@[simp] theorem State.updPwr_queues (s : State) (f : Pwr → Pwr) : (s.updPwr f).queues = s.queues := rfl
@[simp] theorem State.updPwr_pages (s : State) (f : Pwr → Pwr) : (s.updPwr f).pages = s.pages := rfl
@[simp] theorem State.updPwr_eps (s : State) (f : Pwr → Pwr) : (s.updPwr f).eps = s.eps := rfl
@[simp] theorem State.updPwr_claims (s : State) (f : Pwr → Pwr) : (s.updPwr f).claims = s.claims := rfl
@[simp] theorem State.updPwr_erases (s : State) (f : Pwr → Pwr) : (s.updPwr f).erases = s.erases := rfl
@[simp] theorem State.updPwr_warden (s : State) (f : Pwr → Pwr) : (s.updPwr f).warden = s.warden := rfl
@[simp] theorem State.updPwr_glb (s : State) (f : Pwr → Pwr) : (s.updPwr f).glb = s.glb := rfl
@[simp] theorem State.updPwr_clk (s : State) (f : Pwr → Pwr) : (s.updPwr f).clk = s.clk := rfl
@[simp] theorem State.updPwr_flt (s : State) (f : Pwr → Pwr) : (s.updPwr f).flt = s.flt := rfl
@[simp] theorem State.updPwr_vault (s : State) (f : Pwr → Pwr) : (s.updPwr f).vault = s.vault := rfl
@[simp] theorem State.updPwr_pio (s : State) (f : Pwr → Pwr) : (s.updPwr f).pio = s.pio := rfl
@[simp] theorem State.updPwr_boot (s : State) (f : Pwr → Pwr) : (s.updPwr f).boot = s.boot := rfl
@[simp] theorem State.updPwr_stackA (s : State) (f : Pwr → Pwr) : (s.updPwr f).stackA = s.stackA := rfl
@[simp] theorem State.updPwr_stackB (s : State) (f : Pwr → Pwr) : (s.updPwr f).stackB = s.stackB := rfl
@[simp] theorem State.updPwr_dieLink (s : State) (f : Pwr → Pwr) : (s.updPwr f).dieLink = s.dieLink := rfl
@[simp] theorem State.updPwr_versions (s : State) (f : Pwr → Pwr) : (s.updPwr f).versions = s.versions := rfl
@[simp] theorem State.updPwr_out (s : State) (f : Pwr → Pwr) : (s.updPwr f).out = s.out := rfl
@[simp] theorem State.updPwr_pending (s : State) (f : Pwr → Pwr) : (s.updPwr f).pending = s.pending := rfl
@[simp] theorem State.eng_updPwr (s : State) (m : Nat) (f : Pwr → Pwr) : (s.updPwr f).eng m = s.eng m := rfl
@[simp] theorem State.tile_updPwr (s : State) (m : Nat) (f : Pwr → Pwr) : (s.updPwr f).tile m = s.tile m := rfl
@[simp] theorem State.quad_updPwr (s : State) (m : Nat) (f : Pwr → Pwr) : (s.updPwr f).quad m = s.quad m := rfl
@[simp] theorem State.ctl_updPwr (s : State) (m : Nat) (f : Pwr → Pwr) : (s.updPwr f).ctl m = s.ctl m := rfl
@[simp] theorem State.ns_updPwr (s : State) (m : Nat) (f : Pwr → Pwr) : (s.updPwr f).ns m = s.ns m := rfl
@[simp] theorem State.molt_updPwr (s : State) (m : Nat) (f : Pwr → Pwr) : (s.updPwr f).molt m = s.molt m := rfl
@[simp] theorem State.drive_updPwr (s : State) (m : Nat) (f : Pwr → Pwr) : (s.updPwr f).drive m = s.drive m := rfl
@[simp] theorem State.group_updPwr (s : State) (m : Nat) (f : Pwr → Pwr) : (s.updPwr f).group m = s.group m := rfl
@[simp] theorem State.port_updPwr (s : State) (m : Nat) (f : Pwr → Pwr) : (s.updPwr f).port m = s.port m := rfl
@[simp] theorem State.queue_updPwr (s : State) (m : Nat) (f : Pwr → Pwr) : (s.updPwr f).queue m = s.queue m := rfl
@[simp] theorem State.page_updPwr (s : State) (m : Nat) (f : Pwr → Pwr) : (s.updPwr f).page m = s.page m := rfl
@[simp] theorem State.ep_updPwr (s : State) (m : Nat) (f : Pwr → Pwr) : (s.updPwr f).ep m = s.ep m := rfl

/-! ## emit -/

@[simp] theorem State.emit_out (s : State) (x : Out) : (s.emit x).out = x :: s.out := rfl
@[simp] theorem State.emit_time (s : State) (x : Out) : (s.emit x).time = s.time := rfl
@[simp] theorem State.emit_vtime (s : State) (x : Out) : (s.emit x).vtime = s.vtime := rfl
@[simp] theorem State.emit_vacc (s : State) (x : Out) : (s.emit x).vacc = s.vacc := rfl
@[simp] theorem State.emit_free (s : State) (x : Out) : (s.emit x).free = s.free := rfl
@[simp] theorem State.emit_engines (s : State) (x : Out) : (s.emit x).engines = s.engines := rfl
@[simp] theorem State.emit_tiles (s : State) (x : Out) : (s.emit x).tiles = s.tiles := rfl
@[simp] theorem State.emit_quads (s : State) (x : Out) : (s.emit x).quads = s.quads := rfl
@[simp] theorem State.emit_ctls (s : State) (x : Out) : (s.emit x).ctls = s.ctls := rfl
@[simp] theorem State.emit_nss (s : State) (x : Out) : (s.emit x).nss = s.nss := rfl
@[simp] theorem State.emit_molts (s : State) (x : Out) : (s.emit x).molts = s.molts := rfl
@[simp] theorem State.emit_drives (s : State) (x : Out) : (s.emit x).drives = s.drives := rfl
@[simp] theorem State.emit_groups (s : State) (x : Out) : (s.emit x).groups = s.groups := rfl
@[simp] theorem State.emit_ports (s : State) (x : Out) : (s.emit x).ports = s.ports := rfl
@[simp] theorem State.emit_queues (s : State) (x : Out) : (s.emit x).queues = s.queues := rfl
@[simp] theorem State.emit_pages (s : State) (x : Out) : (s.emit x).pages = s.pages := rfl
@[simp] theorem State.emit_eps (s : State) (x : Out) : (s.emit x).eps = s.eps := rfl
@[simp] theorem State.emit_claims (s : State) (x : Out) : (s.emit x).claims = s.claims := rfl
@[simp] theorem State.emit_erases (s : State) (x : Out) : (s.emit x).erases = s.erases := rfl
@[simp] theorem State.emit_warden (s : State) (x : Out) : (s.emit x).warden = s.warden := rfl
@[simp] theorem State.emit_glb (s : State) (x : Out) : (s.emit x).glb = s.glb := rfl
@[simp] theorem State.emit_clk (s : State) (x : Out) : (s.emit x).clk = s.clk := rfl
@[simp] theorem State.emit_flt (s : State) (x : Out) : (s.emit x).flt = s.flt := rfl
@[simp] theorem State.emit_vault (s : State) (x : Out) : (s.emit x).vault = s.vault := rfl
@[simp] theorem State.emit_pwr (s : State) (x : Out) : (s.emit x).pwr = s.pwr := rfl
@[simp] theorem State.emit_pio (s : State) (x : Out) : (s.emit x).pio = s.pio := rfl
@[simp] theorem State.emit_boot (s : State) (x : Out) : (s.emit x).boot = s.boot := rfl
@[simp] theorem State.emit_stackA (s : State) (x : Out) : (s.emit x).stackA = s.stackA := rfl
@[simp] theorem State.emit_stackB (s : State) (x : Out) : (s.emit x).stackB = s.stackB := rfl
@[simp] theorem State.emit_dieLink (s : State) (x : Out) : (s.emit x).dieLink = s.dieLink := rfl
@[simp] theorem State.emit_versions (s : State) (x : Out) : (s.emit x).versions = s.versions := rfl
@[simp] theorem State.emit_pending (s : State) (x : Out) : (s.emit x).pending = s.pending := rfl
@[simp] theorem State.eng_emit (s : State) (m : Nat) (x : Out) : (s.emit x).eng m = s.eng m := rfl
@[simp] theorem State.tile_emit (s : State) (m : Nat) (x : Out) : (s.emit x).tile m = s.tile m := rfl
@[simp] theorem State.quad_emit (s : State) (m : Nat) (x : Out) : (s.emit x).quad m = s.quad m := rfl
@[simp] theorem State.ctl_emit (s : State) (m : Nat) (x : Out) : (s.emit x).ctl m = s.ctl m := rfl
@[simp] theorem State.ns_emit (s : State) (m : Nat) (x : Out) : (s.emit x).ns m = s.ns m := rfl
@[simp] theorem State.molt_emit (s : State) (m : Nat) (x : Out) : (s.emit x).molt m = s.molt m := rfl
@[simp] theorem State.drive_emit (s : State) (m : Nat) (x : Out) : (s.emit x).drive m = s.drive m := rfl
@[simp] theorem State.group_emit (s : State) (m : Nat) (x : Out) : (s.emit x).group m = s.group m := rfl
@[simp] theorem State.port_emit (s : State) (m : Nat) (x : Out) : (s.emit x).port m = s.port m := rfl
@[simp] theorem State.queue_emit (s : State) (m : Nat) (x : Out) : (s.emit x).queue m = s.queue m := rfl
@[simp] theorem State.page_emit (s : State) (m : Nat) (x : Out) : (s.emit x).page m = s.page m := rfl
@[simp] theorem State.ep_emit (s : State) (m : Nat) (x : Out) : (s.emit x).ep m = s.ep m := rfl

/-! ## raise -/

/-- Raising a source sets its pending bit while the warden domain is on, and does nothing else (R271, R335). -/
theorem State.raise_eq (s : State) (k : Nat) :
    s.raise k = if s.domOn 36 then s.updWarden fun w => { w with pend := w.pend ||| (1#256 <<< k) } else s := rfl


@[simp] theorem State.raise_time (s : State) (k : Nat) : (s.raise k).time = s.time := by unfold State.raise; split <;> rfl
@[simp] theorem State.raise_vtime (s : State) (k : Nat) : (s.raise k).vtime = s.vtime := by unfold State.raise; split <;> rfl
@[simp] theorem State.raise_vacc (s : State) (k : Nat) : (s.raise k).vacc = s.vacc := by unfold State.raise; split <;> rfl
@[simp] theorem State.raise_free (s : State) (k : Nat) : (s.raise k).free = s.free := by unfold State.raise; split <;> rfl
@[simp] theorem State.raise_engines (s : State) (k : Nat) : (s.raise k).engines = s.engines := by unfold State.raise; split <;> rfl
@[simp] theorem State.raise_tiles (s : State) (k : Nat) : (s.raise k).tiles = s.tiles := by unfold State.raise; split <;> rfl
@[simp] theorem State.raise_quads (s : State) (k : Nat) : (s.raise k).quads = s.quads := by unfold State.raise; split <;> rfl
@[simp] theorem State.raise_ctls (s : State) (k : Nat) : (s.raise k).ctls = s.ctls := by unfold State.raise; split <;> rfl
@[simp] theorem State.raise_nss (s : State) (k : Nat) : (s.raise k).nss = s.nss := by unfold State.raise; split <;> rfl
@[simp] theorem State.raise_molts (s : State) (k : Nat) : (s.raise k).molts = s.molts := by unfold State.raise; split <;> rfl
@[simp] theorem State.raise_drives (s : State) (k : Nat) : (s.raise k).drives = s.drives := by unfold State.raise; split <;> rfl
@[simp] theorem State.raise_groups (s : State) (k : Nat) : (s.raise k).groups = s.groups := by unfold State.raise; split <;> rfl
@[simp] theorem State.raise_ports (s : State) (k : Nat) : (s.raise k).ports = s.ports := by unfold State.raise; split <;> rfl
@[simp] theorem State.raise_queues (s : State) (k : Nat) : (s.raise k).queues = s.queues := by unfold State.raise; split <;> rfl
@[simp] theorem State.raise_pages (s : State) (k : Nat) : (s.raise k).pages = s.pages := by unfold State.raise; split <;> rfl
@[simp] theorem State.raise_eps (s : State) (k : Nat) : (s.raise k).eps = s.eps := by unfold State.raise; split <;> rfl
@[simp] theorem State.raise_claims (s : State) (k : Nat) : (s.raise k).claims = s.claims := by unfold State.raise; split <;> rfl
@[simp] theorem State.raise_erases (s : State) (k : Nat) : (s.raise k).erases = s.erases := by unfold State.raise; split <;> rfl
@[simp] theorem State.raise_glb (s : State) (k : Nat) : (s.raise k).glb = s.glb := by unfold State.raise; split <;> rfl
@[simp] theorem State.raise_clk (s : State) (k : Nat) : (s.raise k).clk = s.clk := by unfold State.raise; split <;> rfl
@[simp] theorem State.raise_flt (s : State) (k : Nat) : (s.raise k).flt = s.flt := by unfold State.raise; split <;> rfl
@[simp] theorem State.raise_vault (s : State) (k : Nat) : (s.raise k).vault = s.vault := by unfold State.raise; split <;> rfl
@[simp] theorem State.raise_pwr (s : State) (k : Nat) : (s.raise k).pwr = s.pwr := by unfold State.raise; split <;> rfl
@[simp] theorem State.raise_pio (s : State) (k : Nat) : (s.raise k).pio = s.pio := by unfold State.raise; split <;> rfl
@[simp] theorem State.raise_boot (s : State) (k : Nat) : (s.raise k).boot = s.boot := by unfold State.raise; split <;> rfl
@[simp] theorem State.raise_stackA (s : State) (k : Nat) : (s.raise k).stackA = s.stackA := by unfold State.raise; split <;> rfl
@[simp] theorem State.raise_stackB (s : State) (k : Nat) : (s.raise k).stackB = s.stackB := by unfold State.raise; split <;> rfl
@[simp] theorem State.raise_dieLink (s : State) (k : Nat) : (s.raise k).dieLink = s.dieLink := by unfold State.raise; split <;> rfl
@[simp] theorem State.raise_versions (s : State) (k : Nat) : (s.raise k).versions = s.versions := by unfold State.raise; split <;> rfl
@[simp] theorem State.raise_out (s : State) (k : Nat) : (s.raise k).out = s.out := by unfold State.raise; split <;> rfl
@[simp] theorem State.raise_pending (s : State) (k : Nat) : (s.raise k).pending = s.pending := by unfold State.raise; split <;> rfl
@[simp] theorem State.eng_raise (s : State) (m k : Nat) : (s.raise k).eng m = s.eng m := by unfold State.raise; split <;> rfl
@[simp] theorem State.tile_raise (s : State) (m k : Nat) : (s.raise k).tile m = s.tile m := by unfold State.raise; split <;> rfl
@[simp] theorem State.quad_raise (s : State) (m k : Nat) : (s.raise k).quad m = s.quad m := by unfold State.raise; split <;> rfl
@[simp] theorem State.ctl_raise (s : State) (m k : Nat) : (s.raise k).ctl m = s.ctl m := by unfold State.raise; split <;> rfl
@[simp] theorem State.ns_raise (s : State) (m k : Nat) : (s.raise k).ns m = s.ns m := by unfold State.raise; split <;> rfl
@[simp] theorem State.molt_raise (s : State) (m k : Nat) : (s.raise k).molt m = s.molt m := by unfold State.raise; split <;> rfl
@[simp] theorem State.drive_raise (s : State) (m k : Nat) : (s.raise k).drive m = s.drive m := by unfold State.raise; split <;> rfl
@[simp] theorem State.group_raise (s : State) (m k : Nat) : (s.raise k).group m = s.group m := by unfold State.raise; split <;> rfl
@[simp] theorem State.port_raise (s : State) (m k : Nat) : (s.raise k).port m = s.port m := by unfold State.raise; split <;> rfl
@[simp] theorem State.queue_raise (s : State) (m k : Nat) : (s.raise k).queue m = s.queue m := by unfold State.raise; split <;> rfl
@[simp] theorem State.page_raise (s : State) (m k : Nat) : (s.raise k).page m = s.page m := by unfold State.raise; split <;> rfl
@[simp] theorem State.ep_raise (s : State) (m k : Nat) : (s.raise k).ep m = s.ep m := by unfold State.raise; split <;> rfl

/-! ## faultEvent -/

@[simp] theorem State.faultEvent_time (s : State) (d c i : Nat) (x : Word) : (s.faultEvent d c i x).time = s.time := by unfold State.faultEvent; split_ifs <;> rfl
@[simp] theorem State.faultEvent_vtime (s : State) (d c i : Nat) (x : Word) : (s.faultEvent d c i x).vtime = s.vtime := by unfold State.faultEvent; split_ifs <;> rfl
@[simp] theorem State.faultEvent_vacc (s : State) (d c i : Nat) (x : Word) : (s.faultEvent d c i x).vacc = s.vacc := by unfold State.faultEvent; split_ifs <;> rfl
@[simp] theorem State.faultEvent_free (s : State) (d c i : Nat) (x : Word) : (s.faultEvent d c i x).free = s.free := by unfold State.faultEvent; split_ifs <;> rfl
@[simp] theorem State.faultEvent_engines (s : State) (d c i : Nat) (x : Word) : (s.faultEvent d c i x).engines = s.engines := by unfold State.faultEvent; split_ifs <;> rfl
@[simp] theorem State.faultEvent_tiles (s : State) (d c i : Nat) (x : Word) : (s.faultEvent d c i x).tiles = s.tiles := by unfold State.faultEvent; split_ifs <;> rfl
@[simp] theorem State.faultEvent_quads (s : State) (d c i : Nat) (x : Word) : (s.faultEvent d c i x).quads = s.quads := by unfold State.faultEvent; split_ifs <;> rfl
@[simp] theorem State.faultEvent_ctls (s : State) (d c i : Nat) (x : Word) : (s.faultEvent d c i x).ctls = s.ctls := by unfold State.faultEvent; split_ifs <;> rfl
@[simp] theorem State.faultEvent_nss (s : State) (d c i : Nat) (x : Word) : (s.faultEvent d c i x).nss = s.nss := by unfold State.faultEvent; split_ifs <;> rfl
@[simp] theorem State.faultEvent_molts (s : State) (d c i : Nat) (x : Word) : (s.faultEvent d c i x).molts = s.molts := by unfold State.faultEvent; split_ifs <;> rfl
@[simp] theorem State.faultEvent_drives (s : State) (d c i : Nat) (x : Word) : (s.faultEvent d c i x).drives = s.drives := by unfold State.faultEvent; split_ifs <;> rfl
@[simp] theorem State.faultEvent_groups (s : State) (d c i : Nat) (x : Word) : (s.faultEvent d c i x).groups = s.groups := by unfold State.faultEvent; split_ifs <;> rfl
@[simp] theorem State.faultEvent_ports (s : State) (d c i : Nat) (x : Word) : (s.faultEvent d c i x).ports = s.ports := by unfold State.faultEvent; split_ifs <;> rfl
@[simp] theorem State.faultEvent_queues (s : State) (d c i : Nat) (x : Word) : (s.faultEvent d c i x).queues = s.queues := by unfold State.faultEvent; split_ifs <;> rfl
@[simp] theorem State.faultEvent_pages (s : State) (d c i : Nat) (x : Word) : (s.faultEvent d c i x).pages = s.pages := by unfold State.faultEvent; split_ifs <;> rfl
@[simp] theorem State.faultEvent_eps (s : State) (d c i : Nat) (x : Word) : (s.faultEvent d c i x).eps = s.eps := by unfold State.faultEvent; split_ifs <;> rfl
@[simp] theorem State.faultEvent_claims (s : State) (d c i : Nat) (x : Word) : (s.faultEvent d c i x).claims = s.claims := by unfold State.faultEvent; split_ifs <;> rfl
@[simp] theorem State.faultEvent_erases (s : State) (d c i : Nat) (x : Word) : (s.faultEvent d c i x).erases = s.erases := by unfold State.faultEvent; split_ifs <;> rfl
@[simp] theorem State.faultEvent_warden (s : State) (d c i : Nat) (x : Word) : (s.faultEvent d c i x).warden = s.warden := by unfold State.faultEvent; split_ifs <;> rfl
@[simp] theorem State.faultEvent_glb (s : State) (d c i : Nat) (x : Word) : (s.faultEvent d c i x).glb = s.glb := by unfold State.faultEvent; split_ifs <;> rfl
@[simp] theorem State.faultEvent_clk (s : State) (d c i : Nat) (x : Word) : (s.faultEvent d c i x).clk = s.clk := by unfold State.faultEvent; split_ifs <;> rfl
@[simp] theorem State.faultEvent_vault (s : State) (d c i : Nat) (x : Word) : (s.faultEvent d c i x).vault = s.vault := by unfold State.faultEvent; split_ifs <;> rfl
@[simp] theorem State.faultEvent_pwr (s : State) (d c i : Nat) (x : Word) : (s.faultEvent d c i x).pwr = s.pwr := by unfold State.faultEvent; split_ifs <;> rfl
@[simp] theorem State.faultEvent_pio (s : State) (d c i : Nat) (x : Word) : (s.faultEvent d c i x).pio = s.pio := by unfold State.faultEvent; split_ifs <;> rfl
@[simp] theorem State.faultEvent_boot (s : State) (d c i : Nat) (x : Word) : (s.faultEvent d c i x).boot = s.boot := by unfold State.faultEvent; split_ifs <;> rfl
@[simp] theorem State.faultEvent_stackA (s : State) (d c i : Nat) (x : Word) : (s.faultEvent d c i x).stackA = s.stackA := by unfold State.faultEvent; split_ifs <;> rfl
@[simp] theorem State.faultEvent_stackB (s : State) (d c i : Nat) (x : Word) : (s.faultEvent d c i x).stackB = s.stackB := by unfold State.faultEvent; split_ifs <;> rfl
@[simp] theorem State.faultEvent_dieLink (s : State) (d c i : Nat) (x : Word) : (s.faultEvent d c i x).dieLink = s.dieLink := by unfold State.faultEvent; split_ifs <;> rfl
@[simp] theorem State.faultEvent_versions (s : State) (d c i : Nat) (x : Word) : (s.faultEvent d c i x).versions = s.versions := by unfold State.faultEvent; split_ifs <;> rfl
@[simp] theorem State.faultEvent_out (s : State) (d c i : Nat) (x : Word) : (s.faultEvent d c i x).out = s.out := by unfold State.faultEvent; split_ifs <;> rfl
@[simp] theorem State.faultEvent_pending (s : State) (d c i : Nat) (x : Word) : (s.faultEvent d c i x).pending = s.pending := by unfold State.faultEvent; split_ifs <;> rfl
@[simp] theorem State.eng_faultEvent (s : State) (m d c i : Nat) (x : Word) : (s.faultEvent d c i x).eng m = s.eng m := by unfold State.faultEvent; split_ifs <;> rfl
@[simp] theorem State.tile_faultEvent (s : State) (m d c i : Nat) (x : Word) : (s.faultEvent d c i x).tile m = s.tile m := by unfold State.faultEvent; split_ifs <;> rfl
@[simp] theorem State.quad_faultEvent (s : State) (m d c i : Nat) (x : Word) : (s.faultEvent d c i x).quad m = s.quad m := by unfold State.faultEvent; split_ifs <;> rfl
@[simp] theorem State.ctl_faultEvent (s : State) (m d c i : Nat) (x : Word) : (s.faultEvent d c i x).ctl m = s.ctl m := by unfold State.faultEvent; split_ifs <;> rfl
@[simp] theorem State.ns_faultEvent (s : State) (m d c i : Nat) (x : Word) : (s.faultEvent d c i x).ns m = s.ns m := by unfold State.faultEvent; split_ifs <;> rfl
@[simp] theorem State.molt_faultEvent (s : State) (m d c i : Nat) (x : Word) : (s.faultEvent d c i x).molt m = s.molt m := by unfold State.faultEvent; split_ifs <;> rfl
@[simp] theorem State.drive_faultEvent (s : State) (m d c i : Nat) (x : Word) : (s.faultEvent d c i x).drive m = s.drive m := by unfold State.faultEvent; split_ifs <;> rfl
@[simp] theorem State.group_faultEvent (s : State) (m d c i : Nat) (x : Word) : (s.faultEvent d c i x).group m = s.group m := by unfold State.faultEvent; split_ifs <;> rfl
@[simp] theorem State.port_faultEvent (s : State) (m d c i : Nat) (x : Word) : (s.faultEvent d c i x).port m = s.port m := by unfold State.faultEvent; split_ifs <;> rfl
@[simp] theorem State.queue_faultEvent (s : State) (m d c i : Nat) (x : Word) : (s.faultEvent d c i x).queue m = s.queue m := by unfold State.faultEvent; split_ifs <;> rfl
@[simp] theorem State.page_faultEvent (s : State) (m d c i : Nat) (x : Word) : (s.faultEvent d c i x).page m = s.page m := by unfold State.faultEvent; split_ifs <;> rfl
@[simp] theorem State.ep_faultEvent (s : State) (m d c i : Nat) (x : Word) : (s.faultEvent d c i x).ep m = s.ep m := by unfold State.faultEvent; split_ifs <;> rfl

/-! ## Processors and registers -/

@[simp] theorem State.updProc_eq (s : State) (p : Nat) (f : Proc → Proc) : s.updProc p f = s.setProc p (f (s.proc p)) := rfl

@[simp] theorem State.proc_setProc_same (s : State) (p : Nat) (r : Proc) : (s.setProc p r).proc p = r := by
  unfold State.proc State.setProc
  by_cases h : p = 128 <;> simp [h]

theorem State.proc_setProc_ne (s : State) (p k : Nat) (r : Proc) (h : p ≠ k) : (s.setProc p r).proc k = s.proc k := by
  unfold State.setProc
  split
  · next hp =>
    have hk : k ≠ 128 := fun e => h (hp.trans e.symm)
    unfold State.proc
    rw [if_neg hk, if_neg hk]
    rfl
  · unfold State.proc
    split
    · rfl
    · rw [State.updEng_eq, State.eng_setEng_ne _ _ _ _ h]

/-- A write of register `n` seen at register `m`: g0 stays 0 (R38). -/
theorem Proc.reg_setReg (r : Proc) (n m : Nat) (v : Word) : (r.setReg n v).reg m = if m = 0 then 0 else if m = n then v else r.reg m := by
  unfold Proc.reg Proc.setReg
  by_cases hm : m = 0
  · simp [hm]
  · by_cases hn : n = 0
    · subst hn; simp [hm]
    · by_cases h : m = n
      · subst h; simp [hm]
      · simp [hm, hn, h, Tbl.get_set_ne _ _ _ (Ne.symm h)]

@[simp] theorem Proc.reg_zero (r : Proc) : r.reg 0 = 0 := rfl

@[simp] theorem Proc.setReg_pc (r : Proc) (n : Nat) (v : Word) : (r.setReg n v).pc = r.pc := by unfold Proc.setReg; split <;> rfl
@[simp] theorem Proc.setReg_mode (r : Proc) (n : Nat) (v : Word) : (r.setReg n v).mode = r.mode := by unfold Proc.setReg; split <;> rfl
@[simp] theorem Proc.setReg_shadow (r : Proc) (n : Nat) (v : Word) : (r.setReg n v).shadow = r.shadow := by unfold Proc.setReg; split <;> rfl
@[simp] theorem Proc.setReg_delay (r : Proc) (n : Nat) (v : Word) : (r.setReg n v).delay = r.delay := by unfold Proc.setReg; split <;> rfl
@[simp] theorem Proc.setReg_epc (r : Proc) (n : Nat) (v : Word) : (r.setReg n v).epc = r.epc := by unfold Proc.setReg; split <;> rfl
@[simp] theorem Proc.setReg_ecause (r : Proc) (n : Nat) (v : Word) : (r.setReg n v).ecause = r.ecause := by unfold Proc.setReg; split <;> rfl
@[simp] theorem Proc.setReg_eval (r : Proc) (n : Nat) (v : Word) : (r.setReg n v).eval = r.eval := by unfold Proc.setReg; split <;> rfl
@[simp] theorem Proc.setReg_escratch (r : Proc) (n : Nat) (v : Word) : (r.setReg n v).escratch = r.escratch := by unfold Proc.setReg; split <;> rfl
@[simp] theorem Proc.setReg_estat (r : Proc) (n : Nat) (v : Word) : (r.setReg n v).estat = r.estat := by unfold Proc.setReg; split <;> rfl
@[simp] theorem Proc.setReg_evec (r : Proc) (n : Nat) (v : Word) : (r.setReg n v).evec = r.evec := by unfold Proc.setReg; split <;> rfl
@[simp] theorem Proc.setReg_lstart0 (r : Proc) (n : Nat) (v : Word) : (r.setReg n v).lstart0 = r.lstart0 := by unfold Proc.setReg; split <;> rfl
@[simp] theorem Proc.setReg_lend0 (r : Proc) (n : Nat) (v : Word) : (r.setReg n v).lend0 = r.lend0 := by unfold Proc.setReg; split <;> rfl
@[simp] theorem Proc.setReg_lcount0 (r : Proc) (n : Nat) (v : Word) : (r.setReg n v).lcount0 = r.lcount0 := by unfold Proc.setReg; split <;> rfl
@[simp] theorem Proc.setReg_lstart1 (r : Proc) (n : Nat) (v : Word) : (r.setReg n v).lstart1 = r.lstart1 := by unfold Proc.setReg; split <;> rfl
@[simp] theorem Proc.setReg_lend1 (r : Proc) (n : Nat) (v : Word) : (r.setReg n v).lend1 = r.lend1 := by unfold Proc.setReg; split <;> rfl
@[simp] theorem Proc.setReg_lcount1 (r : Proc) (n : Nat) (v : Word) : (r.setReg n v).lcount1 = r.lcount1 := by unfold Proc.setReg; split <;> rfl
@[simp] theorem Proc.setReg_lstat (r : Proc) (n : Nat) (v : Word) : (r.setReg n v).lstat = r.lstat := by unfold Proc.setReg; split <;> rfl
@[simp] theorem Proc.setReg_instret (r : Proc) (n : Nat) (v : Word) : (r.setReg n v).instret = r.instret := by unfold Proc.setReg; split <;> rfl
@[simp] theorem Proc.setReg_instretHi (r : Proc) (n : Nat) (v : Word) : (r.setReg n v).instretHi = r.instretHi := by unfold Proc.setReg; split <;> rfl
@[simp] theorem Proc.setReg_timeHi (r : Proc) (n : Nat) (v : Word) : (r.setReg n v).timeHi = r.timeHi := by unfold Proc.setReg; split <;> rfl
@[simp] theorem Proc.setReg_busy (r : Proc) (n : Nat) (v : Word) : (r.setReg n v).busy = r.busy := by unfold Proc.setReg; split <;> rfl
@[simp] theorem Proc.setReg_loads (r : Proc) (n : Nat) (v : Word) : (r.setReg n v).loads = r.loads := by unfold Proc.setReg; split <;> rfl
@[simp] theorem Proc.setReg_stores (r : Proc) (n : Nat) (v : Word) : (r.setReg n v).stores = r.stores := by unfold Proc.setReg; split <;> rfl
@[simp] theorem Proc.setReg_port (r : Proc) (n : Nat) (v : Word) : (r.setReg n v).port = r.port := by unfold Proc.setReg; split <;> rfl
@[simp] theorem Proc.setReg_waiting (r : Proc) (n : Nat) (v : Word) : (r.setReg n v).waiting = r.waiting := by unfold Proc.setReg; split <;> rfl
@[simp] theorem Proc.setReg_hash (r : Proc) (n : Nat) (v : Word) : (r.setReg n v).hash = r.hash := by unfold Proc.setReg; split <;> rfl
@[simp] theorem Proc.setReg_stale (r : Proc) (n : Nat) (v : Word) : (r.setReg n v).stale = r.stale := by unfold Proc.setReg; split <;> rfl
@[simp] theorem Proc.setBusy_pc (r : Proc) (n : Nat) : (r.setBusy n).pc = r.pc := by unfold Proc.setBusy; split <;> rfl
@[simp] theorem Proc.setBusy_mode (r : Proc) (n : Nat) : (r.setBusy n).mode = r.mode := by unfold Proc.setBusy; split <;> rfl
@[simp] theorem Proc.setBusy_shadow (r : Proc) (n : Nat) : (r.setBusy n).shadow = r.shadow := by unfold Proc.setBusy; split <;> rfl
@[simp] theorem Proc.setBusy_delay (r : Proc) (n : Nat) : (r.setBusy n).delay = r.delay := by unfold Proc.setBusy; split <;> rfl
@[simp] theorem Proc.setBusy_epc (r : Proc) (n : Nat) : (r.setBusy n).epc = r.epc := by unfold Proc.setBusy; split <;> rfl
@[simp] theorem Proc.setBusy_ecause (r : Proc) (n : Nat) : (r.setBusy n).ecause = r.ecause := by unfold Proc.setBusy; split <;> rfl
@[simp] theorem Proc.setBusy_eval (r : Proc) (n : Nat) : (r.setBusy n).eval = r.eval := by unfold Proc.setBusy; split <;> rfl
@[simp] theorem Proc.setBusy_escratch (r : Proc) (n : Nat) : (r.setBusy n).escratch = r.escratch := by unfold Proc.setBusy; split <;> rfl
@[simp] theorem Proc.setBusy_estat (r : Proc) (n : Nat) : (r.setBusy n).estat = r.estat := by unfold Proc.setBusy; split <;> rfl
@[simp] theorem Proc.setBusy_evec (r : Proc) (n : Nat) : (r.setBusy n).evec = r.evec := by unfold Proc.setBusy; split <;> rfl
@[simp] theorem Proc.setBusy_lstart0 (r : Proc) (n : Nat) : (r.setBusy n).lstart0 = r.lstart0 := by unfold Proc.setBusy; split <;> rfl
@[simp] theorem Proc.setBusy_lend0 (r : Proc) (n : Nat) : (r.setBusy n).lend0 = r.lend0 := by unfold Proc.setBusy; split <;> rfl
@[simp] theorem Proc.setBusy_lcount0 (r : Proc) (n : Nat) : (r.setBusy n).lcount0 = r.lcount0 := by unfold Proc.setBusy; split <;> rfl
@[simp] theorem Proc.setBusy_lstart1 (r : Proc) (n : Nat) : (r.setBusy n).lstart1 = r.lstart1 := by unfold Proc.setBusy; split <;> rfl
@[simp] theorem Proc.setBusy_lend1 (r : Proc) (n : Nat) : (r.setBusy n).lend1 = r.lend1 := by unfold Proc.setBusy; split <;> rfl
@[simp] theorem Proc.setBusy_lcount1 (r : Proc) (n : Nat) : (r.setBusy n).lcount1 = r.lcount1 := by unfold Proc.setBusy; split <;> rfl
@[simp] theorem Proc.setBusy_lstat (r : Proc) (n : Nat) : (r.setBusy n).lstat = r.lstat := by unfold Proc.setBusy; split <;> rfl
@[simp] theorem Proc.setBusy_instret (r : Proc) (n : Nat) : (r.setBusy n).instret = r.instret := by unfold Proc.setBusy; split <;> rfl
@[simp] theorem Proc.setBusy_instretHi (r : Proc) (n : Nat) : (r.setBusy n).instretHi = r.instretHi := by unfold Proc.setBusy; split <;> rfl
@[simp] theorem Proc.setBusy_timeHi (r : Proc) (n : Nat) : (r.setBusy n).timeHi = r.timeHi := by unfold Proc.setBusy; split <;> rfl
@[simp] theorem Proc.setBusy_loads (r : Proc) (n : Nat) : (r.setBusy n).loads = r.loads := by unfold Proc.setBusy; split <;> rfl
@[simp] theorem Proc.setBusy_stores (r : Proc) (n : Nat) : (r.setBusy n).stores = r.stores := by unfold Proc.setBusy; split <;> rfl
@[simp] theorem Proc.setBusy_port (r : Proc) (n : Nat) : (r.setBusy n).port = r.port := by unfold Proc.setBusy; split <;> rfl
@[simp] theorem Proc.setBusy_waiting (r : Proc) (n : Nat) : (r.setBusy n).waiting = r.waiting := by unfold Proc.setBusy; split <;> rfl
@[simp] theorem Proc.setBusy_hash (r : Proc) (n : Nat) : (r.setBusy n).hash = r.hash := by unfold Proc.setBusy; split <;> rfl
@[simp] theorem Proc.setBusy_stale (r : Proc) (n : Nat) : (r.setBusy n).stale = r.stale := by unfold Proc.setBusy; split <;> rfl
@[simp] theorem Proc.setBusy_regs (r : Proc) (n : Nat) : (r.setBusy n).regs = r.regs := by unfold Proc.setBusy; split <;> rfl
@[simp] theorem Proc.reg_setBusy (r : Proc) (n m : Nat) : (r.setBusy n).reg m = r.reg m := by unfold Proc.reg; simp
/-! ## Parts of units -/
@[simp] theorem Engine.ctx_setCtx_same (e : Engine) (n : Nat) (x : KeyCtx) : (e.setCtx n x).ctx n = x := Tbl.get_set_same _ _ _ _
theorem Engine.ctx_setCtx (e : Engine) (n m : Nat) (x : KeyCtx) : (e.setCtx n x).ctx m = if n = m then x else e.ctx m := Tbl.get_set _ _ _ _ _
@[simp] theorem Engine.slot_setSlot_same (e : Engine) (n : Nat) (x : Slot) : (e.setSlot n x).slot n = x := Tbl.get_set_same _ _ _ _
theorem Engine.slot_setSlot (e : Engine) (n m : Nat) (x : Slot) : (e.setSlot n x).slot m = if n = m then x else e.slot m := Tbl.get_set _ _ _ _ _
@[simp] theorem Tile.entry_setEntry_same (e : Tile) (n : Nat) (x : CacheEntry) : (e.setEntry n x).entry n = x := Tbl.get_set_same _ _ _ _
theorem Tile.entry_setEntry (e : Tile) (n m : Nat) (x : CacheEntry) : (e.setEntry n x).entry m = if n = m then x else e.entry m := Tbl.get_set _ _ _ _ _
@[simp] theorem Pwr.rail_setRail_same (e : Pwr) (n : Nat) (x : Rail) : (e.setRail n x).rail n = x := Tbl.get_set_same _ _ _ _
theorem Pwr.rail_setRail (e : Pwr) (n m : Nat) (x : Rail) : (e.setRail n x).rail m = if n = m then x else e.rail m := Tbl.get_set _ _ _ _ _
@[simp] theorem Quad.gate_setGate_same (e : Quad) (n : Nat) (x : Gate) : (e.setGate n x).gate n = x := Tbl.get_set_same _ _ _ _
theorem Quad.gate_setGate (e : Quad) (n m : Nat) (x : Gate) : (e.setGate n x).gate m = if n = m then x else e.gate m := Tbl.get_set _ _ _ _ _

end Sys2Proof.Machine
end

