-- ==== Sys2Proof/Laws/Mem.lean ====
section
/-!
SUPPORT. Laws of the part's memories: a write of bytes reads back, leaves every other byte alone, and keeps every memory's canonical form.
-/

namespace Sys2Proof.Machine

/-! ## Buffer DRAM -/

theorem Memory.rd_put (bs : List Byte) (m : Memory) (a b : Nat) :
    Memory.rd (Memory.put m a bs) b = if a ≤ b ∧ b < a + bs.length then bs.getD (b - a) 0 else Memory.rd m b := by
  split
  · next h =>
    obtain ⟨i, rfl⟩ : ∃ i, b = a + i := ⟨b - a, by omega⟩
    rw [Memory.rd_put_in bs m a i (by omega)]; simp
  · next h => exact Memory.rd_put_out bs m a b (by omega)

/-- Bytes written read back as they were written. -/
theorem Memory.bytes_put (m : Memory) (a : Nat) (bs : List Byte) : Memory.bytes (Memory.put m a bs) a bs.length = bs := by
  apply List.ext_getElem (by simp [Memory.bytes])
  intro i h1 h2
  simp [Memory.bytes, Memory.rd_put, h2, List.getD_eq_getElem?_getD]

@[simp] theorem State.dramSet_boot (s : State) (a : Nat) (bs : List Byte) : (s.dramSet a bs).boot = s.boot := by
  unfold State.dramSet; split <;> rfl

/-- Bytes set in one stack, read anywhere. -/
theorem State.dramRaw_dramSet (s : State) (a b : Nat) (bs : List Byte) (h : a + bs.length ≤ 2 ^ 32 ∨ 2 ^ 32 ≤ a) :
    (s.dramSet a bs).dramRaw b = if a ≤ b ∧ b < a + bs.length then bs.getD (b - a) 0 else s.dramRaw b := by
  unfold State.dramSet State.dramRaw
  by_cases ha : a < 2 ^ 32 <;> by_cases hb : b < 2 ^ 32 <;> simp only [ha, hb, if_true, if_false]
  · exact Memory.rd_put bs _ _ _
  · rw [if_neg (by omega)]
  · rw [if_neg (by omega)]
  · rw [Memory.rd_put]
    by_cases h2 : a ≤ b ∧ b < a + bs.length
    · have : b - 2 ^ 32 - (a - 2 ^ 32) = b - a := by omega
      rw [if_pos h2, if_pos (by omega), this]
    · rw [if_neg h2, if_neg (by omega)]

@[simp] theorem State.tabByte_dramSet (s : State) (a b : Nat) (bs : List Byte) : (s.dramSet a bs).tabByte b = s.tabByte b := by
  unfold State.dramSet; split <;> rfl

@[simp] theorem State.tabLine_dramSet (s : State) (a b : Nat) (bs : List Byte) : (s.dramSet a bs).tabLine b = s.tabLine b := by
  unfold State.tabLine; simp

@[simp] theorem State.overlay_dramSet (s : State) (a b : Nat) (bs : List Byte) : (s.dramSet a bs).overlay b = s.overlay b := by
  unfold State.overlay; simp

/-- A line that the tables give is 16 bytes. -/
theorem State.tabLine_length {s : State} {g : Nat} {l : List Byte} (h : s.tabLine g = some l) : l.length = 16 := by
  unfold State.tabLine at h
  split at h
  · cases h; simp
  · cases h

/-- What the tables give does not depend on which lines have been stored to. -/
@[simp] theorem State.tabLine_touched (s : State) (t : Tbl (Option (List Byte))) (g : Nat) :
    State.tabLine { s with boot := { s.boot with touched := t } } g = s.tabLine g := rfl

/-- The state with one line of the tables written out. -/
theorem State.recInit_eq {s : State} {a : Nat} {l : List Byte} (h : s.overlay a = some l) :
    s.recInit a = { s.dramSet (a / 16 * 16) l with
      boot := { s.boot with touched := Tbl.set none s.boot.touched (a / 16 * 16) (some l) } } := by
  unfold State.recInit; rw [h]; simp

theorem State.tabLine_of_overlay {s : State} {a : Nat} {l : List Byte} (h : s.overlay a = some l) : s.tabLine (a / 16 * 16) = some l := by
  unfold State.overlay at h
  cases ht : s.tabLine (a / 16 * 16) with
  | none => rw [ht] at h; cases h
  | some m =>
    rw [ht] at h; dsimp only at h
    split at h
    · cases h
    · cases h; rfl

/-- The lines shown after one was written out: that one is raw memory, every other as before. -/
theorem State.overlay_recInit (s : State) (a b : Nat) :
    (s.recInit a).overlay b = if b / 16 = a / 16 then none else s.overlay b := by
  cases h : s.overlay a with
  | none =>
    have e : s.recInit a = s := by unfold State.recInit; rw [h]
    rw [e]
    split
    · next hb =>
      have : s.overlay b = s.overlay a := by unfold State.overlay; rw [hb]
      rw [this, h]
    · rfl
  | some l =>
    have hl := State.tabLine_of_overlay h
    rw [State.recInit_eq h]
    have key : ∀ g, State.tabLine { s.dramSet (a / 16 * 16) l with
        boot := { s.boot with touched := Tbl.set none s.boot.touched (a / 16 * 16) (some l) } } g = s.tabLine g := by
      intro g
      have := State.tabLine_dramSet s (a / 16 * 16) g l
      rw [← this, ← State.tabLine_touched (s.dramSet (a / 16 * 16) l) (Tbl.set none s.boot.touched (a / 16 * 16) (some l)) g]
      simp
    unfold State.overlay
    rw [key]
    dsimp only
    by_cases hb : b / 16 = a / 16
    · rw [if_pos hb, hb, hl]; simp
    · rw [if_neg hb, Tbl.get_set_ne]; omega

/-- Writing out a line of the tables changes no byte that is read. -/
@[simp] theorem State.dramByte_recInit (s : State) (a b : Nat) : (s.recInit a).dramByte b = s.dramByte b := by
  cases h : s.overlay a with
  | none => unfold State.recInit; rw [h]
  | some l =>
    have hlen := State.tabLine_length (State.tabLine_of_overlay h)
    have hr := State.dramRaw_dramSet s (a / 16 * 16) b l (by rw [hlen]; omega)
    rw [hlen] at hr
    have hraw : (s.recInit a).dramRaw b = (s.dramSet (a / 16 * 16) l).dramRaw b := by rw [State.recInit_eq h]; rfl
    unfold State.dramByte
    rw [State.overlay_recInit, hraw, hr]
    by_cases hb : b / 16 = a / 16
    · have hs : s.overlay b = some l := by rw [← h]; unfold State.overlay; rw [hb]
      rw [if_pos hb, hs]
      dsimp only
      rw [if_pos (by omega), show b - a / 16 * 16 = b % 16 by omega]
    · rw [if_neg hb, if_neg (by omega)]

theorem State.overlay_recInit_self (s : State) (a : Nat) : (s.recInit a).overlay a = none := by
  rw [State.overlay_recInit, if_pos rfl]

/-- Bytes written to buffer DRAM, read anywhere. -/
theorem State.dramByte_dramPut (bs : List Byte) : ∀ (s : State) (a b : Nat),
    (s.dramPut a bs).dramByte b = if a ≤ b ∧ b < a + bs.length then bs.getD (b - a) 0 else s.dramByte b := by
  induction bs with
  | nil => intro s a b; rw [if_neg (by simp)]; rfl
  | cons x bs ih =>
    intro s a b
    rw [State.dramPut, ih]
    have h1 : ((s.recInit a).dramSet a [x]).dramByte b = if b = a then x else s.dramByte b := by
      have hr := State.dramRaw_dramSet (s.recInit a) a b [x] (by simp only [List.length_singleton]; omega)
      unfold State.dramByte
      rw [State.overlay_dramSet]
      by_cases hb : b = a
      · subst hb
        rw [State.overlay_recInit_self]
        simp [hr]
      · rw [if_neg hb, hr, if_neg (by simp only [List.length_singleton]; omega)]
        have := State.dramByte_recInit s a b
        unfold State.dramByte at this
        exact this
    rw [h1]
    by_cases hb : b = a
    · subst hb; simp
    · simp only [if_neg hb, List.length_cons]
      by_cases hin : a + 1 ≤ b ∧ b < a + 1 + bs.length
      · rw [if_pos hin, if_pos (by omega)]
        obtain ⟨i, rfl⟩ : ∃ i, b = a + 1 + i := ⟨b - (a + 1), by omega⟩
        have e1 : a + 1 + i - (a + 1) = i := by omega
        have e2 : a + 1 + i - a = i + 1 := by omega
        rw [e1, e2]; rfl
      · rw [if_neg hin, if_neg (by omega)]

/-! ## Locations -/

theorem State.locByte_eq (s t : State) (l : Loc) (he : ∀ n, (t.eng n).iram = (s.eng n).iram ∧ (t.eng n).dram = (s.eng n).dram)
    (ht : ∀ n, (t.tile n).scratch = (s.tile n).scratch) (hd : ∀ a, t.dramByte a = s.dramByte a) (hw : t.warden.iram = s.warden.iram)
    (hs : t.warden.sram = s.warden.sram) (hp : ∀ n, (t.page n).area = (s.page n).area) : t.locByte l = s.locByte l := by
  unfold State.locByte
  split
  · rw [(he _).1]
  · rw [(he _).2]
  · rw [ht]
  · rw [hd]
  · rw [hw]
  · rw [hs]
  · rfl
  · rw [hp]
  · rfl

@[simp] theorem State.dramByte_setEng (s : State) (n : Nat) (x : Engine) (a : Nat) : (s.setEng n x).dramByte a = s.dramByte a := rfl
@[simp] theorem State.dramByte_setTile (s : State) (n : Nat) (x : Tile) (a : Nat) : (s.setTile n x).dramByte a = s.dramByte a := rfl
@[simp] theorem State.dramByte_updWarden (s : State) (f : Warden → Warden) (a : Nat) : (s.updWarden f).dramByte a = s.dramByte a := rfl
@[simp] theorem State.dramByte_setPage (s : State) (n : Nat) (x : Page) (a : Nat) : (s.setPage n x).dramByte a = s.dramByte a := rfl

@[simp] theorem State.eng_recInit (s : State) (a n : Nat) : (s.recInit a).eng n = s.eng n := by
  unfold State.recInit State.dramSet; split
  · dsimp only; split <;> rfl
  · rfl
@[simp] theorem State.tile_recInit (s : State) (a n : Nat) : (s.recInit a).tile n = s.tile n := by
  unfold State.recInit State.dramSet; split
  · dsimp only; split <;> rfl
  · rfl
@[simp] theorem State.page_recInit (s : State) (a n : Nat) : (s.recInit a).page n = s.page n := by
  unfold State.recInit State.dramSet; split
  · dsimp only; split <;> rfl
  · rfl
@[simp] theorem State.warden_recInit (s : State) (a : Nat) : (s.recInit a).warden = s.warden := by
  unfold State.recInit State.dramSet; split
  · dsimp only; split <;> rfl
  · rfl

/-- A write to buffer DRAM changes no other unit. -/
theorem State.dramPut_frame (bs : List Byte) : ∀ (s : State) (a : Nat), (∀ n, (s.dramPut a bs).eng n = s.eng n)
    ∧ (∀ n, (s.dramPut a bs).tile n = s.tile n) ∧ (∀ n, (s.dramPut a bs).page n = s.page n) ∧ (s.dramPut a bs).warden = s.warden := by
  induction bs with
  | nil => intro s a; exact ⟨fun _ => rfl, fun _ => rfl, fun _ => rfl, rfl⟩
  | cons x bs ih =>
    intro s a
    obtain ⟨h1, h2, h3, h4⟩ := ih ((s.recInit a).dramSet a [x]) (a + 1)
    have hset : ∀ u : State, (∀ n, (u.dramSet a [x]).eng n = u.eng n) ∧ (∀ n, (u.dramSet a [x]).tile n = u.tile n)
        ∧ (∀ n, (u.dramSet a [x]).page n = u.page n) ∧ (u.dramSet a [x]).warden = u.warden := by
      intro u; unfold State.dramSet; split <;> exact ⟨fun _ => rfl, fun _ => rfl, fun _ => rfl, rfl⟩
    obtain ⟨g1, g2, g3, g4⟩ := hset (s.recInit a)
    exact ⟨fun n => (h1 n).trans ((g1 n).trans (State.eng_recInit ..)), fun n => (h2 n).trans ((g2 n).trans (State.tile_recInit ..)),
      fun n => (h3 n).trans ((g3 n).trans (State.page_recInit ..)), h4.trans (g4.trans (State.warden_recInit ..))⟩

/-- A location's byte depends only on the memory of its own space. -/
theorem State.locByte_other (s t : State) (l : Loc)
    (h0 : l.space = 0 → (t.eng l.unit).iram = (s.eng l.unit).iram) (h1 : l.space = 1 → (t.eng l.unit).dram = (s.eng l.unit).dram)
    (h2 : l.space = 2 → (t.tile l.unit).scratch = (s.tile l.unit).scratch) (h3 : l.space = 3 → t.dramByte l.off = s.dramByte l.off)
    (h4 : l.space = 4 → t.warden.iram = s.warden.iram) (h5 : l.space = 5 → t.warden.sram = s.warden.sram)
    (h7 : l.space = 7 → (t.page l.unit).area = (s.page l.unit).area) : t.locByte l = s.locByte l := by
  unfold State.locByte
  split
  · next h => rw [h0 h]
  · next h => rw [h1 h]
  · next h => rw [h2 h]
  · next h => rw [h3 h]
  · next h => rw [h4 h]
  · next h => rw [h5 h]
  · rfl
  · next h => rw [h7 h]
  · rfl

/-- A write of bytes at a location, read at any location: the bytes written read back, and every other byte stands. -/
theorem State.locByte_locPut (s : State) (l m : Loc) (bs : List Byte) :
    (l.writable = true → l.covers bs.length m → (s.locPut l bs).locByte m = bs.getD (m.off - l.off) 0)
    ∧ ((l.writable = false ∨ ¬ l.covers bs.length m) → (s.locPut l bs).locByte m = s.locByte m) := by
  obtain ⟨sp, u, o⟩ := l
  obtain ⟨sp', u', o'⟩ := m
  rcases (show sp = 0 ∨ sp = 1 ∨ sp = 2 ∨ sp = 3 ∨ sp = 4 ∨ sp = 5 ∨ sp = 7 ∨ (5 < sp ∧ sp ≠ 7) by omega) with
    rfl | rfl | rfl | rfl | rfl | rfl | rfl | hsp
  · refine ⟨?_, fun h => ?_⟩
    · rintro _ ⟨e, hu | hu, ha, hb⟩
      · dsimp only at e hu ha hb
        subst e hu
        simp [State.locPut, State.locByte, Memory.rd_put, ha, hb]
      · dsimp only at hu; omega
    · by_cases e : sp' = 0
      · subst e
        show Memory.rd ((s.updEng u _).eng u').iram o' = Memory.rd (s.eng u').iram o'
        rw [State.updEng_eq, State.eng_setEng]
        split
        · next hu =>
          subst hu
          rw [Memory.rd_put, if_neg]
          rintro ⟨ha, hb⟩
          rcases h with h | h
          · simp [Loc.writable] at h
          · exact h ⟨rfl, .inl rfl, ha, hb⟩
        · rfl
      · refine State.locByte_other _ _ _ ?_ ?_ ?_ ?_ ?_ ?_ ?_ <;> intro e' <;> dsimp only at e' <;> first | exact absurd e' e | skip
        · simp only [State.locPut, State.updEng_eq, State.eng_setEng]; split
          · next hu => rw [hu]
          · rfl
        all_goals rfl
  · refine ⟨?_, fun h => ?_⟩
    · rintro _ ⟨e, hu | hu, ha, hb⟩
      · dsimp only at e hu ha hb
        subst e hu
        simp [State.locPut, State.locByte, Memory.rd_put, ha, hb]
      · dsimp only at hu; omega
    · by_cases e : sp' = 1
      · subst e
        show Memory.rd ((s.updEng u _).eng u').dram o' = Memory.rd (s.eng u').dram o'
        rw [State.updEng_eq, State.eng_setEng]
        split
        · next hu =>
          subst hu
          rw [Memory.rd_put, if_neg]
          rintro ⟨ha, hb⟩
          rcases h with h | h
          · simp [Loc.writable] at h
          · exact h ⟨rfl, .inl rfl, ha, hb⟩
        · rfl
      · refine State.locByte_other _ _ _ ?_ ?_ ?_ ?_ ?_ ?_ ?_ <;> intro e' <;> dsimp only at e' <;> first | exact absurd e' e | skip
        · simp only [State.locPut, State.updEng_eq, State.eng_setEng]; split
          · next hu => rw [hu]
          · rfl
        all_goals rfl
  · refine ⟨?_, fun h => ?_⟩
    · rintro _ ⟨e, hu | hu, ha, hb⟩
      · dsimp only at e hu ha hb
        subst e hu
        simp [State.locPut, State.locByte, Memory.rd_put, ha, hb]
      · dsimp only at hu; omega
    · by_cases e : sp' = 2
      · subst e
        show Memory.rd ((s.updTile u _).tile u').scratch o' = Memory.rd (s.tile u').scratch o'
        rw [State.updTile_eq, State.tile_setTile]
        split
        · next hu =>
          subst hu
          rw [Memory.rd_put, if_neg]
          rintro ⟨ha, hb⟩
          rcases h with h | h
          · simp [Loc.writable] at h
          · exact h ⟨rfl, .inl rfl, ha, hb⟩
        · rfl
      · refine State.locByte_other _ _ _ ?_ ?_ ?_ ?_ ?_ ?_ ?_ <;> intro e' <;> dsimp only at e' <;> first | exact absurd e' e | skip
        all_goals rfl
  · refine ⟨?_, fun h => ?_⟩
    · rintro _ ⟨e, _, ha, hb⟩
      dsimp only at e ha hb
      subst e
      show (s.dramPut o bs).dramByte o' = _
      rw [State.dramByte_dramPut, if_pos ⟨ha, hb⟩]
    · by_cases e : sp' = 3
      · subst e
        show (s.dramPut o bs).dramByte o' = s.dramByte o'
        rw [State.dramByte_dramPut, if_neg]
        rintro ⟨ha, hb⟩
        rcases h with h | h
        · simp [Loc.writable] at h
        · exact h ⟨rfl, .inr ⟨by simp, by simp⟩, ha, hb⟩
      · obtain ⟨f1, f2, f3, f4⟩ := State.dramPut_frame bs s o
        refine State.locByte_other _ _ _ ?_ ?_ ?_ ?_ ?_ ?_ ?_ <;> intro e' <;> dsimp only at e' <;> first | exact absurd e' e | skip
        · exact congrArg Engine.iram (f1 _)
        · exact congrArg Engine.dram (f1 _)
        · exact congrArg Tile.scratch (f2 _)
        · exact congrArg Warden.iram f4
        · exact congrArg Warden.sram f4
        · exact congrArg Page.area (f3 _)
  · refine ⟨?_, fun h => ?_⟩
    · rintro _ ⟨e, _, ha, hb⟩
      dsimp only at e ha hb
      subst e
      show Memory.rd (Memory.put s.warden.iram o bs) o' = _
      rw [Memory.rd_put, if_pos ⟨ha, hb⟩]
    · by_cases e : sp' = 4
      · subst e
        show Memory.rd (Memory.put s.warden.iram o bs) o' = Memory.rd s.warden.iram o'
        rw [Memory.rd_put, if_neg]
        rintro ⟨ha, hb⟩
        rcases h with h | h
        · simp [Loc.writable] at h
        · exact h ⟨rfl, .inr ⟨by simp, by simp⟩, ha, hb⟩
      · refine State.locByte_other _ _ _ ?_ ?_ ?_ ?_ ?_ ?_ ?_ <;> intro e' <;> dsimp only at e' <;> first | exact absurd e' e | rfl
  · refine ⟨?_, fun h => ?_⟩
    · rintro _ ⟨e, _, ha, hb⟩
      dsimp only at e ha hb
      subst e
      show Memory.rd (Memory.put s.warden.sram o bs) o' = _
      rw [Memory.rd_put, if_pos ⟨ha, hb⟩]
    · by_cases e : sp' = 5
      · subst e
        show Memory.rd (Memory.put s.warden.sram o bs) o' = Memory.rd s.warden.sram o'
        rw [Memory.rd_put, if_neg]
        rintro ⟨ha, hb⟩
        rcases h with h | h
        · simp [Loc.writable] at h
        · exact h ⟨rfl, .inr ⟨by simp, by simp⟩, ha, hb⟩
      · refine State.locByte_other _ _ _ ?_ ?_ ?_ ?_ ?_ ?_ ?_ <;> intro e' <;> dsimp only at e' <;> first | exact absurd e' e | rfl
  · refine ⟨?_, fun h => ?_⟩
    · rintro _ ⟨e, hu | hu, ha, hb⟩
      · dsimp only at e hu ha hb
        subst e hu
        simp [State.locPut, State.locByte, Memory.rd_put, ha, hb]
      · dsimp only at hu; omega
    · by_cases e : sp' = 7
      · subst e
        show Memory.rd ((s.updPage u _).page u').area o' = Memory.rd (s.page u').area o'
        rw [State.updPage_eq, State.page_setPage]
        split
        · next hu =>
          subst hu
          rw [Memory.rd_put, if_neg]
          rintro ⟨ha, hb⟩
          rcases h with h | h
          · simp [Loc.writable] at h
          · exact h ⟨rfl, .inl rfl, ha, hb⟩
        · rfl
      · refine State.locByte_other _ _ _ ?_ ?_ ?_ ?_ ?_ ?_ ?_ <;> intro e' <;> dsimp only at e' <;> first | exact absurd e' e | skip
        all_goals rfl
  · have hw : Loc.writable ⟨sp, u, o⟩ = false := by simp [Loc.writable]; omega
    refine ⟨fun h => absurd (hw.symm.trans h) (by decide), fun _ => ?_⟩
    have : s.locPut ⟨sp, u, o⟩ bs = s := by
      unfold State.locPut
      split <;> first | rfl | (next e => dsimp only at e; omega)
    rw [this]

/-- Bytes reach a memory with no drive-error record held: what was written reads back, and every other byte of every memory stands. -/
theorem State.locByte_markStale (s : State) (l m : Loc) : (s.markStale l).locByte m = s.locByte m := by
  unfold State.markStale
  dsimp only
  split
  · split
    · rfl
    · rw [State.updEng_eq]
      refine State.locByte_other _ _ _ ?_ ?_ ?_ ?_ ?_ ?_ ?_ <;> intro e <;> first | rfl | (rw [State.eng_setEng]; split <;> simp_all)
  · split <;> rfl

/-- Writing bytes at a location marks a changed word of an instruction RAM and changes no other field of a processor. -/
theorem State.locByte_storeBytes (s : State) (l m : Loc) (bs : List Byte) (h : l.space = 2 → ∀ e ∈ enginesOf l.unit, (s.eng e).deHeld = []) :
    (l.writable = true → l.covers bs.length m → (s.storeBytes l bs).locByte m = bs.getD (m.off - l.off) 0)
    ∧ ((l.writable = false ∨ ¬ l.covers bs.length m) → (s.storeBytes l bs).locByte m = s.locByte m) := by
  have hs : s.storeBytes l bs = (s.markStale l).locPut l bs := by
    unfold State.storeBytes
    dsimp only
    split
    · next h2 =>
      have hm : s.markStale l = s := by unfold State.markStale; rw [if_neg (by omega), if_neg (by omega)]
      rw [hm]
      have he : ∀ e, ((s.locPut l bs).eng e).deHeld = (s.eng e).deHeld := by
        intro e; unfold State.locPut; rw [h2]; rfl
      have key : ∀ (es : List Nat) (u : State), (∀ e ∈ es, (u.eng e).deHeld = []) → u.each es (fun s e => deFlush 16 s e) = u := by
        intro es
        induction es with
        | nil => intro u _; rfl
        | cons e es ih =>
          intro u hu
          have h0 : deFlush 16 u e = u := by
            have := hu e (by simp)
            unfold deFlush; simp [this]
          simp only [State.each, List.foldl_cons, h0]
          exact ih u (fun e he => hu e (by simp [he]))
      exact key _ _ (fun e hmem => by rw [he]; exact h h2 e hmem)
    · rfl
  rw [hs]
  obtain ⟨h1, h2⟩ := State.locByte_locPut (s.markStale l) l m bs
  exact ⟨h1, fun hh => (h2 hh).trans (State.locByte_markStale s l m)⟩


/-! ## Every memory operation keeps the canonical form -/

theorem Tbl.above_filter {α : Type} (d : α) (t : Tbl α) (f : Nat × α → Bool) : ∀ b, Tbl.above d b t → Tbl.above d b (t.filter f) := by
  induction t with
  | nil => intro b _; trivial
  | cons p t ih =>
    intro b h
    obtain ⟨i, v⟩ := p
    obtain ⟨hb, hv, ht⟩ := h
    rw [List.filter_cons]
    split
    · exact ⟨hb, hv, ih _ ht⟩
    · exact Tbl.above_mono d _ (by omega) (ih _ ht)

/-- A memory with some entries taken out keeps the form. -/
theorem Memory.wf_filter (m : Memory) (f : Nat × Byte → Bool) (h : Memory.wf m) : Memory.wf (m.filter f) :=
  (Tbl.wf_iff_above 0 _).2 (Tbl.above_filter 0 m f 0 ((Tbl.wf_iff_above 0 m).1 h))

theorem Memory.wf_putNum (m : Memory) (a n v : Nat) (h : Memory.wf m) : Memory.wf (Memory.putNum m a n v) := Memory.wf_put _ m a h

theorem Tbl.above_shift {α : Type} (d : α) (t : Tbl α) (lo : Nat) : ∀ b, lo ≤ b → Tbl.above d b t →
    Tbl.above d (b - lo) (t.map fun p => (p.1 - lo, p.2)) := by
  induction t with
  | nil => intro b _ _; trivial
  | cons p t ih =>
    intro b hl h
    obtain ⟨i, v⟩ := p
    obtain ⟨hb, hv, ht⟩ := h
    have := ih (i + 1) (by omega) ht
    exact ⟨Nat.sub_le_sub_right hb lo, hv, by rwa [show i - lo + 1 = i + 1 - lo by omega]⟩

theorem Tbl.above_from {α : Type} (d : α) (t : Tbl α) (lo : Nat) (h : ∀ p ∈ t, lo ≤ p.1) : ∀ b, Tbl.above d b t → Tbl.above d (max b lo) t := by
  cases t with
  | nil => intro b _; trivial
  | cons p t =>
    intro b hb
    exact ⟨max_le hb.1 (h p (List.mem_cons_self ..)), hb.2⟩

/-- A part of a memory, moved down, keeps the form. -/
theorem Memory.wf_slice (m : Memory) (lo hi : Nat) (h : Memory.wf m) : Memory.wf (Memory.slice m lo hi) := by
  refine (Tbl.wf_iff_above 0 _).2 ?_
  have a := Tbl.above_filter 0 m (fun p => lo ≤ p.1 && p.1 < hi) 0 ((Tbl.wf_iff_above 0 m).1 h)
  have b := Tbl.above_from 0 _ lo (by intro p hp; have := (List.mem_filter.1 hp).2; simp at this; exact this.1) 0 a
  have c := Tbl.above_shift 0 _ lo _ (le_max_right 0 lo) b
  exact Tbl.above_mono 0 _ (Nat.zero_le _) c

/-- Every memory of the part is in canonical form. -/
structure State.MemWf (s : State) : Prop where
  engines : ∀ e, Memory.wf (s.eng e).iram ∧ Memory.wf (s.eng e).dram
  tiles : ∀ t, Memory.wf (s.tile t).scratch
  pages : ∀ p, Memory.wf (s.page p).area
  buffers : Memory.wf s.stackA ∧ Memory.wf s.stackB
  warden : Memory.wf s.warden.iram ∧ Memory.wf s.warden.sram
  nor : Memory.wf s.boot.nor

/-- The memories at reset are in canonical form. -/
theorem State.reset_memWf : State.reset.MemWf :=
  ⟨fun _ => ⟨rfl, rfl⟩, fun _ => rfl, fun _ => rfl, ⟨rfl, rfl⟩, ⟨rfl, rfl⟩, rfl⟩

theorem State.dramSet_memWf (s : State) (a : Nat) (bs : List Byte) (h : s.MemWf) : (s.dramSet a bs).MemWf := by
  unfold State.dramSet
  split
  · exact { h with buffers := ⟨Memory.wf_put _ _ _ h.buffers.1, h.buffers.2⟩ }
  · exact { h with buffers := ⟨h.buffers.1, Memory.wf_put _ _ _ h.buffers.2⟩ }

theorem State.recInit_memWf (s : State) (a : Nat) (h : s.MemWf) : (s.recInit a).MemWf := by
  unfold State.recInit
  split
  · rename_i l _
    have k := s.dramSet_memWf (a / 16 * 16) l h
    exact ⟨k.engines, k.tiles, k.pages, k.buffers, k.warden, k.nor⟩
  · exact h

/-- A write to buffer DRAM keeps the form of every memory. -/
theorem State.dramPut_memWf (bs : List Byte) : ∀ (s : State) (a : Nat), s.MemWf → (s.dramPut a bs).MemWf := by
  induction bs with
  | nil => intro s a h; exact h
  | cons b bs ih => intro s a h; exact ih _ _ ((s.recInit a).dramSet_memWf a [b] (s.recInit_memWf a h))

/-- A write at any location keeps the form of every memory. -/
theorem State.locPut_memWf (s : State) (l : Loc) (bs : List Byte) (h : s.MemWf) : (s.locPut l bs).MemWf := by
  unfold State.locPut
  split
  · refine ⟨fun e => ?_, h.tiles, h.pages, h.buffers, h.warden, h.nor⟩
    rw [State.updEng_eq, State.eng_setEng]
    split
    · exact ⟨Memory.wf_put _ _ _ (h.engines _).1, (h.engines _).2⟩
    · exact h.engines e
  · refine ⟨fun e => ?_, h.tiles, h.pages, h.buffers, h.warden, h.nor⟩
    rw [State.updEng_eq, State.eng_setEng]
    split
    · exact ⟨(h.engines _).1, Memory.wf_put _ _ _ (h.engines _).2⟩
    · exact h.engines e
  · refine ⟨h.engines, fun t => ?_, h.pages, h.buffers, h.warden, h.nor⟩
    rw [State.updTile_eq, State.tile_setTile]
    split
    · exact Memory.wf_put _ _ _ (h.tiles _)
    · exact h.tiles t
  · exact State.dramPut_memWf bs s _ h
  · exact { h with warden := ⟨Memory.wf_put _ _ _ h.warden.1, h.warden.2⟩ }
  · exact { h with warden := ⟨h.warden.1, Memory.wf_put _ _ _ h.warden.2⟩ }
  · refine ⟨h.engines, h.tiles, fun p => ?_, h.buffers, h.warden, h.nor⟩
    rw [State.updPage_eq, State.page_setPage]
    split
    · exact Memory.wf_put _ _ _ (h.pages _)
    · exact h.pages p
  · exact h

/-- Programming and erasing SPI NOR keep the form. -/
theorem State.norPut_memWf (s : State) (a : Nat) (bs : List Byte) (h : s.MemWf) : (s.norPut a bs).MemWf :=
  ⟨h.engines, h.tiles, h.pages, h.buffers, h.warden, Memory.wf_put _ _ _ h.nor⟩

theorem State.norErase_memWf (s : State) (a n : Nat) (h : s.MemWf) : (s.norErase a n).MemWf :=
  ⟨h.engines, h.tiles, h.pages, h.buffers, h.warden, Memory.wf_filter _ _ h.nor⟩

end Sys2Proof.Machine
end

