-- ==== Sys2Proof/Laws/Sialven.lean ====
section
/-!
SUPPORT. Laws of the Sialven core's shared operations: issue, completion, branches and taking an exception. A proof about one instruction
cites these and does not unfold them.
-/

namespace Sys2Proof.Machine

/-! ## Issue -/

/-- An instruction that can issue, breaks no rule of its own and needs no privilege it lacks runs its body (R40, R55, R69, R83). -/
theorem State.issue_runs {s : State} {p : Nat} {q : IssueReq} {body : State → State} (h : CanIssue s p q.uses)
    (hi : q.illegal = false) (hl : (q.laneOnly && decide (p = 128)) = false) (hd : (q.noSlot && (s.proc p).delay.isSome) = false)
    (hp : (q.priv && !(s.proc p).sup) = false) : s.issue p q body = .next (body s) := by
  have hb := h.free
  simp [State.issue, h.runs, h.fetch, hi, hl, hd, hp, hb]

/-- What issue can do: nothing, take one exception, or run the body. -/
theorem State.issue_cases (s : State) (p : Nat) (q : IssueReq) (body : State → State) :
    s.issue p q body = .next s ∨ (∃ c e, s.issue p q body = .next (s.takeException p c e)) ∨ s.issue p q body = .next (body s) := by
  unfold State.issue
  dsimp only
  split
  · exact .inl rfl
  · split
    · exact .inr (.inl ⟨_, _, rfl⟩)
    · split
      · exact .inr (.inl ⟨_, _, rfl⟩)
      · split
        · exact .inr (.inl ⟨_, _, rfl⟩)
        · split
          · exact .inl rfl
          · exact .inr (.inr rfl)

/-! ## Completion -/

theorem Proc.loopStep_keeps (r : Proc) (a x : Word) : KeepsRest r (r.loopStep a x).1 ∧ (r.loopStep a x).1.regs = r.regs
    ∧ (r.loopStep a x).1.mode = r.mode ∧ (r.loopStep a x).1.shadow = r.shadow ∧ (r.loopStep a x).1.delay = r.delay
    ∧ (r.loopStep a x).1.instret = r.instret := by
  unfold Proc.loopStep
  split
  · split <;> exact ⟨by constructor <;> rfl, rfl, rfl, rfl, rfl, rfl⟩
  · split
    · split <;> exact ⟨by constructor <;> rfl, rfl, rfl, rfl, rfl, rfl⟩
    · exact ⟨by constructor <;> rfl, rfl, rfl, rfl, rfl, rfl⟩

theorem Proc.loopStep_idle (r : Proc) (a x : Word) (h : r.lstat = 0) : r.loopStep a x = (r, x) := by
  simp [Proc.loopStep, h]

theorem KeepsRest.refl (r : Proc) : KeepsRest r r := by constructor <;> rfl

theorem KeepsRest.trans {a b c : Proc} (h : KeepsRest a b) (k : KeepsRest b c) : KeepsRest a c :=
  ⟨k.epc.trans h.epc, k.ecause.trans h.ecause, k.eval.trans h.eval, k.escratch.trans h.escratch, k.estat.trans h.estat, k.evec.trans h.evec,
   k.lstart0.trans h.lstart0, k.lend0.trans h.lend0, k.lstart1.trans h.lstart1, k.lend1.trans h.lend1, k.instretHi.trans h.instretHi,
   k.timeHi.trans h.timeHi, k.busy.trans h.busy, k.loads.trans h.loads, k.stores.trans h.stores, k.port.trans h.port,
   k.waiting.trans h.waiting, k.hash.trans h.hash, k.stale.trans h.stale⟩

theorem KeepsRest.setReg (r : Proc) (n : Nat) (v : Word) : KeepsRest r (r.setReg n v) := by
  constructor <;> simp

theorem Proc.endShadow_keeps (r : Proc) : KeepsRest r r.endShadow ∧ r.endShadow.regs = r.regs ∧ r.endShadow.mode = r.shadow.getD r.mode
    ∧ r.endShadow.shadow = none ∧ r.endShadow.delay = r.delay ∧ r.endShadow.lstat = r.lstat ∧ r.endShadow.lcount0 = r.lcount0
    ∧ r.endShadow.lcount1 = r.lcount1 ∧ r.endShadow.instret = r.instret ∧ r.endShadow.pc = r.pc := by
  unfold Proc.endShadow
  split
  · next m hm => exact ⟨by constructor <;> rfl, rfl, by simp [hm], rfl, rfl, rfl, rfl, rfl, rfl, rfl⟩
  · next hm => exact ⟨KeepsRest.refl _, rfl, by simp [hm], hm, rfl, rfl, rfl, rfl, rfl, rfl⟩

/-- The processor when the delay slot of `d` has completed, `u` being it with the link register written. -/
theorem Proc.slot_spec (r u : Proc) (d : Delay) (hd : r.delay = some d) (hkeep : KeepsRest r u)
    (hreg : ∀ n, u.reg n = if n = 0 then 0 else (r.linkAt n).getD (r.reg n))
    (hsame : u.mode = r.mode ∧ u.instret = r.instret ∧ u.lstat = r.lstat ∧ u.lcount0 = r.lcount0 ∧ u.lcount1 = r.lcount1) :
    let v : Proc := { u with delay := none, instret := u.instret + 2 }
    let z : Proc := if d.taken then { v.leaveLoops d.target with pc := d.target &&& ~~~3#32 }
      else { (v.loopStep v.pc (d.branch + 8)).1 with pc := (v.loopStep v.pc (d.branch + 8)).2 &&& ~~~3#32 }
    KeepsRest r z ∧ z.mode = r.modeAfter ∧ z.delay = none ∧ (∀ n, z.reg n = if n = 0 then 0 else (r.linkAt n).getD (r.reg n))
    ∧ z.instret = r.instret + (if (some d).isSome then 2 else 1)
    ∧ (r.lstat = 0 → z.lstat = 0 ∧ z.lcount0 = r.lcount0 ∧ z.lcount1 = r.lcount1) := by
  obtain ⟨um, ui, ul, u0, u1⟩ := hsame
  intro v z
  have hv : KeepsRest u v := by constructor <;> rfl
  have hma : u.mode = r.modeAfter := by rw [um]; simp [Proc.modeAfter, hd]
  have hin : v.instret = r.instret + (if (some d).isSome then 2 else 1) := by simp [v, ui]
  by_cases ht : d.taken = true
  · have hz : z = { v.leaveLoops d.target with pc := d.target &&& ~~~3#32 } := if_pos ht
    rw [hz]
    refine ⟨KeepsRest.trans (KeepsRest.trans hkeep hv) (by constructor <;> rfl), hma, rfl, fun n => (hreg n) ▸ rfl, hin, ?_⟩
    intro h; simp [Proc.leaveLoops, v, ul, h, u0, u1]
  · have hz : z = { (v.loopStep v.pc (d.branch + 8)).1 with pc := (v.loopStep v.pc (d.branch + 8)).2 &&& ~~~3#32 } := if_neg ht
    rw [hz]
    obtain ⟨ka, kr, km, ks, kd, ki⟩ := Proc.loopStep_keeps v v.pc (d.branch + 8)
    refine ⟨KeepsRest.trans (KeepsRest.trans hkeep hv) ⟨ka.epc, ka.ecause, ka.eval, ka.escratch, ka.estat, ka.evec, ka.lstart0, ka.lend0,
      ka.lstart1, ka.lend1, ka.instretHi, ka.timeHi, ka.busy, ka.loads, ka.stores, ka.port, ka.waiting, ka.hash, ka.stale⟩, km.trans hma, kd,
      ?_, ki.trans hin, ?_⟩
    · intro n; rw [← hreg n]; simp only [Proc.reg, kr]; rfl
    · intro h
      have hl : v.lstat = 0 := ul.trans h
      rw [Proc.loopStep_idle _ _ _ hl]
      exact ⟨hl, u0, u1⟩

/-- Everything that completing an instruction does to its processor but the PC (R54, R59, R61, R71, R73, R82). -/
theorem Proc.retireTo_spec (r : Proc) (x : Word) :
    KeepsRest r (r.retireTo x) ∧ (r.retireTo x).mode = r.modeAfter ∧ (r.retireTo x).delay = none
    ∧ (∀ n, (r.retireTo x).reg n = if n = 0 then 0 else (r.linkAt n).getD (r.reg n))
    ∧ (r.retireTo x).instret = r.instret + (if r.delay.isSome then 2 else 1)
    ∧ (r.lstat = 0 → (r.retireTo x).lstat = 0 ∧ (r.retireTo x).lcount0 = r.lcount0 ∧ (r.retireTo x).lcount1 = r.lcount1) := by
  unfold Proc.retireTo
  rcases hd : r.delay with _ | d
  · obtain ⟨k, hr, hm, hs, hdl, hls, h0, h1, hi, hpc⟩ := r.endShadow_keeps
    dsimp only
    have hk := Proc.loopStep_keeps { r.endShadow with instret := r.instret + 1 } r.endShadow.pc x
    obtain ⟨ka, kr, km, ks, kd, ki⟩ := hk
    refine ⟨KeepsRest.trans k ⟨ka.epc, ka.ecause, ka.eval, ka.escratch, ka.estat, ka.evec, ka.lstart0, ka.lend0, ka.lstart1, ka.lend1,
      ka.instretHi, ka.timeHi, ka.busy, ka.loads, ka.stores, ka.port, ka.waiting, ka.hash, ka.stale⟩, ?_, ?_, ?_, ?_, ?_⟩
    · exact (km.trans hm).trans (by simp [Proc.modeAfter, hd])
    · exact (kd.trans hdl).trans hd
    · intro n
      have : Proc.linkAt r n = none := by simp [Proc.linkAt, hd]
      by_cases hn : n = 0
      · simp [hn]
      · have e : _ = r.regs := kr.trans hr
        simp only [Proc.reg, hn, if_false, this, Option.getD_none]
        rw [← e]
    · exact ki
    · intro h
      rw [Proc.loopStep_idle _ _ _ (by simpa [hls] using h)]
      exact ⟨by simpa [hls] using h, by simp [h0], by simp [h1]⟩
  · dsimp only
    have hreg : ∀ n, (match d.link with | some g => r.setReg g (d.branch + 8) | none => r).reg n
        = if n = 0 then 0 else (r.linkAt n).getD (r.reg n) := by
      intro n
      rcases hl : d.link with _ | g
      · by_cases hn : n = 0 <;> simp [Proc.linkAt, hd, hl, hn]
      · simp only [Proc.reg_setReg, Proc.linkAt, hd, hl, Option.some.injEq]
        by_cases hn : n = 0
        · simp [hn]
        · by_cases hg : g = n
          · subst hg; simp [hn]
          · simp [hn, hg, Ne.symm hg]
    have hkeep : KeepsRest r (match d.link with | some g => r.setReg g (d.branch + 8) | none => r) := by
      rcases d.link with _ | g
      · exact KeepsRest.refl r
      · exact KeepsRest.setReg r g _
    have hsame : (match d.link with | some g => r.setReg g (d.branch + 8) | none => r).mode = r.mode
        ∧ (match d.link with | some g => r.setReg g (d.branch + 8) | none => r).instret = r.instret
        ∧ (match d.link with | some g => r.setReg g (d.branch + 8) | none => r).lstat = r.lstat
        ∧ (match d.link with | some g => r.setReg g (d.branch + 8) | none => r).lcount0 = r.lcount0
        ∧ (match d.link with | some g => r.setReg g (d.branch + 8) | none => r).lcount1 = r.lcount1 := by
      rcases d.link with _ | g <;> simp
    exact Proc.slot_spec r _ d hd hkeep hreg hsame

/-! ## What a processor's own update leaves -/

/-- Updating a processor changes no byte of any memory. -/
@[simp] theorem State.locByte_setProc (s : State) (p : Nat) (r : Proc) (l : Loc) : (s.setProc p r).locByte l = s.locByte l := by
  unfold State.setProc
  split
  · rfl
  · have hi : ∀ k, ((s.setEng p { s.eng p with proc := r }).eng k).iram = (s.eng k).iram := by
      intro k; rw [State.eng_setEng]; split <;> simp_all
    have hd : ∀ k, ((s.setEng p { s.eng p with proc := r }).eng k).dram = (s.eng k).dram := by
      intro k; rw [State.eng_setEng]; split <;> simp_all
    unfold State.locByte
    rw [State.updEng_eq]
    split <;> first | rw [hi] | rw [hd] | rfl

theorem State.setProc_setProc_proc (s : State) (p : Nat) (r : Proc) : s.setProc p r = s.setProc p ((s.setProc p r).proc p) := by simp

/-- An instruction whose body sets gd in its processor and retires completes as `Completes` says (R38, R54, R59, R71, R73, R82). -/
theorem State.setReg_retire_completes (s : State) (p gd : Nat) (v x : Word) :
    Completes s (s.setProc p (((s.proc p).setReg gd v).retireTo x)) p gd (some v) := by
  obtain ⟨hk, hm, hdl, hr, hi, hl⟩ := Proc.retireTo_spec ((s.proc p).setReg gd v) x
  refine ⟨by simp, ?_, ?_, ?_, ?_, by simp⟩
  · intro n
    rw [State.proc_setProc_same, hr n]
    have : ((s.proc p).setReg gd v).linkAt n = (s.proc p).linkAt n := by simp [Proc.linkAt]
    rw [this, Proc.reg_setReg]
    by_cases hn : n = 0
    · simp [hn]
    · rcases (s.proc p).linkAt n <;> simp [hn]
  · rw [State.proc_setProc_same, hm]; simp [Proc.modeAfter]
  · intro h
    rw [State.proc_setProc_same]
    simpa using hl (by simpa using h)
  · rw [State.proc_setProc_same]
    exact KeepsRest.trans (KeepsRest.setReg _ _ _) hk

/-- An instruction that only retires its processor writes no register of its own. -/
theorem State.retire_completes (s : State) (p gd : Nat) (x : Word) : Completes s (s.setProc p ((s.proc p).retireTo x)) p gd none := by
  obtain ⟨hk, hm, hdl, hr, hi, hl⟩ := Proc.retireTo_spec (s.proc p) x
  refine ⟨by simp, ?_, ?_, ?_, ?_, by simp⟩
  · intro n
    rw [State.proc_setProc_same, hr n]
    by_cases hn : n = 0
    · simp [hn]
    · rcases (s.proc p).linkAt n <;> simp [hn]
  · rw [State.proc_setProc_same, hm]
  · intro h; rw [State.proc_setProc_same]; exact hl h
  · rw [State.proc_setProc_same]; exact hk

theorem State.writeReg_completes (s : State) (p gd : Nat) (v : Word) : Completes s (s.writeReg p gd v) p gd (some v) :=
  State.setReg_retire_completes s p gd v _

/-- An instruction that the issue checks let through and whose body writes `v` to gd completes. -/
theorem State.yields_issue {s : State} {c : Instr} {p gd : Nat} {v : Word} {q : IssueReq} {body : State → State} (hc : exec c s = s.issue p q body)
    (h : CanIssue s p q.uses) (hi : q.illegal = false) (hl : (q.laneOnly && decide (p = 128)) = false)
    (hd : (q.noSlot && (s.proc p).delay.isSome) = false) (hp : (q.priv && !(s.proc p).sup) = false) (hb : body s = s.writeReg p gd v) :
    s.yields c p gd v :=
  ⟨_, hc.trans (State.issue_runs h hi hl hd hp), hb ▸ State.writeReg_completes _ _ _ _⟩

/-- A register-to-register instruction that can issue completes with `f` of its sources in gd. -/
theorem State.yields_alu {s : State} {c : Instr} {p gd gs gt : Nat} {w v : Word} (f : Word → Word → Word) (hc : exec c s = s.aluOp p w gd gs gt f)
    (h : CanIssue s p [gd, gs, gt]) (hv : f ((s.proc p).reg gs) ((s.proc p).reg gt) = v) : s.yields c p gd v :=
  State.yields_issue hc h rfl rfl rfl rfl (hv ▸ rfl)

/-- A register-and-immediate instruction that can issue completes with `f` of its source in gd. -/
theorem State.yields_imm {s : State} {c : Instr} {p gd gs : Nat} {w v : Word} (f : Word → Word) (hc : exec c s = s.immOp p w gd gs f)
    (h : CanIssue s p [gd, gs]) (hv : f ((s.proc p).reg gs) = v) : s.yields c p gd v :=
  State.yields_issue hc h rfl rfl rfl rfl (hv ▸ rfl)

/-! ## Taking an exception (R75, R103) -/

/-- Outside an exception the processor enters its handler, and nothing else changes. -/
theorem State.takeException_enters (s : State) (p : Nat) (c v : Word) (h : (s.proc p).exl = false) :
    s.takeException p c v = s.setProc p ((s.proc p).entered c v) := by
  simp [State.takeException, h]

/-- A second exception halts a lane engine, with a fault event that holds EPC. -/
theorem State.takeException_lane (s : State) (p : Nat) (c v : Word) (h : (s.proc p).exl = true) (hp : p ≠ 128) :
    s.takeException p c v = (s.updEng p fun e => e.halted 2).faultEvent (dieOfTile (tileOf p)) 0x01 p (s.proc p).epc := by
  simp [State.takeException, h, hp]

/-- A second exception of the warden restarts it. -/
theorem State.takeException_warden (s : State) (c v : Word) (h : (s.proc 128).exl = true) : s.takeException 128 c v = s.wardenRestart 3 := by
  simp [State.takeException, h]

end Sys2Proof.Machine
end

