-- ==== Sys2Proof/Tests/Slice0.lean ====
section
/-!
SUPPORT. Small checks of the model against the spec, the checks of WellFormed, and for every statement a concrete state that meets its hypotheses.
-/

namespace Sys2Proof.Tests

set_option Elab.async false

open Sys2Proof.Machine

/-! ## Witnesses: states that meet the statements' hypotheses -/

/-- Every power domain on, firmware running. -/
def base : State :=
  { State.reset with pwr := { Pwr.init with domon := 0xFFFFFFFFFF, vinOn := true }, warden := { Warden.init with up := true, fw := true } }

/-- Engine 0 of `base` changed by `f`. -/
def eng0 (f : Engine → Engine) : State := base.updEng 0 f

/-- Engine 0 running with processor state `f` and its cipher unit tested. -/
def lane (f : Proc → Proc) : State := eng0 fun g => { g with run := 0, halt := false, cuFault := false, cuTesting := false, proc := f g.proc }

/-- A running engine 0 with g1 at data RAM, g2 = 8 and g3 = 5. -/
def lane0 : State := lane fun r => ((r.setReg 1 0x100000).setReg 2 8).setReg 3 5

theorem wit_RegisterOpsComplete : CanIssue lane0 0 [3, 2, 1] := ⟨by decide, by decide, by decide⟩

theorem wit_DivisionAndBitOpsComplete : CanIssue lane0 0 [3, 2, 1] ∧ CanIssue lane0 0 [3, 2] ∧ (lane0.proc 0).reg 0 = 0 ∧ (lane0.proc 0).reg 2 ≠ 0
    ∧ (let s := lane fun r => (r.setReg 1 0x80000000).setReg 2 0xFFFFFFFF; CanIssue s 0 [3, 1, 2] ∧ (s.proc 0).reg 1 = 0x80000000 ∧ (s.proc 0).reg 2 = 0xFFFFFFFF) :=
  ⟨⟨by decide, by decide, by decide⟩, ⟨by decide, by decide, by decide⟩, by decide, by decide, ⟨by decide, by decide, by decide⟩, by decide, by decide⟩

theorem wit_ImmediateOpsComplete : CanIssue lane0 0 [3, 2] ∧ CanIssue lane0 0 [3] := ⟨⟨by decide, by decide, by decide⟩, by decide, by decide, by decide⟩

/-- The warden with g1 at ICU_PEND0, and with 15 accesses in its port. -/
def warden1 : State := base.updProc 128 fun r => { r.setReg 1 0x910000 with port := [] }

theorem wit_LoadsIssueOrFault :
    (lane0.locs 0 0 (parts (0x100000 + 3) 4) = ([(⟨1, 0, 3⟩, 1), (⟨1, 0, 4⟩, 3)], none) ∧ (lane0.proc 0).loads.length < 4 ∧ lane0.locOn ⟨1, 0, 3⟩ = true)
    ∧ (CanIssue warden1 128 [2, 1] ∧ warden1.locs 128 0 (parts 0x910000 4) = ([(⟨9, 0, 0x910000⟩, 4)], none) ∧ (Loc.mk 9 0 0x910000).viaPort = true
      ∧ (warden1.proc 128).port.length < 16)
    ∧ (lane0.locs 0 0 (parts 0x400000 4) = ([(⟨10, 0, 0⟩, 4)], none) ∧ (lane0.proc 0).loads = [] ∧ (lane0.proc 0).stores = [])
    ∧ ((lane0.locs 0 0 (parts 0x120000 4)).2 = some 0x120000 ∧ lane0.locs 0 1 (parts 0x11FFFE 4) = ([(⟨1, 0, 0x1FFFE⟩, 2)], some 0x120000)
      ∧ (lane0.proc 0).hash.queue = [] ∧ (0x100001#32).toNat % 4 ≠ 0 ∧ lane0.locOf 0 3 0x400000 4 = none) :=
  ⟨by decide, ⟨⟨by decide, by decide, by decide⟩, by decide⟩, by decide, by decide⟩

theorem wit_LoadDataReturns : let s := lane fun r => { r with loads := [{ gd := 5, value := 7, loc := ⟨1, 0, 4⟩ }], busy := 0x20 }
    (s.proc 0).loads[0]? = some { gd := 5, value := 7, loc := ⟨1, 0, 4⟩ } ∧ (Loc.mk 1 0 4).coded = true := by decide

theorem wit_StoresIssueAndPerform :
    (lane0.locs 0 1 (parts (0x100000 + 3) 4) = ([(⟨1, 0, 3⟩, 1), (⟨1, 0, 4⟩, 3)], none) ∧ (lane0.proc 0).stores.length + 2 ≤ 8 ∧ (lane0.proc 0).hash.queue = [])
    ∧ (warden1.locs 128 1 (parts 0x910000 4) = ([(⟨9, 0, 0x910000⟩, 4)], none) ∧ (warden1.proc 128).hash.queue = [])
    ∧ lane0.locs 0 1 (parts 0x400000 4) = ([(⟨10, 0, 0⟩, 4)], none)
    ∧ (let s := lane fun r => { r with stores := [{ loc := ⟨2, 0, 8⟩, size := 4, value := 7 }, { loc := ⟨2, 0, 9⟩, size := 1, value := 7 }] }
      s.locOn ⟨2, 0, 8⟩ = true ∧ (Loc.mk 2 0 8).writable = true ∧ (∀ e ∈ enginesOf 0, (s.eng e).deHeld = [])
      ∧ ((s.proc 0).stores.take 1).any (fun y => y.word = (Store.mk ⟨2, 0, 9⟩ 1 7).word) = true) := by decide

theorem wit_AtomicsComplete : lane0.locOf 0 3 0x100000 4 = some ⟨1, 0, 0⟩ ∧ lane0.locOf 0 3 0x200000 4 = some ⟨2, 0, 0⟩ ∧ warden1.locOf 128 3 0x12000000 4 = some ⟨5, 0, 0⟩
    ∧ (lane0.proc 0).loads = [] ∧ (lane0.proc 0).stores = [] ∧ (lane0.proc 0).port = [] ∧ (lane0.proc 0).hash.queue = []
    ∧ (∀ e ∈ enginesOf 0, (lane0.eng e).deHeld = []) := by decide

theorem wit_BranchesIssue : (lane0.proc 0).delay = none ∧ CanIssue lane0 0 [1, 2] ∧ CanIssue lane0 0 [31] := ⟨by decide, ⟨by decide, by decide, by decide⟩, by decide, by decide, by decide⟩

/-- A taken branch whose slot is next, and one at the end of the last pass of both loop levels. -/
def inSlot : State := lane fun r => { r with pc := 0x14, delay := some { branch := 0x10, target := 0x40, taken := true, link := some 31, shadowOf := none } }
def atEnd (n : Word) : State := lane fun r => { r with pc := 0x20, lstat := 3#2, lend1 := 0x20, lcount1 := n, lend0 := 0x40, lcount0 := 2 }

theorem wit_CompletionMovesOn : CanIssue lane0 0 [] ∧ CanIssue inSlot 0 [] ∧ CanIssue (atEnd 1) 0 [] ∧ CanIssue (atEnd 2) 0 [] ∧ ((inSlot.proc 0).delay.map Delay.taken) = some true
    ∧ ((atEnd 1).proc 0).pc = ((atEnd 1).proc 0).lend1 :=
  ⟨⟨by decide, by decide, by decide⟩, ⟨by decide, by decide, by decide⟩, ⟨by decide, by decide, by decide⟩, ⟨by decide, by decide, by decide⟩, by decide, by decide⟩

/-- Level 0 active around an inner loop whose body is two ADDI words. -/
def looping : State := (lane fun r => { r with lstat := 1#2, lend0 := 0x40, lcount0 := 3 }).updEng 0 fun g => { g with iram := Memory.putNum (Memory.putNum [] 4 4 0x04000000) 8 4 0x04000000 }

theorem wit_LoopsComplete : (loopReason looping 0 (looping.proc 0) 2).1 = 0 ∧ (loopReason looping 0 (looping.proc 0) 0).1 = 1 ∧ (looping.proc 0).pc ≠ (looping.proc 0).lend0
    ∧ (loopReason (atEnd 1) 0 ((atEnd 1).proc 0) 2).1 = 2 ∧ (let s := looping.updProc 0 fun r => { r with lstat := 0 }; (loopReason s 0 (s.proc 0) 2).1 = 0) := by decide

theorem wit_ControlRegistersReadAndWrite : CanIssue lane0 0 [3] ∧ (lane0.proc 0).sup = true ∧ (lane0.proc 0).delay = none ∧ (lane0.proc 0).lstat = 0
    ∧ (let s := lane fun r => { r with timeHi := some 1 }; CanIssue s 0 [3] ∧ (s.proc 0).timeHi = some 1) :=
  ⟨⟨by decide, by decide, by decide⟩, by decide, by decide, by decide, ⟨by decide, by decide, by decide⟩, by decide⟩

/-- A tile whose cache holds keyslot 3, generation 2, VALID in entry 5, and engine 0 running with handle 0x32 in g1 and 0x01000000 in g2. -/
def cached : State :=
  (lane fun r => (r.setReg 1 0x32).setReg 2 0x01000000).updTile 0 fun t => t.setEntry 5 { CacheEntry.init with st := 2, key := 9, tag := { KeyTag.none with slot := 3, gen := 2 } }

theorem wit_KeyInstructionsAndKloadResolve :
    CanIssue cached 0 [4, 1] ∧ (cached.proc 0).sup = true ∧ ((cached.eng 0).ctx 1).st = 0 ∧ ((cached.eng 0).ctx 1).heldUse = none ∧ (cached.eng 0).cuFault = false
    ∧ ((cached.proc 0).reg 2).extractLsb' 24 8 ≠ 0 ∧ ((cached.proc 0).reg 1).extractLsb' 24 8 = 0 ∧ (cached.tile 0).find 3 = some 5 ∧ ((cached.tile 0).entry 5).st = 2
    ∧ (let s := lane0.updEng 0 fun g => g.setCtx 1 { KeyCtx.init with st := 3, status := 0 }
       ((s.eng 0).ctx 1).st = 3 ∧ (s.eng 0).refs 1 = false ∧ (s.eng 0).cuTesting = false)
    ∧ (let s := lane0.updEng 0 fun g => g.setCtx 1 { KeyCtx.init with st := 1, result := some 0, gd := some 4 }
       ((s.eng 0).ctx 1).st = 1 ∧ ((s.eng 0).ctx 1).result = some 0)
    ∧ (1 : EngId).val ≠ (0 : Pid).val ∧ tileOf (1 : EngId) = tileOf (0 : Pid) ∧ tileOf (8 : EngId) ≠ tileOf (0 : Pid) ∧ ((cached.updTile 0 fun t => { t with keyToken := some 1 }).tile 0).keyToken = some 1 :=
  ⟨⟨by decide, by decide, by decide⟩, by decide⟩

theorem wit_HashInstructionsComplete : CanIssue lane0 0 [4, 1, 2] ∧ lane0.hashFailed 0 = false ∧ lane0.habsLoc 0 0x100000 8 = some ⟨1, 0, 0⟩ ∧ lane0.habsLoc 0 0x11FFFC 8 = none
    ∧ (let s := lane fun r => { r with hash := { alg := some 0, data := [], queue := [{ loc := ⟨1, 0, 0⟩, len := 8 }], digest := some [1, 2, 3, 4] } }; (s.proc 0).hash.alg = some 0) :=
  ⟨⟨by decide, by decide, by decide⟩, by decide⟩

theorem wit_SystemOpsComplete : (lane0.proc 0).delay = none ∧ (lane0.proc 0).sup = true ∧ CanIssue lane0 0 [0] ∧ (lane0.proc 0).shadow = none ∧ ((lane0.proc 0).reg 0).toNat < 4
    ∧ 4 ≤ ((lane0.proc 0).reg 2).toNat ∧ lane0.wakeWord 0 = 0 ∧ (lane0.proc 0).loads = []
    ∧ (let s := (lane fun r => { r with waiting := true }).updEng 0 fun g => { g with dlHit := true, even := 0x80 }; s.wakeWord 0 ≠ 0 ∧ (s.proc 0).waiting = true ∧ (s.proc 0).ie = false) :=
  ⟨by decide, by decide, ⟨by decide, by decide, by decide⟩, by decide⟩

theorem wit_ExceptionsEnterOnce : (lane0.proc 0).exl = false ∧ CanIssue lane0 0 [] ∧ decodeSialven 0 0xFFFFFFFF = none
    ∧ (let s := lane fun r => { r with pc := 0x8000 }; s.running 0 = true ∧ s.fetchOk 0 0x8000 = false)
    ∧ (let s := (lane fun r => { r with mode := 3#2 }).updEng 0 fun g => { g with dlHit := true, even := 0x80 }; s.canAccept 0 = true ∧ (s.proc 0).ie = true ∧ s.wakeWord 0 ≠ 0)
    ∧ (let s := lane fun r => { r with estat := 0x82 }; (s.proc 0).exl = true ∧ CanIssue s 0 [])
    ∧ (let s := base.updProc 128 fun r => { r with estat := 0x82 }; (s.proc 128).exl = true ∧ CanIssue s 128 []) :=
  ⟨by decide, ⟨by decide, by decide, by decide⟩, by decide, by decide, by decide, ⟨by decide, by decide, by decide, by decide⟩, by decide, by decide, by decide, by decide⟩

theorem wit_UserModeTakesPriv : let s := lane fun r => { r with mode := 0 }
    CanIssue s 0 [] ∧ (s.proc 0).sup = false ∧ (s.proc 0).delay = none ∧ (s.proc 0).shadow = none ∧ ((s.proc 0).reg 1).toNat < 4 :=
  ⟨⟨by decide, by decide, by decide⟩, by decide⟩

theorem wit_EngineControlAndEventsTake : base.tileOn 0 = true ∧ (base.eng 0).run = 2
    ∧ (let s := eng0 fun g => { g with run := 0, halt := true }; (s.eng 0).run = 0 ∧ (s.eng 0).halt = true ∧ (s.eng 0).proc.shadow = none)
    ∧ (let s := eng0 fun g => { g with iram := Memory.putNum [] 0 4 (encImm 0x01 3 0 5).toNat }
       Memory.bytes (s.eng 0).iram 0 4 = leBytes 4 (encImm 0x01 3 0 5).toNat ∧ (s.eng 0).halt = true ∧ (s.eng 0).haltpc = 0 ∧ (s.eng 0).proc.busy = 0)
    ∧ (let s := eng0 fun g => { g with dlArm := true, deadline := 0 }; (s.eng 0).dlArm = true ∧ (s.eng 0).deadline ≤ s.time) := by decide

theorem wit_TransfersStartAndEnd : base.tileOn 0 = true
    ∧ (let s := eng0 fun g => { g with stage := [(0x100, 0x3000), (0x104, 64)], dmDone := [1] }
       ((s.eng 0).slot (s.eng 0).desc.slot).xfer = none ∧ (s.eng 0).desc.dir = 3 ∧ s.badDesc 0 (s.eng 0).desc = false ∧ (s.eng 0).cuFault = false)
    ∧ (base.eng 0).desc.len = 0 := by decide

/-- A transfer of `len` bytes in direction `dir` from scratch 0x100 to scratch 0x200. -/
def moving (dir len : Nat) (c : Option Latched) : Xfer :=
  { phase := 0, dir := dir, func := 0, dport := 0, len := len, prp1 := 0, prp2 := 0, plen := len, src := 0x100, dst := 0x200, mofs := 0x400, msize := 0, c1 := c, c2 := none
    done := [], asm := [], ct := [], lbas := [], mdone := [], changed := false, held := [], accs := 0, parked := false, outcome := 0, lbaIdx := 0, used := 0, used2 := 0 }

/-- Slot 3 of engine 0 with a transfer and a command outstanding on drive 0, whose window is enabled. -/
def bound (x : Xfer) : State :=
  { (eng0 fun g => g.setSlot 3 { Slot.init with busy := true, xfer := some x
                                                drv := some { drive := 0, cid := 0, opc := 2, dnsid := 1, dlba := 0, nlb := 0, answered := false, seen := false, status := (0, 0, false), timedOut := false, dead := false, dw3 := 0, aborting := false } })
    with drives := [(0, { Drive.init with st := 3, window := true })] }

theorem wit_DriveAccessesComplete : let a := relayAddr 0 0 3 16
    let s := bound (moving 3 64 none)
    (s.drive 0).window = true ∧ s.relayIn 0 a = true ∧ relayKind a = false ∧ s.relayXfer 0 a = some (moving 3 64 none) ∧ relayOffset a + 48 ≤ 64 ∧ (s.drive 0).st ≠ 4
      ∧ (bound (moving 0 64 none)).relayXfer 0 a = some (moving 0 64 none) ∧ (bound (moving 2 64 none)).relayXfer 0 a = some (moving 2 64 none) := by decide

/-- A latched XTS key, and a GCM-sector key. -/
def xtsKey : Latched := { ctx := 0, key := 1, handle := 0x32, mode := 1, du := 0, tweak := 5, version := 0, tag := KeyTag.none }
def gcmKey : Latched := { xtsKey with mode := 2, version := 7 }

theorem wit_UnitTestsComplete : base.tileOn 0 = true ∧ (lane0.eng 0).cuTesting = false ∧ (eng0 fun g => { g with cuTesting := true, cuPeriodic := false }).tileOn 0 = true := by decide

/-- A tile whose cache fills keyslot 3 into entry 5 for engine 0's context 1, and whose entry 0 at the hand is a victim. -/
def filling : State :=
  ((eng0 fun g => g.setCtx 1 { KeyCtx.init with st := 2 }).updEng 1 fun g => g.setCtx 0 { KeyCtx.init with st := 2 }).updTile 0 fun t =>
    { (t.setEntry 5 { CacheEntry.init with st := 1, tag := { KeyTag.none with slot := 3 }, reqs := [{ eng := 0, ctx := 1, gen := 2 }] }) with waitq := [{ eng := 1, ctx := 0, slot := 9, gen := 0 }] }
/-- A tile with every entry VALID, so that fewer than LOWWATER are free. -/
def fullTile : State := base.updTile 0 fun t => { t with cache := (List.range 512).map fun i => (i, { CacheEntry.init with st := 2, tag := { KeyTag.none with slot := i } }) }

theorem wit_KeyCacheServes : (filling.tile 0).find 3 = some 5 ∧ ((filling.tile 0).entry 5).st = 1 ∧ ((filling.tile 0).entry 5).reqs = [{ eng := 0, ctx := 1, gen := 2 }]
    ∧ ((filling.tile 0).entry 5).pinReq = none ∧ (filling.tile 0).pinGo = false ∧ filling.vault.wk = none ∧ ((filling.eng 0).ctx 1).st = 2
    ∧ (filling.tile 0).waitq = [{ eng := 1, ctx := 0, slot := 9, gen := 0 }] ∧ (filling.tile 0).freeEntry = some 0 ∧ (filling.tile 0).fillRoom = true ∧ (filling.tile 0).find 9 = none ∧ ((filling.eng 1).ctx 0).st = 2
    ∧ cached.tileOn 0 = true ∧ (cached.tile 0).find 3 = some 5 ∧ (cached.tile 0).pinned < 448 ∧ (cached.tile 0).pinGo = false ∧ (cached.tile 0).find 4 = none
    ∧ (((cached.updTile 0 fun t => t.setEntry 5 { t.entry 5 with pin := true }).tile 0).entry 5).pin = true ∧ filling.domOn 36 = true := by decide +kernel

theorem wit_KeyCacheServes_victim : (fullTile.tile 0).freeCount < (fullTile.tile 0).low ∧ ((fullTile.tile 0).entry (fullTile.tile 0).hand).st = 2
    ∧ (fullTile.tile 0).pinGo = false ∧ fullTile.tileOn 0 = true ∧ ((fullTile.tile 0).entry 0).pin = false ∧ ((fullTile.tile 0).entry 0).refd = false ∧ ((fullTile.tile 0).entry 0).delta = 0 := by decide +kernel

/-- A tile with a count to write back to keyslot 3, whose record in stack A is ACTIVE. -/
def counting : State :=
  { (base.updTile 0 fun t => { (t.setEntry 5 { CacheEntry.init with st := 2, delta := 7, tag := { KeyTag.none with slot := 3 } }) with wb := [{ tag := { KeyTag.none with slot := 3 }, count := 9, flush := false }] })
    with stackA := Memory.putNum (Memory.putNum [] (3 * 128) 4 (2 ^ 28 + 3)) (3 * 128 + 4) 4 (2 ^ 28) }

theorem wit_KeyCustodyAndCounts : (counting.tile 0).wb = [{ tag := { KeyTag.none with slot := 3 }, count := 9, flush := false }]
    ∧ (let r := counting.dramBytes (recAddr (counting.tile 0).ksbase 0 3) 128; recFmt r = 1 ∧ recSlot r = 3 ∧ recGen r = 0 ∧ recState r = 1)
    ∧ (counting.tile 0).find 3 = some 5 ∧ ((counting.tile 0).entry 5).delta ≠ 0 ∧ (counting.tile 0).purgeGo = false ∧ (counting.tile 0).wbPromoted = false
    ∧ (let s := { counting with vault := { counting.vault with wk := some 1, epochst := 1 } }; s.vault.wk = some 1 ∧ s.vault.line = [] ∧ s.tileOn 0 = true) ∧ base.tileOn 0 = true ∧ counting.tileOn 0 = true ∧ base.noCounts 0 = true
    ∧ (base.tile 0).due.any Prod.snd = false ∧ base.vault.wk = none ∧ (base.tile 0).purgeGo = false ∧ (counting.tile 0).wb ≠ [] ∧ (counting.tile 0).wb.length < 32 := by decide +kernel

/-- `counting` with a full write-back buffer and engine 0 holding the same key READY. -/
def crowded : State :=
  (counting.updTile 0 fun t => { t with wb := List.replicate 32 { tag := { KeyTag.none with slot := 4 }, count := 1, flush := false }, purgeGo := true }).updEng 0 fun g =>
    g.setCtx 1 { KeyCtx.init with st := 3, status := 0, tag := { KeyTag.none with slot := 3 } }

theorem wit_KeyCustodyAndCounts_full : (crowded.tile 0).find 3 = some 5 ∧ ((crowded.tile 0).entry 5).delta ≠ 0 ∧ 32 ≤ (crowded.tile 0).wb.length
    ∧ crowded.reportReg 0 ((crowded.tile 0).entry 5).tag = some (0, 1) ∧ ((crowded.eng 0).ctx 1).heldUse = none ∧ (crowded.tile 0).purgeGo = true := by decide +kernel
/-- A part in service: UP0 in L0 on group 0, a drive ACTIVE behind port 8, controller 0 a tenant with admin queue pair 0 and I/O queue pair 1, namespace 1 of 1,000 LBAs in one
extent under keyslot 3, whose key engine 0 holds READY in context 1, and a page of every kind. -/
def sys : State :=
  { base with
    groups := [(0, { Group.init with mode := 0x102, en := 1, perst := 0, links := [(0, { st := 3, rate := 4, width := 8, sepclk := false, retrain := false, c1times := [] })] }),
               (4, { Group.init with mode := 0x002, en := 1, perst := 0, relay := [(0, 9)], links := [(0, { st := 3, rate := 4, width := 8, sepclk := false, retrain := false, c1times := [] })] })]
    ports := [(0, { UpPort.init with perst := false, ready := true })]
    drives := [(16, { Drive.init with st := 2, link := true, window := true, step := 8, ncq := 16, ident := { DrvId.init with sqs := 16, cqs := 16 } })]
    ctls := [(0, { Ctl.init with tenant := true, funcOn := true, ccEn := true, rdy := true, attach := [(1, 1)], admw0 := 0x00640064, admw1 := 0x80100100, bktC := 20000000
                                 sqs := [(0, { Sq.init with live := true, size := 16, tail := 1 }), (1, { Sq.init with live := true, size := 16, tail := 1, cq := 1 })]
                                 cqs := [(0, { Cq.init with live := true, size := 16 }), (1, { Cq.init with live := true, size := 16, vector := 1 })] })]
    nss := [(0, { Ns.init with valid := true, nsze := 1000, lbads := 9, nbands := 1, bands := [(0, { start := 0, handle := 0x80000032, next := 0 })]
                               extents := [{ nstart := 0, len := 1000, dport := 8, dnsid := 1, dstart := 0 }] })]
    quads := [(0, { Quad.init with en := true })]
    tiles := [(0, { Tile.init with drvSqs := [(16, { depth := 16, base := 0x2000, cqDepth := 16, cqHead := 0 })] })]
    queues := [(0, { Queue.init with en := true }), (512, { Queue.init with en := true }), (1536, { Queue.init with en := true })]
    boot := { Boot.init with store := 1, booted := true }
    engines := [(0, { Engine.init with run := 0, halt := false, cuFault := false, cuTesting := false, cuLast := 0
                                       ctxs := [(1, { KeyCtx.init with st := 3, status := 0, handle := 0x32, mode := 1, tag := { KeyTag.none with slot := 3, gen := 2, mode := 1, nsx := 0 } })] })] }

/-- The transfer `x` in slot 3 of engine 0 of `sys`. -/
def sending (x : Xfer) : State := sys.updEng 0 fun g => g.setSlot 3 { Slot.init with busy := true, xfer := some x }

theorem wit_TransfersStartAndEnd_prp :
    let s := sys.updEng 0 fun g => { g with stage := [(0x100, 0x10003), (0x104, 512), (0x108, 2)] }
    s.goCheck 0 (s.eng 0).desc = 0 ∧ (s.eng 0).desc.dir ≤ 1 ∧ prpBad (s.eng 0).desc.prp1 (s.eng 0).desc.prp2 (s.eng 0).desc.plen = true ∧ (s.eng 0).cuTesting = false
      ∧ prpBad 0x1000 0 512 = false := by decide +kernel

theorem wit_CipherPassesComplete :
    (let x := { moving 0 512 (some xtsKey) with held := [{ drive := 0, offset := 20, len := 8, isMeta := false }] }
     let h : HeldRead := { drive := 0, offset := 20, len := 8, isMeta := false }
     let data : List Byte := List.replicate 16 0
     (((sending x).eng 0).slot 3).xfer = some x ∧ x.phase = 0 ∧ x.parked = false ∧ x.c1 = some xtsKey ∧ ((sending x).ctl x.func).hostq = [] ∧ (sending x).canSend x.func = true
      ∧ xtsKey.gcm = false ∧ x.held = [h] ∧ h.isMeta = false ∧ h.cover = (16, 32) ∧ data.length = h.cover.2 - h.cover.1)
    ∧ (let x := moving 0 512 (some gcmKey)
       let data : List Byte := List.replicate 512 0
       (((sending x).eng 0).slot 3).xfer = some x ∧ (sending x).canSend x.func = true ∧ gcmKey.gcm = true ∧ x.lbaCount = 1 ∧ (x.lba 0).record = none ∧ data.length = x.unit ∧ x.held = [])
    ∧ (let x := { moving 4 512 (some xtsKey) with c2 := some { xtsKey with key := 2 } }
       (((sending x).eng 0).slot 3).xfer = some x ∧ x.c1 = some xtsKey ∧ x.dir = 4) := by decide +kernel

/-- Slot 3 of engine 0 of `sys`, delivered and first in its command queue, with class and submission entry. -/
def withCmd (cls : Nat) (sqe : List Word) : State :=
  sys.updEng 0 fun g => { g.setSlot 3 { Slot.init with busy := true, delivered := true, cls := cls, func := 0, sqid := 1, cid := 7, sqe := sqe, nsx := 0 } with cmdq := [3] }

theorem wit_SlotsAndSpillComplete : let s := withCmd 1 [0x00070002]
    let x := (s.eng 0).slot 3
    s.tileOn 0 = true ∧ x.busy = true ∧ x.delivered = true ∧ x.cls = 1 ∧ x.xfer = none ∧ x.posted = false ∧ x.mute = false ∧ (s.ctl 0).ending = false ∧ (s.ctl 0).cfs = false
      ∧ ((s.ctl 0).sq 1).deleting = none ∧ s.spillRoom 0 = true ∧ ((s.ctl 0).sq 1).live = true
      ∧ s.cplHeld 0 { sqid := 1, cid := 7, dw0 := 0, sct := 0, sc := 0, dnr := false, crd := 0, src := some (0, 3) } = false ∧ (s.eng 0).freeSlots ≠ [] ∧ (s.eng 0).spOut < 4
      ∧ (s.tile 0).spq = [] ∧ 0 ∉ (s.tile 0).spUsed ∧ (List.range 512).find? ((s.tile 0).runFree 2) = some 0 ∧ s.cplRoom (portOf 0) = true
      ∧ (s.setQueue 1536 Queue.init).cplRoom (portOf 0) = false ∧ (s.eng 0).dcqHold = [] ∧ (∀ p ∈ s.molts, p.2.engine = 0 → s.moltReady p.1 = false)
      ∧ ((0 : EngId) ≠ 1 ∧ (1 : EngId).val / 8 = (0 : EngId).val / 8 ∧ ((s.updTile 0 fun t => { t with spToken := some 1 }).tile 0).spToken = some 1)
      ∧ (let t := s.updTile 0 fun t => { t with spq := [{ eng := 1, run := 2 }] }; (t.tile 0).spq ≠ [] ∧ (List.range 512).find? ((t.tile 0).runFree 2) = some 0) := by decide +kernel

/-- `sys` with an epoch, and molt 5 of its band between keyslots 3 and 4, in state `st` with its window at `win`. -/
def molting (st win : Nat) : State :=
  let s := { sys with vault := { Vault.init with epochst := 1, epoch := 1, secret := 1, wk := some 1 }
                      molts := [(5, { Molt.init with st := st, win := win, nsx := 0, band := 0, old := 0x32, new := 0x40, bend := 1000, wend := 64, engine := 0 })] }
  (s.updQuad 0 fun x => x.setGate 5 { Gate.init with en := true, nsx := 1, closed := decide (1 ≤ win) }).setQueue 384 { Queue.init with en := true } |>.setQueue 256 { Queue.init with en := true }

theorem wit_MoltPostsAct : ((molting 2 2).queue 384).en = true ∧ ((molting 2 2).eng 0).moltPost = [] ∧ (molting 1 0).moltReady 5 = true ∧ (molting 1 0).moltGates 5 ≠ [] ∧ (molting 2 2).moltCauses 5 = [] ∧ ((molting 2 2).molt 5).win = 2 ∧ ((molting 2 2).molt 5).engine = 0
    ∧ (molting 2 2).fwUp = true ∧ (((molting 2 1).quad 0).gate 5).drained = true ∧ (molting 2 1).moltDrained 5 = true ∧ (((molting 2 1).quad 0).gate 5).drainedEvt = false
    ∧ (((molting 1 0).quad 0).gate 5).closed = false ∧ (((molting 2 3).quad 0).gate 5).held = [] ∧ ((molting 2 3).molt 5).wend < ((molting 2 3).molt 5).bend
    ∧ ((molting 2 4).molt 5).st ≠ 0
    ∧ ((molting 2 2).queue (256 + ((molting 2 2).molt 5).engine)).en = true ∧ ((molting 2 2).eng 0).moltq.length < 64 ∧ ((molting 2 2).molt 5).pcause = 0
    ∧ (let s := molting 1 0
       let t := s.updMolt 5 fun r => { r with st := 2, wlimit := s.moltLimit 5, promoted := false, lost := 0, since := s.now }
       (t.updMolt 5 fun r => { r with wend := r.wmark + t.moltWindow 5, win := 1 }).moltBlocks 0 ≤ 128)
    ∧ ((molting 2 2).molt 5).fails < 7 ∧ ((molting 2 2).molt 5).wmark < ((molting 2 2).molt 5).bend ∧ ((molting 2 3).molt 5).win = 3 ∧ ((molting 2 1).molt 5).drains < 7
    ∧ (let s := (molting 1 0).updMolt 5 fun r => { r with lost := 256, retry := true }; (s.molt 5).promoted = false ∧ (s.molt 5).st ≠ 0 ∧ s.moltReady 5 = false ∧ 256 ≤ (s.molt 5).lost
        ∧ (s.molt 5).retry = true ∧ s.moltGates 5 ≠ [])
    ∧ (let s := (molting 2 2).updMolt 5 fun r => { r with lost := 256 }; 1 ≤ (s.molt 5).win ∧ (s.molt 5).win ≤ 4 ∧ (s.molt 5).promoted = false)
    ∧ (let s := { molting 2 3 with warden := { sys.warden with fw := false } }; s.fwUp = false ∧ (s.queue 384).en = true ∧ (s.eng 0).moltPost.length < 64
        ∧ ((s.setQueue 384 Queue.init).queue 384).en = false)
    ∧ (let s := (molting 2 1).updQuad 0 fun x => x.setGate 5 { x.gate 5 with cnt0 := 1, cnt1 := 1 }; ((s.quad 0).gate 5).closed = true ∧ ((s.quad 0).gate 5).drained = false ∧ (s.molt 5).win = 1) := by decide +kernel

/-- `sys` with a clock at which the committed bucket has filled. -/
def fed : State := { sys with time := 1000000 }

theorem wit_DispatchersServe : (sys.ctl 0).funcOn = true ∧ ((sys.ctl 0).sq 1).live = true ∧ 5 < ((sys.ctl 0).sq 1).size ∧ sys.barOpen 0 = true ∧ (sys.updCtl 0 fun c => { c with d3 := true }).barOpen 0 = false ∧ sys.release 0 = sys ∧ ((sys.ctl 0).cq 1).live = true ∧ ((sys.ctl 0).sq 2).live = false
    ∧ (sys.quad 0).gates = [] ∧ (sys.quad 0).en = true ∧ sys.flt.qquad.getLsbD 0 = false ∧ ringNext (fed.ring 0 true) (fed.quad 0).curA (fed.quad 0).turnA = some (0, 0)
    ∧ (let s := fed.updQuad 0 fun q => { q with curA := (0, 0), turnA := 8 }; ringNext (s.ring 0 true) (s.quad 0).curA (s.quad 0).turnA = some (0, 1)
       ∧ s.nsOf 0 1 = some 0 ∧ s.engineFor 0 = some 0 ∧ (s.eng 0).freeSlots ≠ [] ∧ s.pwr.stage < 3 ∧ (s.ctl 0).spill = []
       ∧ s.costOf 0 (0x00070002 :: List.replicate 15 0) * 2560 ≤ ((s.fillBkt 0).ctl 0).bktC ∧ s.nsOf 0 9 = none) := by decide +kernel

theorem wit_DispatchersServe_spill :
    (let en : Entry := { func := 0, sqid := 1, sqe := 0x00070002 :: List.replicate 15 0, nsx := 0, cost := 1, fetched := 0, heldBy := none, conflict := false }
     let s := (fed.updCtl 0 fun c => { c with spill := [{ entry := en, since := 0 }] }).setQueue 512 { Queue.init with en := true, headW := 5 }
     s.release 0 = s ∧ s.pwr.stage < 3 ∧ ((s.funcsOf 0).filter fun f => !(s.ctl f).spill.isEmpty) = [0] ∧ en.func = 0 ∧ 5 ≤ (s.queue 512).headW ∧ (s.quad (s.funcQuad 0)).gateFor en = none
      ∧ s.engineFor 0 = some 0 ∧ (s.eng 0).freeSlots ≠ [] ∧ en.cost * 2560 ≤ ((s.fillBkt 0).ctl 0).bktC
      ∧ (s.updEng 0 fun g => { g with run := 2 }).engineFor 0 = none ∧ (s.quad 0).en = true ∧ s.flt.qquad.getLsbD 0 = false)
    ∧ ringNext (sys.ring 0 true) (0, 0) 8 = some (0, 1) ∧ sys.funcQuad 0 = 0 ∧ sys.funcQuad 0 ≠ 1 ∧ (sys.ctl 0).cfs = false ∧ ((sys.ctl 0).sq 0).cids.contains 7 = false
    ∧ (let s := sys.updCtl 0 fun c => { (c.setCq 1 { c.cq 1 with head := 1, size := 2 }) with waitCpl := [{ sqid := 1, cid := 1, dw0 := 0, sct := 0, sc := 0, dnr := false, crd := 0, src := none }] }
       let s := s.updCtl 0 fun c => c.setCq 1 { c.cq 1 with tail := 0 }
       (s.ctl 0).d3 = false ∧ ((s.ctl 0).waitCpl.any fun y => ((s.ctl 0).cq ((s.ctl 0).sq y.sqid).cq).full) = true) := by decide +kernel

/-- `s` with `w` as controller 0's first admin entry. -/
def asked (w : List Word) (s : State := sys) : State := s.updQuad 0 fun q => { q with admin := [(0, w)] }
/-- An admin entry with opcode, NSID and dwords 10 and 11, and its data at 0x1000. -/
def entry (op nsid d10 d11 : Nat) : List Word :=
  [BitVec.ofNat 32 (7 * 65536 + op), BitVec.ofNat 32 nsid, 0, 0, 0, 0, 0x1000, 0, 0, 0, BitVec.ofNat 32 d10, BitVec.ofNat 32 d11, 0, 0, 0, 0]
/-- The same without data. -/
def bare (op nsid d10 : Nat) : List Word := [BitVec.ofNat 32 (7 * 65536 + op), BitVec.ofNat 32 nsid, 0, 0, 0, 0, 0, 0, 0, 0, BitVec.ofNat 32 d10, 0, 0, 0, 0, 0]
/-- The hypotheses of AdminReady for controller 0 in one term that Lean evaluates. -/
def askedOk (w : List Word) (s : State := sys) : Bool :=
  let s := asked w s
  s.fwUp && ((s.quad (s.funcQuad 0)).admin.find? (fun x => x.1 = 0)) == some (0, w) && !adminBad w && ((s.ctl 0).sq 0).live && ((s.ctl 0).sq 0).cq == 0
    && !((s.ctl 0).cq 0).full && (s.ctl 0).waitCpl.isEmpty && s.canSend 0

theorem wit_adminReady (w : List Word) (s : State) (h : askedOk w s = true) : AdminReady (asked w s) 0 w := by
  simp only [askedOk, Bool.and_eq_true, beq_iff_eq, Bool.not_eq_true', List.isEmpty_iff] at h
  obtain ⟨⟨⟨⟨⟨⟨⟨h1, h2⟩, h3⟩, h4⟩, h5⟩, h6⟩, h7⟩, h8⟩ := h
  exact ⟨h1, h2, h3, h4, h5, h6, h7, h8⟩

theorem wit_QueueCommandsComplete : AdminReady (asked (entry 5 0 (0x000F0002) 0x00020003)) 0 (entry 5 0 (0x000F0002) 0x00020003)
    ∧ (let w := entry 5 0 (0x000F0002) 0x00020003; fld (wd w 0) 7 0 = 5 ∧ fld (wd w 11) 15 2 = 0 ∧ anyDw w [8, 9, 12, 13, 14, 15] = false ∧ fld (wd w 10) 15 0 ≤ ioQueues 0 ∧ bitOf (wd w 11) 0 = true
        ∧ fld (wd w 11) 31 16 < vectorsOf 0 ∧ wd w 6 % 4096 = 0 ∧ ((sys.ctl 0).cq 2).live = false)
    ∧ (askedOk (entry 5 0 (0x000F0001) 0x00020003) = true ∧ ((sys.ctl 0).cq 1).live = true)
    ∧ (let w := entry 1 0 (0x000F0002) 0x00010001; askedOk w = true ∧ fld (wd w 11) 15 3 = 0 ∧ fld (wd w 12) 31 16 = 0 ∧ anyDw w [8, 9, 13, 14, 15] = false ∧ ((sys.ctl 0).sq 2).live = false)
    ∧ (let w := bare 4 0 2
       let s := sys.updCtl 0 fun c => c.setCq 2 { Cq.init with live := true, size := 16 }
       askedOk w s = true ∧ anyDw w [6, 7, 8, 9, 11, 12, 13, 14, 15] = false ∧ ((s.ctl 0).cq 2).live = true ∧ ∀ p ∈ (s.ctl 0).sqs, p.2.live = true → p.2.cq ≠ 2)
    ∧ (askedOk (bare 4 0 1) = true ∧ ∃ p ∈ (sys.ctl 0).sqs, p.2.live = true ∧ p.2.cq = 1)
    ∧ (askedOk (bare 0 0 1) = true ∧ sys.cmdsOf 0 (some 1) = [] ∧ (∀ p ∈ (sys.ctl 0).sqs, p.2.deleting = none) ∧ (sys.ctl 0).ending = false)
    ∧ (let s := sys.updCtl 0 fun c => { c with aers := [9], aens := [] }; askedOk (bare 8 0 0x90000) s = true ∧ (s.ctl 0).aers.contains 9 = true)
    ∧ (askedOk (bare 8 0 0x70001) = true ∧ (sys.ctl 0).spill = [] ∧ ∀ p ∈ (sys.quad 0).gates, p.2.held = [])
    ∧ askedOk (bare 0x0C 0 0) = true ∧ (sys.ctl 0).aens = [] ∧ (sys.ctl 0).aers.length < 4 ∧ askedOk (bare 0x0C 0 0) (sys.updCtl 0 fun c => { c with aers := [1, 2, 3, 4] }) = true
    ∧ askedOk (bare 0x0C 0 0) (sys.updCtl 0 fun c => { c with aens := [5] }) = true ∧ askedOk (bare 0x7F 0 0) = true ∧ adminOpcode 0x7F = false
    ∧ (let w := (entry 5 0 0x000F0002 0x00020003).set 12 1; askedOk w = true ∧ anyDw w [8, 9, 12, 13, 14, 15] = true) :=
  ⟨wit_adminReady _ _ (by decide +kernel), by decide +kernel⟩

theorem wit_AdminDataCommandsComplete : AdminReady (asked (entry 6 1 0 0)) 0 (entry 6 1 0 0) ∧ (asked (entry 6 1 0 0)).nsOf 0 1 = some 0 ∧ askedOk (entry 6 0 2 0) = true
    ∧ (let w := (entry 6 0 2 0).set 6 0x1002; askedOk w = true ∧ fld (wd w 14) 31 7 = 0 ∧ anyDw w [12, 13, 15] = false ∧ wd w 6 % 4 ≠ 0) ∧ askedOk (entry 2 0 0x03FF0077 0) = true
    ∧ askedOk (entry 2 0 0x03FF0004 0) = true ∧ askedOk (entry 9 0 8 5) = true ∧ askedOk (entry 9 0 7 0x00030003) = true ∧ askedOk (entry 10 0 8 0) = true ∧ askedOk (bare 0x80 1 0x200) = true ∧ askedOk (bare 0x80 1 0) = true
    ∧ askedOk (bare 0x84 0 4) = true ∧ askedOk (bare 0x84 0 1) = true ∧ sys.erases = [] ∧ sys.vault.regBusy ≠ 3 ∧ sys.tileOn 0 = true
    ∧ anyDw (bare 0x80 1 0x200) [6, 7, 8, 9, 11, 12, 13, 14, 15] = false ∧ askedOk (entry 9 0 0x77 0) = true ∧ featureId 0x77 = false
    ∧ (let s := sys.updCtl 0 fun c => { c with sqs := c.sqs.take 1, cqs := c.cqs.take 1 }
       askedOk (entry 9 0 7 0x00030003) s = true ∧ (∀ p ∈ (s.ctl 0).sqs, p.1 ≠ 0 → p.2.live = false) ∧ ∀ p ∈ (s.ctl 0).cqs, p.1 ≠ 0 → p.2.live = false) :=
  ⟨wit_adminReady _ _ (by decide +kernel), by decide +kernel⟩

/-- A Read of 8 LBAs from LBA 16, and a Flush. -/
def readSqe : List Word := [0x00070002, 1, 0, 0, 0, 0, 0x1000, 0, 0, 0, 16, 0, 7, 0, 0, 0]
def flushSqe : List Word := [0x00070000, 1, 0, 0, 0, 0, 0, 0, 0, 0, 0, 0, 0, 0, 0, 0]

theorem wit_IoCommandsComplete : (let s := withCmd 0 readSqe
    let g := s.eng 0
    let x := g.slot 3
    let n := s.ns x.nsx
    s.fwRuns 0 = true ∧ x.busy = true ∧ x.delivered = true ∧ x.started = false ∧ x.posted = false ∧ x.mute = false ∧ g.cmdq = [3] ∧ g.parts 3 = [] ∧ x.drv = none ∧ x.xfer = none ∧ x.worst = none
      ∧ x.op = 2 ∧ s.ioCheck x [] = none ∧ n.lbads = 9 ∧ sqeNlb x.sqe = 8 ∧ sqeSlba x.sqe = 16
      ∧ n.extentOf 16 = some { nstart := 0, len := 1000, dport := 8, dnsid := 1, dstart := 0 } ∧ s.extDrive { nstart := 0, len := 1000, dport := 8, dnsid := 1, dstart := 0 } = 16
      ∧ s.driveRow 0 16 = none ∧ (s.tile 0).sqRoom 16 = true ∧ (s.drive 16).ident.mdts = 0 ∧ (s.extNs { nstart := 0, len := 1000, dport := 8, dnsid := 1, dstart := 0 }).msize = 0 ∧ x.rung = false ∧ s.cplRoom (portOf x.func) = true
      ∧ ((s.ctl x.func).sq x.sqid).live = true ∧ s.cplHeld x.func { sqid := 1, cid := 7, dw0 := 0, sct := 0, sc := 0, dnr := false, crd := 0, src := some (0, 3) } = false
      ∧ prpBad (pair64 (x.sqe.getD 6 0) (x.sqe.getD 7 0)) (pair64 (x.sqe.getD 8 0) (x.sqe.getD 9 0)) 4096 = false ∧ 24 ≤ s.keyEnd 0 (n.bandOf 16) 16 ∧ s.keyAt 0 (n.bandOf 16) 16 = some 0x32
      ∧ g.findKey 0x32 = (0, 1) ∧ (g.ctx 1).tag.mode = 1 ∧ g.cuFault = false ∧ (g.ctx 1).tag.admits 0 = true ∧ s.funcQuad 0 = quadOfEng 0 ∧ g.accsHeld ≤ 1024)
    ∧ (let s := withCmd 0 flushSqe; s.ioCheck ((s.eng 0).slot 3) [] = none ∧ ((s.eng 0).slot 3).op = 0)
    ∧ ((((withCmd 4 readSqe).eng 0).slot 3).cls = 4 ∧ (((withCmd 4 readSqe).eng 0).slot 3).op = 2) := by decide +kernel

theorem wit_ControllerEventsComplete : (sys.ctl 0).funcOn = true ∧ (sys.ctl 0).ccEn = true ∧ sys.cmdsOf 0 none = [] ∧ (sys.ctl 0).d3 = false ∧ (sys.ctl 0).shn ≠ 1 ∧ sys.pwr.state = 0
    ∧ (let s := sys.updCtl 0 fun c => { c with ccEn := false, vecs := [(1, { Vec.init with masked := false, held := 2, timer := some 5 }), (2, { Vec.init with pending := true })] }
       (s.ctl 0).ccEn = false ∧ (s.ctl 0).ending = false ∧ ((s.ctl 0).vec 1).timer.isSome = true ∧ ((s.ctl 0).vec 1).held ≠ 0 ∧ ((s.ctl 0).vec 1).masked = false ∧ s.canSend 0 = true
       ∧ 2 < vectorsOf 0 ∧ ((s.ctl 0).vec 2).pending = true ∧ s.barOpen 0 = true ∧ s.pwr.mode = 0 ∧ ((s.ctl 0).vec 1).pending = false
       ∧ (((s.updCtl 0 fun c => { c with vecs := [(1, { Vec.init with masked := true, held := 2, timer := some 5 })] }).ctl 0).vec 1).masked = true)
    ∧ ((sys.updCtl 0 fun c => { c with d3 := true }).ctl 0).d3 = true ∧ sys.upLink 0 ≠ 8 := by decide +kernel

/-- A link of `sys`'s upstream port in state `st`, the port as `f` leaves it. -/
def linked (st : Nat) (f : UpPort → UpPort) : State :=
  (sys.updGroup 0 fun g => g.setLink 0 false { st := st, rate := 4, width := 8, sepclk := false, retrain := false, c1times := [] }).setPort 0 (f (sys.port 0))

theorem wit_PortEventsComplete : sys.upSlot 0 = some (0, 0) ∧ (sys.port 0).perst = false ∧ (sys.group 0).en.getLsbD 0 = true ∧ (sys.port 0).clkreqHigh ≠ true ∧ sys.portDir 0 = true ∧ ((sys.group 0).link 0 false).st ≠ 10 ∧ ((sys.group 0).link 0 false).st ≠ 8 ∧ linkWidth (sys.group 0) 0 8 = true
    ∧ (sys.ctl 0).cfs = false
    ∧ (let s := linked 5 fun p => { p with aspmL1 := true, l12 := true, clkreqHigh := true }
       s.upSlot 0 = some (0, 0) ∧ ((s.group 0).link 0 false).st = 5 ∧ (s.port 0).aspmL1 = true ∧ (s.port 0).l12 = true ∧ (s.port 0).clkreqHigh = true ∧ (s.port 0).l12thr ≤ 0)
    ∧ (let s := (linked 3 fun p => { p with perst := true }).updCtl 0 fun c => { c with d3 := true }
       s.upSlot 0 = some (0, 0) ∧ ((s.group 0).link 0 false).st = 3 ∧ s.allD3 0 = true ∧ (s.port 0).perst = true)
    ∧ ((linked 7 id).upSlot 0 = some (0, 0) ∧ (((linked 7 id).group 0).link 0 false).st = 7) := by decide +kernel

theorem wit_PortRequestsComplete : sys.portDir 0 = true ∧ (sys.group 0).upidx 0 = (0 : FuncId).val / 256 ∧ (sys.ctl 0).funcOn = true ∧ (sys.ctl 0).d3 = false ∧ (sys.ctl 0).ideReq = none
    ∧ (sys.ctl 1).funcOn = false ∧ sys.upPort 8 = none ∧ ((sys.group (8 / 2)).link (8 % 2) false).st = 3 ∧ sys.portDir 8 = false ∧ (sys.group 4).en.getLsbD 1 = false ∧ sys.cfgErr 4 = 0 ∧ (sys.group 0).en.getLsbD 0 = true
    ∧ ((sys.group 0).link 0 false).st = 3 ∧ (sys.group 4).dirUp 0 = false ∧ (sys.group 4).en.getLsbD 0 = true
    ∧ (sys.updGroup 8 fun g => { g with mode := 0x12 }).cfgErr 8 ≠ 0 := by decide +kernel

theorem wit_ReferenceClocksComplete :
    (let c : Clk := { Clk.init with a := 3, b := 3 }; c.switching = false ∧ c.auto = true ∧ 2 ≤ c.inp (!c.sel) ∧ c.inp (!c.sel) = 3)
    ∧ (let c : Clk := { Clk.init with a := 3 }; c.switching = false ∧ c.holdover = false ∧ c.inp (!c.sel) < 2)
    ∧ (let c : Clk := { Clk.init with holdover := true }; c.inp true < 2 ∧ c.holdover = true ∧ c.switching = false ∧ c.auto = true)
    ∧ (let c : Clk := { Clk.init with a := 2, b := 3, sel := true }; c.inp false = 2 ∧ c.switching = false ∧ c.holdover = false ∧ false = c.primary ∧ c.sel ≠ c.primary ∧ c.limit = false)
    ∧ (let c : Clk := { Clk.init with a := 2, auto := false, switching := true }; c.inp false = 2 ∧ c.switching = true ∧ c.auto = false) := by decide

/-- An identity that passes every check of bring-up. -/
def goodId : DrvId := { DrvId.init with cssNvm := true, mpsOk := true, sqs := 16, cqs := 16, mqes := 255 }
/-- Drive 20 of `sys` as `f` leaves a drive that came up. -/
def driven (f : Drive → Drive) : State := sys.setDrive 20 (f { Drive.init with link := true, window := true, step := 8, ncq := 4, st := 2 })
/-- Engine 8 of `sys` with a command of drive 20 outstanding in slot 3. -/
def driving (c : DrvCmd → DrvCmd) : State :=
  let s := (driven id).updTile 1 fun t => { t with drvSqs := [(20, { depth := 16, base := 0x2000, cqDepth := 16, cqHead := 0 })] }
  s.updEng 8 fun g => g.setSlot 3 { Slot.init with busy := true, drv := some (c { drive := 20, cid := 3, opc := 2, dnsid := 1, dlba := 0, nlb := 8, answered := false, seen := false, status := (0, 0, false), timedOut := false, dead := false, dw3 := 0, aborting := false }) }

/-- The warden's block for the admin queues of drive `d` can be had. -/
def blockOk (s : State) (d : Nat) : Bool := s.tileOn (admTile d) && (List.range 512).any ((s.tile (admTile d)).runFree 1)

theorem wit_DrivesServe :
    (let s := sys.setDrive 16 Drive.init; let l := linkOfDrive 16; s.carriesPort l.1 l.2.1 = true ∧ (s.group l.1).dirUp l.2.1 = false ∧ (s.group l.1).en.getLsbD l.2.1 = true
      ∧ (s.group l.1).perst.getLsbD l.2.1 = false ∧ l.2.2 = false ∧ linkWidth (s.group l.1) l.2.1 8 = true ∧ (s.drive 16).st = 0 ∧ (s.drive 16).parked = false ∧ blockOk s 16 = true)
    ∧ (let s := driven fun x => { x with step := 3, st := 1 }; s.fwUp = true ∧ (s.drive 20).link = true ∧ (s.drive 20).step = 3 ∧ (s.vendorDepth 20).drvReason 20 goodId = 0 ∧ s.usedNsids 20 = []
        ∧ (s.vendorDepth 20).drvReason 20 DrvId.init ≠ 0)
    ∧ (let s := driven id; s.fwUp = true ∧ (s.drive 20).st = 2 ∧ (s.drive 20).rtimes = [] ∧ (s.drive 20).vtimes = [] ∧ (15 : BitVec 32).toNat < 2 ^ (s.drive 20).ncq
        ∧ (1 : TileId).val = (s.drive 20).cqTile (1 : BitVec 32).toNat ∧ (((driving id).tile 1).drvSq 20).depth ≠ 0)
    ∧ (((((driving fun c => { c with aborting := true }).eng 8).slot 3).drv.map DrvCmd.aborting) = some true)
    ∧ (let s := (driving fun c => { c with answered := true, status := stOk }).updEng 8 fun g => g.setSlot 3 { g.slot 3 with xfer := some (moving 0 512 none) }
       (((s.eng 8).slot 3).xfer.map Xfer.phase) = some 0 ∧ (((s.eng 8).slot 3).drv.map DrvCmd.status) = some stOk ∧ s.fwRuns 8 = false)
    ∧ (let s := driven fun x => { x with st := 3, step := 20 }; s.fwUp = true ∧ (s.drive 20).st = 3 ∧ (s.drive 20).step = 20 ∧ blockOk s 20 = true)
    ∧ (let s := driven fun x => { x with st := 4 }; (s.drive 20).st = 4 ∧ (s.drive 20).parked = false ∧ (s.drive 20).link = true ∧ blockOk s 20 = true) := by decide +kernel

theorem wit_DrivesServe_completion : let s := (driving id).updTile 1 fun t => { t with scratch := Memory.putNum t.scratch (t.drvSq 20).hdr 4 2 }
    let x := s.drive 20
    let q := (s.tile (x.cqTile 1)).drvSq 20
    let a := s.updTile (x.cqTile 1) fun y => y.cqTake 20 (cqeWords q 2 1 3 0 0 0 false)
    x.window = true ∧ (1 : Fin 16).val < 2 ^ x.ncq ∧ q.cqDepth ≠ 0 ∧ (a.tile 1).sqHeadOk 20 1 = true ∧ cidEng 3 = 0 ∧ cidSlot 3 = 3
      ∧ (((s.eng 8).slot 3).drv.map fun c => (c.drive, c.answered, c.timedOut, c.cid)) = some (20, false, false, 3) ∧ ((s.eng 8).slot 3).parent = none ∧ ((s.eng 8).slot 3).mute = false := by
  decide +kernel

theorem wit_DrivesServe_room : let s := driven fun x => { x with step := 3, st := 1 }
    let dv := s.vendorDepth 20
    ∀ n < 16, s.tileOn n = true → ∃ b < 512, (s.tile n).runFree (DrvSq.blocks
      { depth := (dv.drive 20).depth, base := 0, cqDepth := if n % (16 / 2 ^ ncqOf goodId.cqs) = 0 then (dv.drive 20).depth * 16 / 2 ^ ncqOf goodId.cqs else 0, cqHead := 0 }) b = true := by
  decide +kernel

/-- `sys` with one fault event waiting on die 0. -/
def faulty (cause index : Nat) : State := { sys with flt := { sys.flt with events0 := [{ cause := cause, index := index, detail := 7, time := 9 }] } }

theorem wit_FaultsRecover : (faulty 0x30 0).fwUp = true ∧ ((faulty 0x30 0).fltEntry 0).st = 0 ∧ ((faulty 1 0).flt.events0.map FaultEvt.index) = [0] ∧ (faulty 1 0).flt.recs = []
    ∧ (faulty 1 0).masked 1 0 = false ∧ sys.flt.events0 = [] ∧ sys.dieLink = true
    ∧ (let s := ({ sys with flt := { sys.flt with recs := [{ level := 1, index := 0, esc := false, entry := 0, doneAt := none }] } }).updEng 0 fun g => { g with run := 2, ctxs := [] }
       (s.eng 0).drained = true ∧ s.tileOn 0 = true ∧ Tbl.get false s.flt.qeng 0 = false) := by decide +kernel

theorem wit_QueuesAndWardenComplete :
    (let s := sys.setQueue 512 { Queue.init with en := true, tailW := 32, rsize := 1 }; 32 ≤ (s.queue 512).tailW ∧ (s.queue 512).midB < fld (s.queue 512).rsize.toNat 15 0)
    ∧ (let s := sys.setQueue 512 { Queue.init with en := true, midB := 1, headW := 9 }; (s.queue 512).midB ≠ 0 ∧ (s.queue 512).headW < 10 ∧ (s.ctl 0).cfs = false)
    ∧ (let s := base.updProc 128 fun r => { r with port := [{ write := false, parts := [(⟨9, 0, 0x910000⟩, 4)], addr := 0x910000, value := 0, gd := 5, sext := false },
                                                            { write := true, parts := [(⟨9, 0, 0x910000⟩, 4)], addr := 0x910000, value := 7, gd := 0, sext := false }], busy := 0x20 }
       ((s.warden.proc.port[0]?).map PortAcc.gd) = some 5 ∧ ((s.warden.proc.port[1]?).map PortAcc.write) = some true ∧ s.warden.proc.port[15]? = none)
    ∧ base.warden.up = true ∧ base.domOn 36 = true ∧ base.vault.firstCroak = true
    ∧ (let s := base.updVault fun v => { v with firstCroak := false, lastSeq := 0xFFFF }; s.vault.firstCroak = false ∧ (0 : BitVec 16) = s.vault.lastSeq + 1 ∧ (1 : BitVec 16) ≠ s.vault.lastSeq + 1) := by
  decide +kernel

theorem wit_MailboxPagesServe : sys.windowOpen 0 = true ∧ (sys.page 0).st = 0 ∧ sys.pageServed 0 = true ∧ sys.erasesBefore = false ∧ (sys.page 0).discard = false
    ∧ (let s := sys.updPage 0 fun g => { g with area := Memory.putNum [] 4 4 2033, word := 512 }; 2032 < Memory.num (s.page 0).area 4 4 ∧ 512 ≤ (s.page 0).word)
    ∧ (let s := sys.updPage 0 fun g => { g with st := 1, checked := true, area := Memory.putNum [] 0 4 6 }
       (s.page 0).st = 1 ∧ (s.page 0).checked = true ∧ s.busyPage 0 = none ∧ (s.page 0).op ≠ 0x105)
    ∧ (let s := { sys with warden := { sys.warden with fw := false } }; s.windowOpen 0 = true ∧ s.pageServed 0 = false) ∧ ((sys.updPage 0 fun g => { g with st := 2, discard := true }).page 0).discard = true := by
  decide +kernel

/-- `sys` with one assembly at endpoint 0. -/
def assembling (bytes : Bytes) (done : Bool) : State := sys.setEp 0 { sys.ep 0 with asms := [{ src := 9, tag := 1, seq := 2, bytes := bytes, done := done }] }

theorem wit_MessagesServe : sys.domOn 36 = true ∧ (BitVec.ofNat 8 (sys.ep 0).eid).toNat = (sys.ep 0).eid ∧ (sys.ep 0).asms = [] ∧ sys.fwUp = true ∧ (sys.port 0).ready = true ∧ (sys.port 0).doe = []
    ∧ (((assembling [1] false).ep 0).asms.map Assembly.done) = [false] ∧ (((assembling [0x7E, 0x1F, 0x4C, 1] true).ep 0).asms.map Assembly.bytes) = [[0x7E, 0x1F, 0x4C] ++ [1]]
    ∧ ((assembling [0x7E, 0x1F, 0x4C, 1] true).page 1028).st = 0 ∧ ((assembling [0x7E, 0x1F, 0x4C, 1] true).page 1028).discard = false
    ∧ (let s := { sys with warden := { sys.warden with fw := false } }; s.fwUp = false ∧ (s.port 0).ready = true) := by decide +kernel

/-- The header of an ACTIVE record of keyslot `slot`, generation `gen`, CTRL owner 0, namespace `nsx`, band 0, and no key. -/
def recBytes (slot gen nsx : Nat) : Bytes := leBytes 4 (2 ^ 28 + gen * 2 ^ 24 + slot) ++ leBytes 4 (2 ^ 28 + 2 ^ 26 + 1) ++ leBytes 4 0 ++ leBytes 4 nsx

/-- `sys` with an epoch in force, ACTIVE records for the band's two keyslots, and the request `op` accepted on page `p`. -/
def paged (p op : Nat) (f : State → State) : State :=
  let s : State := { sys with vault := { Vault.init with epochst := 1, epoch := 1, secret := 1, wk := some 1, full := true, noise := true }
                              nss := [(0, (sys.ns 0).setBand 0 { start := 0, handle := 0x80000032, next := 0x80000040 })]
                              stackA := Memory.put (Memory.put [] (128 * 3) (recBytes 3 2 0)) (128 * 4) (recBytes 4 0 0) }
  (f s).updPage p fun g => { g with st := 2, req := BitVec.ofNat 32 op }

/-- ImdexReady in one term that Lean evaluates. -/
def readyOk (s : State) (p op : Nat) : Bool := s.mbxReady p op && !(s.page p).discard

theorem wit_imdexReady (s : State) (p op : Nat) (h : readyOk s p op = true) : ImdexReady s p op := by
  simp only [readyOk, Bool.and_eq_true, Bool.not_eq_true'] at h
  exact ⟨h.1, h.2⟩

theorem wit_imdexReady_all : ∀ op ∈ [1, 2, 3, 4, 0x101, 0x102, 0x103, 0x104, 0x105, 0x106, 0x107, 0x201, 0x202, 0x203, 0x204, 0x205, 0x301, 0x302, 0x303, 0x304, 0x305, 0x306, 0x307, 0x308, 0x309, 0x30A, 0x401, 0x402,
    0x403, 0x404, 0x405, 0x501, 0x502, 0x503, 0x504, 0x505, 0x601, 0x602, 0x603, 0x701, 0x702, 0x703, 0x704, 0x705, 0x706, 0x711, 0x712, 0x713, 0x721, 0x722, 0x723, 0x731, 0x732, 0x801, 0x802, 0x803, 0x804,
    0x805, 0x806, 0x807, 0x808, 0x809, 0x80A, 0x80B], readyOk (paged 1024 op id) 1024 op = true := by decide +kernel

theorem wit_actsOn : ActsOn 0 0 0 ∧ ActsOn 1024 255 255 := ⟨Or.inl ⟨by decide, rfl, rfl⟩, Or.inr ⟨by decide, by decide, rfl, by decide, by decide⟩⟩

theorem wit_IdentityAndKeysAnswer : ImdexReady (paged 0 0x104 id) 0 0x104
    ∧ (let s := paged 0 0x103 fun s => (s.setNs 0 ((s.ns 0).setBand 0 Band.init)).updVault fun v => { v with nonces := [(0, some 5)] }
       readyOk s 0 0x103 = true ∧ s.vaultTurn 0 = true ∧ s.vault.devkeyFail = false ∧ s.vault.noise = true ∧ (s.keyTarget 0 1 0 1 0 9).1 = 0
        ∧ Tbl.get none s.vault.nonces 0 = some (BitVec.ofNat 128 (ofLe (5 :: List.replicate 15 0))) ∧ s.tableAt + 2 ^ 27 ≤ 2 ^ 32 ∧ (s.keyTarget 0 1 0 1 0 9).2.2.1 < 2 ^ 20
        ∧ s.reqNsx 0 2 = none)
    ∧ portOf 256 ≠ 1024 - 1024 := ⟨wit_imdexReady _ _ _ (by decide +kernel), by decide +kernel⟩

/-- A page whose request is a key import under the nonce 5. -/
def importing : State :=
  (paged 0 0x103 fun s => (s.setNs 0 ((s.ns 0).setBand 0 Band.init)).updVault fun v => { v with nonces := [(0, some 5)] }).updPage 0 fun g =>
    { g with area := [(16, 1), (21, 1), (24, 5)] }

theorem wit_IdentityAndKeysAnswer_import :
    Memory.bytes (importing.page 0).area 16 1672 = importPayload 1 0 1 0 (5 :: List.replicate 15 0) (List.replicate 1568 0) (List.replicate 80 0) := by
  have h : ∀ a, 40 ≤ a → Memory.rd [(16, 1), (21, 1), (24, 5)] a = 0 := fun a h => by
    simp [Memory.rd, Tbl.get, show 16 ≠ a by omega, show 21 ≠ a by omega, show 24 ≠ a by omega]
  have e : Memory.bytes [(16, 1), (21, 1), (24, 5)] 40 1648 = List.replicate 1648 0 :=
    List.eq_replicate_iff.2 ⟨by simp [Memory.bytes], fun b m => by
      obtain ⟨i, -, rfl⟩ := List.mem_map.1 m
      exact h _ (by omega)⟩
  have split : ∀ (m : Memory) (a n k : Nat), Memory.bytes m a (n + k) = Memory.bytes m a n ++ Memory.bytes m (a + n) k := fun m a n k => by
    simp [Memory.bytes, List.range_add, Function.comp_def, Nat.add_assoc]
  calc _ = Memory.bytes [(16, 1), (21, 1), (24, 5)] 16 24 ++ Memory.bytes [(16, 1), (21, 1), (24, 5)] 40 1648 := split _ 16 24 1648
    _ = _ := by
        rw [e, show Memory.bytes [(16, 1), (21, 1), (24, 5)] 16 24 = leBytes 4 1 ++ [0, 1, 0, 0] ++ (5 :: List.replicate 15 0) by decide +kernel]
        simp only [importPayload, List.append_assoc, List.replicate_append_replicate]
        rfl

theorem wit_IdentityAndKeysAnswer_nonce : readyOk importing 0 0x103 = true ∧ importing.vaultTurn 0 = true
    ∧ importing.nonceKnown 0 (5 :: List.replicate 15 0) = true ∧ importing.nonceKnown 0 (6 :: List.replicate 15 0) = false
    ∧ ((importing.useNonce 0 (5 :: List.replicate 15 0)).keyTarget 0 1 0 1 0 9).1 = 0 ∧ importing.tableAt % 128 = 0 := by decide +kernel

theorem wit_ErasesComplete :
    (let s := paged 0 0x105 fun s => s.updPage 0 fun g => { g with area := Memory.put [] 16 [0] }
     readyOk s 0 0x105 = true ∧ Memory.num (s.page 0).area 16 1 = 0 ∧ s.erases.length < 2 ∧ s.vault.regBusy ≠ 3 ∧ s.nsOf 0 1 = some 0 ∧ 0 < (s.ns 0).nbands
       ∧ bandValid ((s.ns 0).band 0).handle = true ∧ s.recAdmits 0 (s.krec 3) = true ∧ s.nsOf 0 2 = none ∧ ∀ t < 16, (s.tile t).purgeGo = false)
    ∧ (let s := paged 1024 0x105 fun s => s.updPage 1024 fun g => { g with area := Memory.put [] 16 [3] }
       readyOk s 1024 0x105 = true ∧ Memory.num (s.page 1024).area 16 1 = 3 ∧ s.vault.noise = true ∧ s.vault.full = true ∧ s.vault.floorFuses < 1024 ∧ s.vault.epochst = 1 ∧ s.vault.devkeyFail = false)
    ∧ (let e : Erase := { origin := 0, page := 0, cid := none, scope := 3, key := 0, waiting := [2], reg := some 0, lined := false, lost := false, targets := [], rest := [], busy := [] }
       let s := { paged 0 0x105 id with erases := [e] }.updVault fun v => { v with line := [(2, 2)], regBusy := 1 }
       s.vault.line ≠ [] ∧ s.erases = [e] ∧ e.rest = [] ∧ (s.page 0).discard = false ∧ s.fwUp = true ∧ s.pwr.vinOn = true ∧ s.vault.regBusy.getLsbD 0 = true ∧ s.vault.regLined.getLsbD 0 = false
         ∧ s.vault.regBusy.getLsbD 1 = false ∧ e.lost = false ∧ s.tableAt % 128 = 0)
    ∧ (sys.updVault fun v => { v with regBusy := 3 }).vault.regBusy = 3 ∧ (paged 0 0x105 id).erases = [] ∧ (paged 0 0x105 id).vault.line = []
    ∧ (let s := (paged 1024 0x105 id).updVault fun v => { v with floorFuses := 1024 }; 1024 ≤ s.vault.floorFuses)
    ∧ (let s := (paged 0 0x105 id).updVault fun v => { v with regBusy := 1 }; s.vault.regBusy.getLsbD 0 = true ∧ s.vault.regLined.getLsbD 0 = false ∧ s.erases = [] ∧ s.pwr.vinOn = true)
    ∧ ((4 : BitVec 7) &&& sys.sensArmed ≠ 0 ∧ ((4 : BitVec 7) &&& sys.sensArmed).getLsbD (2 : Fin 7) = true ∧ sys.vault.mask = 0) := by decide +kernel

theorem wit_MoltRequestsAnswer :
    (let s := paged 0 0x201 id
     readyOk s 0 0x201 = true ∧ s.reqNsx 0 1 = some 0 ∧ s.moltStartCheck 0 0 0 = (0, 0, 0) ∧ s.moltStartCheck 0 0 1 ≠ (0, 0, 0) ∧ 0 ∈ s.funcs ∧ (s.ctl 0).attach = [(1, 1)])
    ∧ (let s := paged 0 0x201 fun s => s.setNs 0 ((s.ns 0).setBand 0 { start := 0, handle := 0x80000032, next := 0 })
       0 < (s.ns 0).nbands ∧ bandValid ((s.ns 0).band 0).handle = true ∧ s.recAdmits 0 (s.krec 3) = true ∧ bandValid ((s.ns 0).band 0).next = false)
    ∧ (∀ st ∈ [1, 2], let s := paged 0 0x202 fun s => s.setMolt 5 { Molt.init with st := st, old := 0x32, new := 0x40, bend := 1000 }
       readyOk s 0 0x202 = true ∧ s.recAdmits 0 (s.krec (handleSlot (s.molt 5).old)) = true ∧ (s.molt 5).st = st ∧ (s.molt 5).win ≤ 2 ∧ s.fwUp = true)
    ∧ (let s := paged 0 0x203 fun s => s.setMolt 5 { Molt.init with st := 3, old := 0x32, new := 0x40, bend := 1000, pcause := 1 }
       readyOk s 0 0x203 = true ∧ (s.molt 5).pcause ≠ 0 ∧ (s.molt 5).win = 0 ∧ (s.molt 5).wmark < (s.molt 5).bend ∧ s.moltCauses 5 = [])
    ∧ (let s := paged 1 0x205 fun s => s.setMolt 5 { Molt.init with st := 1, old := 0x32 }; s.recAdmits 1 (s.krec 3) = false ∧ (s.molt 5).st ≠ 0) := by decide +kernel

/-- An extent on drive 16, behind port 8. -/
def ext (lo len : Nat) : Extent := { nstart := lo, len := len, dport := 8, dnsid := 1, dstart := 5000 }

theorem wit_TenantsAndNamespacesAnswer :
    (let s := paged 1024 0x301 id
     readyOk s 1024 0x301 = true ∧ s.contractBad (s.withContract 1 100 0x80000000) 1 = none
       ∧ ((s.updPwr fun p => { p with railC := [(0, 550)] }).contractBad (s.withContract 1 0xFFFF 0xC0000000) 1).isSome = true)
    ∧ (sys.ctl 0).tenant = true ∧ (sys.ctl 0).attach = [(1, 1)] ∧ (∀ q ∈ (sys.ctl 1).attach, q.2 = 0) ∧ ((sys.updCtl 1 fun c => { c with tenant := true }).ctl 1).tenant = true
    ∧ (sys.ns 1).valid = false ∧ (sys.ns 0).valid = true
    ∧ (let s := paged 1024 0x304 fun s => (s.updDrive 16 fun x => { x with ident := { x.ident with nss := [(1, { DrvNs.init with live := true, nsze := 5100, lbads := 9 })] } }).setNs 1 { Ns.init with valid := true, nsze := 100, lbads := 9, nbands := 1, extents := [ext 0 100], staged := [(0, some (ext 0 100))] }
       s.extentsBad 1 (s.ns 1).stagedList = none ∧ (s.updNs 1 fun n => { n with staged := [(0, some (ext 1 99))] }).extentsBad 1
           ((s.updNs 1 fun n => { n with staged := [(0, some (ext 1 99))] }).ns 1).stagedList ≠ none
         ∧ (s.ns 1).valid = true ∧ (s.ns 1).extents ≠ [] ∧ Tbl.get 0 (s.ctl 0).attach 2 = 0 ∧ s.attachedAs 1 false = none ∧ (∀ q ∈ (s.ctl 0).attach, q.2 ≠ 1 + 1)
         ∧ s.bandSlots 1 ≤ 65536 ∧ (s.activeSlots fun r => recNsx r = 1) = [] ∧ (s.activeSlots fun r => recNsx r = 0) ≠ []) := by decide +kernel

theorem wit_OperatorRequestsAnswer :
    (let s := paged 1024 0x309 id; let t := s.updPwr fun w => { w with railC := Tbl.set 900 w.railC 0 550 }; s.homeSum 0 * 8 ≤ t.tileCapacity 0 * 7)
    ∧ (let s := paged 1024 0x309 fun s => s.updCtl 0 fun c => { c with admw0 := 0xFFFF, admw1 := 0xC0000000 }
       let t := s.updPwr fun w => { w with railC := Tbl.set 900 w.railC 0 550 }; t.tileCapacity 0 * 7 < s.homeSum 0 * 8)
    ∧ sys.operatorOf 1024 0 = true ∧ sys.operatorOf 1024 256 = false ∧ sys.modeLocked 8 0x000C0000 = false ∧ (sys.modeWrite 8 0x000C0000).ownErr 8 = 0
    ∧ sys.modeLocked 8 0x12 = false ∧ (sys.modeWrite 8 0x12).ownErr 8 = 1 ∧ (sys.ctl 0).hostq = [] ∧ (sys.ctl 0).waitCpl = [] ∧ (∀ v ∈ (sys.ctl 0).vecs, v.2.owed = false) ∧ sys.modeLocked 0 0 = true
    ∧ (sys.drive 16).st = 2 ∧ (sys.drive 16).rtimes = [] ∧ (sys.drive 16).overridden = false ∧ ((driven fun x => { x with st := 6 }).drive 20).st = 6 ∧ ((driven fun x => { x with st := 4 }).drive 20).parked = false
    ∧ (let s := driven fun x => { x with st := 6, ident := goodId }; ∀ n < 16, s.tileOn n = true → ((s.drvFree 20).updDrive 20 fun y => { y with ncq := ncqOf y.ident.cqs }).drvReserve 20 n ≠ none)
    ∧ blockOk (driven fun x => { x with st := 4 }) 20 = true ∧ sys.domOn 34 = true
    ∧ (let s := { sys with flt := { sys.flt with qeng := [(3, true)] } }; s.domMasked 1 3 = true ∧ (s.fltEntry 0).st = 0)
    ∧ ({ sys with boot := { sys.boot with capValid := true } }).boot.capValid = true := by decide +kernel

theorem wit_ClaimsAndPowerStatesAnswer : 63 + 1 ≤ claimSize 1 ∧ sys.claim 1 63 = none
    ∧ (let s := sys.setClaim 1 63 (some { holder := 1024, label := 7 }); (s.claim 1 63).map Claim.holder = some 1024 ∧ s.claim 1 62 = none) ∧ claimSize 6 ≠ 0 ∧ sys.pwr.state = 0
    ∧ (let s := paged 1024 0x503 fun s => (s.updPwr fun p => { p with state := 1 }).updCtl 0 fun c => { c with ccEn := false }
       readyOk s 1024 0x503 = true ∧ s.powerCheck 0 false = 0 ∧ s.pwr.state = 1 ∧ s.fwUp = true)
    ∧ (let s := paged 1024 0x503 fun s => { s with pwr := { s.pwr with vhold := 6000 } }.updCtl 0 fun c => { c with ccEn := false, rdy := false }
       s.powerCheck 1 false = 0 ∧ s.powerCheck 2 false = 0 ∧ s.pwr.vinOn = true ∧ s.pwr.mode = 0) ∧ (4 : Fin 6).val ≠ 0 ∧ sys.powerCheck 2 false ≠ 0 := by decide +kernel

theorem wit_FirmwareAndTestRequestsAnswer : sys.resetBarred = false ∧ sys.boot.booted = true ∧ sys.verifySlot true ≠ 0 ∧ cfgValid (Memory.bytes sys.boot.stage 0 4096) = false
    ∧ (let s := paged 1024 0x703 fun s => { s with boot := { s.boot with fwNext := some 0x3FFFFF } }; s.boot.fwNext = some 0x3FFFFF ∧ 0x3FFFFF + 1 ≤ 0x400000)
    ∧ (let s := paged 1024 0x705 fun s => { s with boot := { s.boot with booted := false, fwState := [(1, 2)] } }; s.spareBundle = true ∧ s.slotReport s.spareBundle = 2 ∧ s.boot.booted = false)
    ∧ (let s := paged 1024 0x705 fun s => { s with boot := { s.boot with booted := true, slotB := false, fwState := [(1, 2)] } }; s.slotReport s.spareBundle = 2 ∧ s.bundleVersion true ≤ s.bundleVersion false)
    ∧ (let s := paged 1024 0x731 fun s => s.updPage 0 fun g => { g with st := 1, area := Memory.putNum [] 0 2 0x105 }; s.resetBarred = true ∧ readyOk s 1024 0x731 = true)
    ∧ (let s := paged 1024 0x723 id; readyOk s 1024 0x723 = true ∧ s.vaultTurn 1024 = true ∧ s.vault.cmdBusy = false ∧ s.vault.noise = true ∧ s.tokenOk (List.replicate 4795 0) = false)
    ∧ (let s := paged 1024 0x732 fun s => ({ s with boot := { s.boot with store := 2 } }).updVault fun v => { v with ledgerLost := true }; s.vault.ledgerLost = true ∧ s.boot.store = 2) := by decide +kernel

/-- `paged` with a custody of two shares of two, both channel claims and the vault as `f` leaves it. -/
def custodial (op : Nat) (f : Vault → Vault) : State :=
  let s := (paged 1024 op id).updVault fun v => f { v with custody := some { m := 2, n := 2, gen := 255, epoch := 1, cards := [] }, poly := some [7] }
  let s := { s with boot := { s.boot with cfg := List.replicate 128 0 ++ [5, 10, 11, 12, 13, 14, 0, 0] ++ List.replicate 56 0xFF } }
  let s := [10, 11, 12, 13, 14].foldl (fun s k => s.setClaim 1 k (some { holder := 1024, label := 0 })) s
  [5, 6, 7].foldl (fun s k => s.setClaim 3 k (some { holder := 0xFFFF, label := 0 })) s

/-- A receive word that carries `b`, and what comes back from a card that answers the reset, IFSD, SELECT and GET KEY. -/
def rxWord (b : Byte) : Word := BitVec.ofNat 32 (b.toNat * 2 ^ 23 + parityOf b * 2 ^ 31)
def cardTalk : List (List Word) :=
  let block := (Card.init []).block
  [[0x3B, 0x80, 0x01, 0x81], block 0xC1 [254] ++ block 0xE1 [254], block 0 cardSelect ++ block 0 [0x90, 0],
    block 0x40 getKey ++ block 0x40 (List.replicate 97 0 ++ [0x90, 0])].map fun l => l.map rxWord

theorem wit_CustodyRequestsAnswer_card : ((custodial 0x803 id).cardKey 5 cardTalk).1 = some (List.replicate 97 0) ∧ ((custodial 0x803 id).cardKey 5 []).1 = none
    ∧ (custodial 0x803 id).domOn 37 = true ∧ (custodial 0x803 id).vault.devkeyFail = false ∧ (custodial 0x803 id).vault.noise = true
    ∧ ((custodial 0x806 fun v => { v with epochst := 4, custody := none, challenge := some 9 }).cardKey 5 cardTalk).1 = some (List.replicate 97 0) := by decide +kernel

theorem wit_CustodyRequestsAnswer :
    (let s := custodial 0x803 id
     readyOk s 1024 0x803 = true ∧ s.vaultTurn 1024 = true ∧ s.vault.cmdBusy = false ∧ s.cardPins (5 : Fin 64).val = some [10, 11, 12, 13, 14]
       ∧ (∀ k ∈ [10, 11, 12, 13, 14], (s.claim 1 k).map (·.serves 1024) = some true) ∧ (5 : Fin 64).val % 8 ≤ 5 ∧ (∀ k < 3, (s.claim 3 (5 + k)).map (·.serves 1024) = some true)
       ∧ s.vault.wk.isSome = true ∧ s.vault.custody.isSome = true ∧ s.vault.poly.isSome = true ∧ s.claim 3 9 = none)
    ∧ (let s := paged 1024 0x802 fun s => s.updVault fun v => { v with epochst := 0 }; s.vault.epochst = 0 ∧ s.vault.devkeyFail = false ∧ s.vault.noise = true ∧ s.vault.tamper = false)
    ∧ (∀ st ∈ [2, 3, 4], let s := custodial 0x805 fun v => { v with epochst := st, custody := none }; s.vault.epochst = st ∧ s.vault.tamper = false ∧ s.vault.shares = [] ∧ s.vault.cardFaults < 15
        ∧ s.vault.custody = none)
    ∧ (let s := custodial 0x808 fun v => { v with tamper := true }; s.vault.tamper = true ∧ (0 : BitVec 7) &&& s.sensArmed = 0 ∧ (1 : BitVec 7) &&& s.sensArmed ≠ 0) := by decide +kernel

theorem wit_VaultCommandsRun : (custodial 0 id).vault.cmdBusy = false ∧ (custodial 0 id).vault.devkeyFail = false ∧ (custodial 0 id).vault.wk = some 1 ∧ (custodial 0 id).vault.noise = true
    ∧ (custodial 0 id).vault.floorFuses < 1024 ∧ (custodial 0 id).vault.epochst = 1 ∧ (custodial 0 id).vault.full = true ∧ (custodial 0 fun v => { v with cmdBusy := true }).vault.cmdBusy = true
    ∧ (custodial 0 fun v => { v with devkeyFail := true }).vault.devkeyFail = true ∧ (custodial 0 fun v => { v with wk := none }).vault.wk = none
    ∧ (let s := custodial 0 fun v => { v with nonces := [(0, some 5)] }; Tbl.get none s.vault.nonces 0 = some (BitVec.ofNat 128 (ofLe (5 :: List.replicate 15 0))))
    ∧ (let s := custodial 0 fun v => { v with epochst := 4, challenge := some 9, custody := none, cardFaults := 14 }; s.vault.challenge = some 9 ∧ s.vault.shares = [] ∧ s.vault.cardFaults < 15)
    ∧ (let s := custodial 0 fun v => { v with tamper := true }; s.vault.tamper = true ∧ (0x40 : BitVec 7) &&& s.sensArmed ≠ 0) := by decide +kernel

theorem wit_VaultEventsTake : (0 : BitVec 7) &&& sys.sensArmed = 0 ∧ (4 : BitVec 7) &&& sys.sensArmed ≠ 0 ∧ ((4 : BitVec 7) &&& sys.sensArmed).getLsbD 2 = true ∧ sys.vault.mask = 0
    ∧ (let s := sys.updVault fun v => { v with wakecfg := [(7, 6)] }
       s.vault.wakeEn 7 = true ∧ (0x80 : U8).getLsbD 7 = s.vault.wakePol 7 ∧ s.pwr.vinOn = true ∧ s.pwr.state = 0 ∧ (s.updPwr fun p => { p with state := 1 }).pwr.mode = 1 ∧ s.pwr.mode = 0 ∧ s.fwUp = true ∧ (s.updPwr fun p => { p with state := 1 }).pwr.stage = 0
         ∧ (let t := s.updPwr fun p => { p with vinOn := false, vin := 6000 }; t.pwr.vinOn = false ∧ 6000 ≤ t.pwr.vin))
    ∧ sys.vault.epochst ≠ 1 ∧ sys.vault.nohold = false ∧ (4499 : BitVec 16).toNat < 4500 ∧ (sys.updVault fun v => { v with epochst := 4 }).vault.epochst = 4 ∧ 1024 ≤ (sys.updVault fun v => { v with laddr := 2047 }).vault.laddr ∧ (sys.updVault fun v => { v with laddr := 2047 }).vault.laddr < 2048 ∧ sys.vault.laddr < 512 := by decide +kernel

theorem wit_StartAndResetsTake : State.reset.pwr.vinOn = false ∧ State.reset.vinFell = true ∧ sys.pwr.vinOn = true
    ∧ (let s := { sys with warden := { sys.warden with fw := false }, boot := { sys.boot with booted := false } }
       s.warden.up = true ∧ s.domOn 36 = true ∧ s.warden.fw = false ∧ s.warden.recovery = false ∧ s.boot.recov = false ∧ s.verifySlot false ≠ 0 ∧ s.verifySlot true ≠ 0)
    ∧ (let s := { sys with warden := { sys.warden with fw := false }, boot := { sys.boot with booted := true } }; s.boot.booted = true ∧ s.verifySlot s.boot.slotB ≠ 0)
    ∧ (∀ k < 3, let s := { sys with boot := { sys.boot with store := 0, durable := { sys.boot.durable with ver := BitVec.ofNat 64 k } } }; s.fwUp = true ∧ s.cfgDefaulted = false ∧ s.boot.store = 0
        ∧ s.boot.durable.ver = s.vault.slotmapVer + BitVec.ofNat 64 k)
    ∧ (sys.group 8).en = 0 ∧ sys.domOn 33 = true ∧ sys.tileHalted 0 = false ∧ sys.pwr.domreq.getLsbD 36 = sys.domOn 36
    ∧ (let s := (sys.setDom 3 false).updPwr fun p => ({ p with domreq := 8 }.setRail 3 { p.rail 3 with cur := 900 }); s.pwr.domreq.getLsbD 3 = true ∧ s.tileOn 3 = false ∧ (s.pwr.rail 3).driven = true)
    ∧ (let s := sys.updPwr fun p => { p with domreq := 0 }; s.pwr.domreq.getLsbD 3 = false ∧ s.tileOn 3 = true ∧ s.noCounts 3 = true ∧ s.pwr.heldq = [] ∧ s.erases = [] ∧ s.domOn 34 = true)
    ∧ (let s := sys.setDom 37 false; s.domOn 37 = false ∧ (s.updPwr fun p => { p with domreq := 0xFF00000000 }).pwr.domreq.getLsbD 37 = true) := by decide +kernel

/-- A check value that does not fit the secret: the complement of the one that does. -/
theorem wit_StartAndResetsTake_check : (let v := { sys.vault with epochst := 1, check := checkOf sys.vault.secret sys.vault.epoch }; v.epochst = 1 ∧ v.check = checkOf v.secret v.epoch)
    ∧ (let v := { sys.vault with epochst := 1, check := ~~~checkOf sys.vault.secret sys.vault.epoch }; v.epochst = 1 ∧ v.check ≠ checkOf v.secret v.epoch) :=
  ⟨⟨rfl, rfl⟩, rfl, fun h => by
    have h := congrArg (BitVec.getLsbD · 0) h
    simp at h⟩

/-- Tile 0's rail driven at `mv` in `sys`, with the budget at `b`. -/
def railed (mv b : Nat) : State := sys.updPwr fun p => ({ p with budget := b }).setRail 0 { p.rail 0 with cur := mv, vout := mv, settledAt := mv, settled := true, target := mv, req := mv }

theorem wit_PowerEventsTake : (sys.pwr.stage + 1 ≤ 4 ∧ 9000 - 9000 < stageEnter 1 ∧ (sys.updPwr fun p => { p with stage := 4 }).pwr.stage = 4)
    ∧ (let s := sys.updPwr fun p => { p with stage := 2 }; stageLeave s.pwr.stage ≤ 40000 ∧ s.pwr.stage ≠ 0 ∧ s.pwr.thermClip = false ∧ s.pwr.overridden = true)
    ∧ sys.domOn 38 = true ∧ 110 ≤ degrees 110 ∧ degrees 99 < 100 ∧ 120 ≤ degrees 120 ∧ degrees 0xFF < 120 ∧ ((sys.glb.trip.toNat : Int) ≤ degrees 127)
    ∧ (degrees 0xD8 < (sys.glb.trip.toNat : Int) - sys.glb.hyst.toNat) ∧ sys.pwr.overridden = false
    ∧ (let s := railed 550 0; let r := s.pwr.rail 0; r.driven = true ∧ s.tileOn 0 = true ∧ r.held = none ∧ s.pwr.heldq = [] ∧ r.charge < (r.toward (railNorm 900)).charge
        ∧ s.pwr.fits 0 (r.toward (railNorm 900)) = false)
    ∧ (let s := railed 550 7040; let r := s.pwr.rail 0; s.pwr.fits 0 (r.toward (railNorm 900)) = true ∧ r.driven = true)
    ∧ ((sys.updPwr fun p => p.setRail 0 { p.rail 0 with settled := false }).pwr.rail 0).settled = false ∧ sys.domOn (34 + 15 / 8) = true
    ∧ ((sys.updPwr fun p => { p with sren := true }).pwr.sren = true) ∧ sys.pwr.vinOn = true ∧ sys.pwr.thermClip = false ∧ sys.pwr.mode = 0 ∧ sys.pwr.stage < 2
    ∧ (sys.updPwr fun p => { p with thermClip := true }).pwr.thermClip = true ∧ (sys.updPwr fun p => { p with vinOn := false }).pwr.vinOn = false ∧ sys.pwr.heldq = [] := by decide +kernel

/-- Context 1 of tadpole 0 running in its slot, with pin 3 under it as output and set base. -/
def tad : State :=
  let s := { sys with pio := { sys.pio with tads := [(0, { Tadpole.init with clk := true })] } }
  (s.updCtx 0 1 fun x => { x with st := 1, ccfg := 0x01000000, tx := [5] }).updPin 3 fun y => { y with cfg := 0x1002 }

theorem wit_TadpoleInstructionsComplete : tad.tadRuns 0 1 = true ∧ (tad.tctx 0 1).k0 = 0 ∧ (tad.tctx 0 1).ccfg.getLsbD 24 = true ∧ (tad.tctx 0 1).ccfg.getLsbD 25 = false
    ∧ Tbl.get 0 (tad.tctx 0 1).seen 0 = (tad.ticker 0).expires.toNat ∧ (tad.tctx 0 1).rx.length < 8 ∧ (tad.tctx 0 1).tx = [5] ∧ (tad.tad 0).flags.getLsbD 0 = false
    ∧ (0 : BitVec 5).toNat < 2 ^ (tad.tctx 0 1).setCnt ∧ 2 ^ (tad.tctx 0 1).setCnt ≤ (31 : BitVec 5).toNat ∧ tadLegal 0xFFFF = false := by decide +kernel

theorem wit_PinsAndLampsServe : tad.domOn 37 = true ∧ (tad.tctx 0 0).st = 0 ∧ (0 : Fin 8).val < (tad.tad 0).slotCount ∧ (tad.tctx 0 1).st = 1 ∧ (tad.tad 0).clk = true ∧ (tad.tctx 0 1).rx = []
    ∧ (custodial 0 id).cardPins (5 : Fin 64).val = some [10, 11, 12, 13, 14] ∧ (custodial 0 id).fwUp = true
    ∧ (let s := { sys with warden := { sys.warden with tickers := [(7, { Ticker.init with ctl := 0x80000000 })] } }; (s.ticker 7).ctl.getLsbD 31 = true)
    ∧ (let s := { sys with pio := { sys.pio with sinks := [(31, { Sink.init with ctrl := 0x80000000, last := 3 })] } }; ((s.sink 31).ctrl.getLsbD 31 = true ∧ (s.sink 31).vshort = 0 ∧ (s.sink 31).last = 3)) := by
  decide +kernel

theorem wit_RegisterWritesTake : sys.warden.up = true ∧ sys.domOn 36 = true ∧ sys.glb.boot.getLsbD 31 = false ∧ (Tbl.get Region.init sys.warden.regions 15).attr.getLsbD 31 = false
    ∧ sys.domOn (32 + 63 / 32) = true ∧ sys.domOn (32 + 3 / 2) = true ∧ sys.domOn (32 + 15 / 8) = true ∧ sys.tileOn 15 = true ∧ (sys.setDom 15 false).tileOn 15 = false
    ∧ (sys.drive 63).overridden = true ∧ (sys.drive 63).st ≠ 2 ∧ (sys.drive 16).overridden = false ∧ (sys.drive 16).st = 2 ∧ ((driven fun x => { x with st := 1 }).drive 20).st ≠ 2
    ∧ ((driven fun x => { x with st := 1 }).drive 20).overridden = false ∧ 0x3003 % 4 ≠ 0 ∧ 0x921000 + 16 * 1029 < 2 ^ 32 ∧ sys.tileOn (tileOf 127) = true := by decide +kernel

theorem wit_StepTakesFrontCommand : ({ sys with pending := [.croakMiss, .brumate] }).pending = .croakMiss :: [.brumate] ∧ sys.pending = [] ∧ sys.boot.resetDue = none := by decide


/-- A part in which engine 0 runs at an aligned PC in the delay slot of a JAL, and the vault holds an epoch. -/
def good : State :=
  { base with engines := [(0, inSlot.eng 0)], vault := { base.vault with epochst := 1, epoch := 8, floorFuses := 7, secret := 5, wk := some 9, testFuses := 16 } }

/-- A fact of the next state, in a term that Lean evaluates. -/
def after (r : Host.Outcome State Fault Refusal) (f : State → Bool) : Bool := match r with | .next t => f t | _ => false

theorem wit_goodEng (s : List Instr) (e : Nat) : ({ good with pending := s }).eng e = if 0 = e then inSlot.eng 0 else Engine.init := rfl

theorem wit_PcStaysAligned : let s := { good with pending := [.add 0 3 1 2] }
    s.PcInv ∧ after (step s) (fun t => (t.proc 0).pc == 0x40 && (t.proc 0).reg 31 == 0x18) = true := by
  refine ⟨⟨⟨by decide, by decide, fun d h => by cases h⟩, fun e => ?_, fun e => ?_⟩, by decide +kernel⟩
  · rw [wit_goodEng]
    split
    · exact ⟨by decide, by decide, fun d h => by cases h; decide⟩
    · exact ⟨by decide, by decide, fun d h => by cases h⟩
  · rw [wit_goodEng]
    split <;> decide

theorem wit_EpochFloorHolds : let s := { good with pending := [.tamperTrip 4 2] }
    s.vault.Sound ∧ after (step s) (fun t => t.vault.epochst == 2 && t.vault.secret == 0) = true :=
  ⟨⟨by decide, by decide, by decide, by decide, by decide⟩, by decide +kernel⟩

/-! ## The commands a sender cannot send -/

/-- A bytes operand of `n` zeros. -/
def zeros (n : Nat) : Bytes := List.replicate n 0

theorem wf_drvId : ({ DrvId.init with serial := 2 ^ 160 }).wellFormed = false ∧ ({ DrvId.init with model := 2 ^ 320 }).wellFormed = false ∧ ({ DrvId.init with sqs := 65537 }).wellFormed = false
    ∧ ({ DrvId.init with cqs := 65537 }).wellFormed = false ∧ ({ DrvId.init with mqes := 65537 }).wellFormed = false ∧ ({ DrvId.init with mdts := 256 }).wellFormed = false
    ∧ ({ DrvId.init with nn := 2 ^ 32 }).wellFormed = false ∧ ({ DrvId.init with nss := [(2 ^ 32, DrvNs.init)] }).wellFormed = false
    ∧ ({ DrvId.init with nss := [(1, { DrvNs.init with nguid := 2 ^ 128 })] }).wellFormed = false ∧ DrvId.init.wellFormed = true := by decide +kernel

theorem wf_transfers : (Instr.hostDataReturn 0 0 (2 ^ 24) [0] 0).wellFormed = false ∧ (Instr.tagPassComplete 0 0 0 (zeros 4097) 0).wellFormed = false ∧ (Instr.driveMemRead 0 0 0 0).wellFormed = false
    ∧ (Instr.driveMemRead 0 0 4097 0).wellFormed = false ∧ (Instr.driveMemWrite 0 0 [] 0).wellFormed = false ∧ (Instr.driveMemWrite 0 0 (zeros 513) 0).wellFormed = false
    ∧ (Instr.sqEntryFetch 0 (zeros 63) false).wellFormed = false ∧ (Instr.setFeatures 0 (zeros 4097)).wellFormed = false ∧ (Instr.datasetManagement 0 0 (zeros 15)).wellFormed = false
    ∧ (Instr.datasetManagement 0 0 (zeros 4112)).wellFormed = false ∧ (Instr.driveReady 0 { DrvId.init with mdts := 256 } false).wellFormed = false
    ∧ (Instr.recoveryDrainDone 0 [128] 0).wellFormed = false ∧ (Instr.mctpMessage 0 (zeros 2054)).wellFormed = false
    ∧ (Instr.mctpPacket 0 true 0 0 0 true true 0 (zeros 65)).wellFormed = false := by decide +kernel

theorem wf_requests : (Instr.attest 0 (zeros 31)).wellFormed = false ∧ (Instr.keyImport 0 0 0 0 0 (zeros 15) (zeros 1568) (zeros 80) 0).wellFormed = false
    ∧ (Instr.keyImport 0 0 0 0 0 (zeros 16) (zeros 1567) (zeros 80) 0).wellFormed = false ∧ (Instr.keyImport 0 0 0 0 0 (zeros 16) (zeros 1568) (zeros 79) 0).wellFormed = false
    ∧ (Instr.nsExtents 0 0 0 (List.replicate 61 ⟨0, 0, 0, 0, 0⟩) false).wellFormed = false ∧ (Instr.nsBands 0 0 (List.replicate 65 0)).wellFormed = false
    ∧ (Instr.fwWrite 0 0 (zeros 2001) true).wellFormed = false ∧ (Instr.configStage 0 0 (zeros 2001)).wellFormed = false ∧ (Instr.testStage 0 0 (zeros 2001)).wellFormed = false := by decide +kernel

theorem wf_vault : (Instr.vltImport 0 1 0 0 0 0 none (zeros 23) (zeros 1568) (zeros 80)).wellFormed = false ∧ (Instr.vltImport 0 1 0 0 0 0 none (zeros 24) (zeros 1567) (zeros 80)).wellFormed = false
    ∧ (Instr.vltImport 0 1 0 0 0 0 none (zeros 24) (zeros 1568) (zeros 79)).wellFormed = false ∧ (Instr.vltSign 0 (zeros 47)).wellFormed = false ∧ (Instr.vltShareOut 1 (zeros 96)).wellFormed = false
    ∧ (Instr.vltShareIn 1 (zeros 96) (zeros 80)).wellFormed = false ∧ (Instr.vltShareIn 1 (zeros 97) (zeros 79)).wellFormed = false ∧ (Instr.vltTestUnlock (zeros 4794)).wellFormed = false
    ∧ (Instr.tailDropExit 0 0 (List.replicate 17 0)).wellFormed = false ∧ (Instr.thermalClipEnd 0 (List.replicate 17 0)).wellFormed = false
    ∧ (Instr.vltTestUnlock (zeros 4795)).wellFormed = true ∧ (Instr.brumate).wellFormed = true := by decide +kernel

/-! ## Words of the instruction set, from the worked encodings of chapter 02 and its tables (R39, R41, R43) -/

theorem test_worked_words : decodeSialven 0 0x04A3FFFC = some (.addi 0 5 3 0xFFFC) ∧ decodeSialven 0 0x8480FFFD = some (.bne 0 4 0 0xFFFD) ∧ decodeSialven 0 0x30020003 = some (.loopi 0 2 3)
    ∧ decodeSialven 0 0x2863208B = some (.crc32c 0 3 3 4 2) ∧ decodeSialven 0 0x34E60800 = some (.kload 0 7 6 1 none) ∧ decodeSialven 0 0x04000000 = some (.addi 0 0 0 0)
    ∧ decodeSialven 128 0x34E60800 = none ∧ decodeSialven 0 0 = none ∧ decodeSialven 128 0xFFFFFFFF = none := by decide +kernel

theorem test_op_words : decodeSialven 0 0b00000000011000010001000000000001 = some (.add 0 3 1 2) ∧ decodeSialven 0 0b00000000011000011111100000010010 = some (.srai 0 3 1 31)
    ∧ decodeSialven 128 0b00100100011000010001000000000011 = some (.macc 128 3 1 2) ∧ decodeSialven 128 0b00101000011000010000000000000010 = some (.popc 128 3 1)
    ∧ decodeSialven 0 0b00101000011000010001000111001101 = some (.bfi 0 3 1 2 7) ∧ decodeSialven 0 0b00100000011000000000000000000001 = some (.adrw 0 3 1)
    ∧ decodeSialven 0 0b00100000011000010000000000000001 = none ∧ decodeSialven 0 0b00101000011000010001011111001101 = none := by decide +kernel

theorem test_flow_words : decodeSialven 0 0b01001000100000100000000000000010 = some (.lw 0 4 2 2) ∧ decodeSialven 0 0b01101000100000100000000000000010 = some (.sw 0 4 2 2)
    ∧ decodeSialven 0 0b01110000011000010001000000000111 = some (.atcas 0 3 1 2) ∧ decodeSialven 0 0b10100111111111111111111111111111 = some (.jal 0 0x3FFFFFF)
    ∧ decodeSialven 0 0b10101000000111110000000000000000 = some (.jalr 0 0 31 0) ∧ decodeSialven 0 0b00101100000000010000000000000011 = some (.loop 0 1 3)
    ∧ decodeSialven 0 0b00111000000000010001000000000001 = some (.habs 0 1 2) ∧ decodeSialven 0 0b11000000000101010000000000000010 = some (.trap 0 21)
    ∧ decodeSialven 0 0b11000100011000000000000000000110 = some (.crd 0 3 6) ∧ decodeSialven 0 0b11001000000000110000000000000110 = some (.cwr 0 6 3)
    ∧ decodeSialven 0 0b11001000001000110000000000000110 = none := by decide +kernel

/-! ## One step each -/

theorem test_add_wraps : after (exec (.addi 0 5 3 0xFFFC) lane0) (fun t => (t.proc 0).reg 5 == 1 && (t.proc 0).pc == 4) = true
    ∧ after (exec (.addi 0 5 0 0xFFFF) lane0) (fun t => (t.proc 0).reg 5 == 0xFFFFFFFF) = true := by decide +kernel

/-- R44: saturated quotients. -/
theorem test_div_corners : after (exec (.div 0 5 3 0) lane0) (fun t => (t.proc 0).reg 5 == 0x7FFFFFFF) = true
    ∧ after (exec (.div 0 5 1 2) (lane fun r => (r.setReg 1 0x80000000).setReg 2 0xFFFFFFFF)) (fun t => (t.proc 0).reg 5 == 0x7FFFFFFF) = true := by decide +kernel

/-- "Worked example: CRC-32C with a loop": the check value of the nine bytes. -/
theorem test_crc_example : ~~~(crcFeed 0xFFFFFFFF [0x31, 0x32, 0x33, 0x34, 0x35, 0x36, 0x37, 0x38, 0x39]) = 0xE3069283#32 := by decide +kernel

/-- R50: the unaligned load of the example, and the one that leaves data RAM. -/
theorem test_lw_split : let s := (lane fun r => r.setReg 2 0x100400).updEng 0 fun g => { g with dram := Memory.put [] 0x400 [0x31, 0x32, 0x33, 0x34, 0x35, 0x36, 0x37, 0x38, 0x39] }
    after (exec (.lw 0 4 2 2) s) (fun t => (t.proc 0).loads.map Load.value == [0x36353433]) = true := by decide +kernel
theorem test_lw_fault : after (exec (.lw 0 4 2 0) (lane fun r => r.setReg 2 0x11FFFE)) (fun t => (t.proc 0).eval == 0x120000 && (t.proc 0).reg 4 == 0 && (t.proc 0).pc == 0x40) = true := by decide +kernel

/-- The branch of R55's example goes to 0x114 after its slot. -/
theorem test_bne_example : after (exec (.bne 0 4 0 0xFFFD) (lane fun r => { r.setReg 4 1 with pc := 0x120 }))
    (fun t => after (exec (.addi 0 5 5 1) t) (fun u => (t.proc 0).pc == 0x124 && (u.proc 0).pc == 0x114 && (u.proc 0).reg 5 == 1)) = true := by decide +kernel

/-- "Worked example: a dim lamp fails open": the second OPEN verdict sets STATUS and CHG5. -/
theorem test_lamp_example : let s := { base with pio := { base.pio with sinks := [(5, { Sink.init with ctrl := 0xC0000064, status := 2, last := 3 })] } }
    s.sinkLit 5 = true ∧ after (exec (.lampProbe 5 0 0) s) (fun t => (t.sink 5).status == 3 && t.pio.chg.getLsbD 5) = true := by decide +kernel

end Sys2Proof.Tests
end

section
/-!
PROOFS. Control registers (R72 to R77): what a CRD reads and latches, what a CWR writes, and the obligation about both.
-/

namespace Sys2Proof.Machine

/-! ## Reading -/

/-- The halves of the two counters, whose reads latch or use up a latch (R73). -/
def crHalves : List Nat := [0x20, 0x21, 0x22, 0x23]

theorem Proc.latchCr_of_notMem_halves (r : Proc) (time : DWord) {n : Nat} (h : n ∉ crHalves) : r.latchCr time n = r := by
  unfold Proc.latchCr
  split <;> simp_all [crHalves]

@[simp] theorem Proc.latchCr_delay (r : Proc) (time : DWord) (n : Nat) : (r.latchCr time n).delay = r.delay := by
  unfold Proc.latchCr; split <;> rfl

@[simp] theorem Proc.latchCr_regs (r : Proc) (time : DWord) (n : Nat) : (r.latchCr time n).regs = r.regs := by
  unfold Proc.latchCr; split <;> rfl

@[simp] theorem Proc.reg_latchCr (r : Proc) (time : DWord) (n m : Nat) : (r.latchCr time n).reg m = r.reg m := by
  simp [Proc.reg]

@[simp] theorem Proc.linkAt_latchCr (r : Proc) (time : DWord) (n m : Nat) : (r.latchCr time n).linkAt m = r.linkAt m := by
  simp [Proc.linkAt]

@[simp] theorem Proc.linkAt_setReg (r : Proc) (n m : Nat) (v : Word) : (r.setReg n v).linkAt m = r.linkAt m := by
  simp [Proc.linkAt]

/-- A CRD that can issue, of a register that exists and that the mode may read, runs (R69, R72). -/
theorem State.crd_runs {s : State} {p : Pid} {gd : Reg} {num : Imm} (h : CanIssue s p [gd]) (hn : num.toNat ∈ crNumbers)
    (hp : crUser num.toNat = true ∨ (s.proc p).sup = true) :
    exec (.crd p gd num) s = .next (s.setProc p (((s.proc p).latchCr s.time num.toNat).setReg gd (s.crValue p num.toNat)).retire) := by
  rw [exec_crd]
  refine State.issue_runs h ?_ rfl rfl ?_
  · simpa using hn
  · rcases hp with hp | hp <;> simp [hp]

/-- CRDs of registers that latch nothing complete, each with its register's value in gd. -/
theorem State.yields_crds {s : State} {p : Pid} {gd : Reg} {vs : List (Nat × Word)} (h : CanIssue s p [gd])
    (hv : ∀ x ∈ vs, (BitVec.ofNat 16 x.1).toNat ∈ crNumbers ∧ (BitVec.ofNat 16 x.1).toNat ∉ crHalves
      ∧ (crUser (BitVec.ofNat 16 x.1).toNat = true ∨ (s.proc p).sup = true) ∧ s.crValue p (BitVec.ofNat 16 x.1).toNat = x.2) :
    ∀ x ∈ vs, s.yields (.crd p gd (BitVec.ofNat 16 x.1)) p gd x.2 := by
  intro x hx
  obtain ⟨hn, hl, hp, hval⟩ := hv x hx
  refine ⟨_, State.crd_runs h hn hp, ?_⟩
  rw [Proc.latchCr_of_notMem_halves _ _ hl, hval]
  exact State.writeReg_completes s p gd _

/-- A CRD leaves the latches as `Proc.latchCr` says and writes gd alone, but for the link register whose slot it stands in (R73, R82). -/
theorem State.crd_latches {s : State} {p : Pid} {gd : Reg} {num : Imm} (h : CanIssue s p [gd]) (hn : num.toNat ∈ crNumbers)
    (hp : crUser num.toNat = true ∨ (s.proc p).sup = true) :
    ∃ t, exec (.crd p gd num) s = .next t
      ∧ (t.proc p).instretHi = ((s.proc p).latchCr s.time num.toNat).instretHi
      ∧ (t.proc p).timeHi = ((s.proc p).latchCr s.time num.toNat).timeHi
      ∧ ∀ n, (t.proc p).reg n = if n = 0 then 0 else
          ((s.proc p).linkAt n).getD (if n = gd then s.crValue p num.toNat else (s.proc p).reg n) := by
  refine ⟨_, State.crd_runs h hn hp, ?_⟩
  rw [State.proc_setProc_same]
  obtain ⟨hk, -, -, hr, -, -⟩ := Proc.retireTo_spec (((s.proc p).latchCr s.time num.toNat).setReg gd (s.crValue p num.toNat)) _
  refine ⟨hk.instretHi.trans (by simp), hk.timeHi.trans (by simp), fun n => (hr n).trans ?_⟩
  by_cases h0 : n = 0 <;> simp [h0, Proc.reg_setReg]

/-! ## Writing -/

/-- The numbers of the word-wide writable registers are writable, and fit the number field. -/
theorem crFields_number {x : Nat × (Proc → Word) × Word} (h : x ∈ crFields) :
    (BitVec.ofNat 16 x.1).toNat = x.1 ∧ x.1 ∈ crWritable ∧ x.1 ≠ 0x18 := by
  revert x
  decide

/-- A write sets the unreserved bits of its own register, and no other register. -/
theorem Proc.setCr_field (r : Proc) (v : Word) : ∀ x ∈ crFields, ∀ y ∈ crFields,
    y.2.1 (r.setCr x.1 v) = if y.1 = x.1 then v &&& x.2.2 else y.2.1 r := by
  have hall : v &&& 0xFFFFFFFF#32 = v := BitVec.and_allOnes
  simp [crFields, Proc.setCr, hall]

@[simp] theorem Proc.setCr_regs (r : Proc) (n : Nat) (v : Word) : (r.setCr n v).regs = r.regs := by unfold Proc.setCr; split <;> rfl
@[simp] theorem Proc.setCr_mode (r : Proc) (n : Nat) (v : Word) : (r.setCr n v).mode = r.mode := by unfold Proc.setCr; split <;> rfl
@[simp] theorem Proc.setCr_shadow (r : Proc) (n : Nat) (v : Word) : (r.setCr n v).shadow = r.shadow := by unfold Proc.setCr; split <;> rfl
@[simp] theorem Proc.setCr_delay (r : Proc) (n : Nat) (v : Word) : (r.setCr n v).delay = r.delay := by unfold Proc.setCr; split <;> rfl

theorem Proc.setCr_lstat_of_ne (r : Proc) {n : Nat} (v : Word) (h : n ≠ 0x18) : (r.setCr n v).lstat = r.lstat := by
  unfold Proc.setCr
  split <;> simp_all

@[simp] theorem Proc.reg_setCr (r : Proc) (n m : Nat) (v : Word) : (r.setCr n v).reg m = r.reg m := by simp [Proc.reg]
@[simp] theorem Proc.linkAt_setCr (r : Proc) (n m : Nat) (v : Word) : (r.setCr n v).linkAt m = r.linkAt m := by simp [Proc.linkAt]
@[simp] theorem Proc.modeAfter_setCr (r : Proc) (n : Nat) (v : Word) : (r.setCr n v).modeAfter = r.modeAfter := by simp [Proc.modeAfter]

/-- Completing an instruction outside an active loop leaves every word-wide control register (R59). -/
theorem Proc.retireTo_field (r : Proc) (a : Word) (h : r.lstat = 0) : ∀ y ∈ crFields, y.2.1 (r.retireTo a) = y.2.1 r := by
  obtain ⟨hk, -, -, -, -, hl⟩ := Proc.retireTo_spec r a
  obtain ⟨-, h0, h1⟩ := hl h
  simp [crFields, hk.epc, hk.ecause, hk.eval, hk.estat, hk.escratch, hk.evec, hk.lstart0, hk.lend0, hk.lstart1, hk.lend1, h0, h1]

/-- A CWR that can issue in supervisor mode, of a writable register, runs (R69, R70, R72). -/
theorem State.cwr_runs {s : State} {p : Pid} {gs : Reg} {num : Imm} (h : CanIssue s p [gs]) (hn : num.toNat ∈ crWritable)
    (hp : (s.proc p).sup = true) :
    exec (.cwr p num gs) s = .next (s.setProc p ((s.proc p).setCr num.toNat ((s.proc p).reg gs)).retire) := by
  rw [exec_cwr]
  refine State.issue_runs h ?_ rfl rfl ?_
  · simpa using hn
  · simp [hp]

/-- A CWR of a word-wide register in supervisor mode, with no loop active, writes that register's unreserved bits and no other control
register; general registers change only by a pending link (R70, R72, R82, R102). -/
theorem State.cwr_writes {s : State} {p : Pid} {gs : Reg} (h : CanIssue s p [gs]) (hp : (s.proc p).sup = true)
    (hl : (s.proc p).lstat = 0) {x : Nat × (Proc → Word) × Word} (hx : x ∈ crFields) :
    ∃ t, exec (.cwr p (BitVec.ofNat 16 x.1) gs) s = .next t ∧ t = s.setProc p (t.proc p) ∧ SameRegs s t p ∧ SameMemory s t
      ∧ (∀ y ∈ crFields, y.2.1 (t.proc p) = if y.1 = x.1 then (s.proc p).reg gs &&& x.2.2 else y.2.1 (s.proc p))
      ∧ (t.proc p).mode = (s.proc p).modeAfter ∧ (t.proc p).lstat = 0 := by
  obtain ⟨hnum, hw, hne⟩ := crFields_number hx
  have hidle := ((s.proc p).setCr_lstat_of_ne ((s.proc p).reg gs) hne).trans hl
  refine ⟨_, State.cwr_runs h (hnum.symm ▸ hw) hp, by simp, ?_⟩
  rw [hnum]
  obtain ⟨-, hm, -, hr, -, hls⟩ := Proc.retireTo_spec ((s.proc p).setCr x.1 ((s.proc p).reg gs)) _
  refine ⟨fun n => ?_, fun l => State.locByte_setProc _ _ _ _, fun y hy => ?_, ?_⟩ <;> rw [State.proc_setProc_same]
  · exact (hr n).trans (by simp)
  · exact (Proc.retireTo_field _ _ hidle y hy).trans (Proc.setCr_field _ _ x hx y hy)
  · exact ⟨hm.trans (by simp), (hls hidle).1⟩

end Sys2Proof.Machine

open Sys2Proof Sys2Proof.Machine

/-- Settles O11: each CRD by the value and the latch of its number, each CWR by the field it writes. -/
theorem controlRegistersReadAndWrite : Obligations.ControlRegistersReadAndWrite := by
  unfold Obligations.ControlRegistersReadAndWrite
  refine ⟨fun s p gd h => ⟨fun hs => ?_, ?_, ?_, ?_, fun hi hhi => ?_⟩, fun s p gs h hs _ hl x hx => ?_⟩
  · exact State.yields_crds h (by simp [hs, crNumbers, crHalves, State.crValue])
  · refine State.yields_crds h ?_
    by_cases hp : p.val = 128 <;> simp [hp, crNumbers, crHalves, crUser, State.crValue]
  · obtain ⟨t, ht, -, hlatch, hreg⟩ := State.crd_latches (num := 0x022) h (by decide) (.inl (by decide))
    exact ⟨t, ht, hlatch, hreg⟩
  · obtain ⟨t, ht, hlatch, -, hreg⟩ := State.crd_latches (num := 0x020) h (by decide) (.inl (by decide))
    exact ⟨t, ht, hlatch, hreg⟩
  · obtain ⟨t, ht, -, hlatch, hreg⟩ := State.crd_latches (num := 0x023) h (by decide) (.inl (by decide))
    have hval : s.crValue p (0x023 : Imm).toNat = hi := by simp [State.crValue, hhi]
    exact ⟨t, ht, hlatch, hval ▸ hreg⟩
  · obtain ⟨t, ht, honly, hregs, hmem, hfields, hmode, hlstat⟩ := State.cwr_writes h hs hl hx
    refine ⟨t, ht, honly, hregs, hmem, ?_, fun y hy hne => ?_, hmode, hlstat⟩
    · simpa using hfields x hx
    · simpa [hne] using hfields y hy
end

section
/-!
PROOFS. System operations that go on (R53, R57, R69 to R71, R98, R104), and the obligation about them.
-/

namespace Sys2Proof.Machine

/-! ## Completing outside a delay slot -/

/-- An instruction outside a delay slot that completes leaves no shadow behind: it was the shadow itself (R71). -/
theorem Proc.retireTo_shadow (r : Proc) (x : Word) (h : r.delay = none) : (r.retireTo x).shadow = none := by
  obtain ⟨-, -, -, hs, -⟩ := r.endShadow_keeps
  obtain ⟨-, -, -, ks, -⟩ := Proc.loopStep_keeps { r.endShadow with instret := r.instret + 1 } r.endShadow.pc x
  simp only [Proc.retireTo, h]
  exact ks.trans hs

/-- What completing outside a delay slot leaves: a shadow's mode comes into force, no register changes, and one instruction counts (R71, R73). -/
theorem Proc.retire_of_delay_none (r : Proc) (h : r.delay = none) :
    KeepsRest r r.retire ∧ r.retire.mode = r.shadow.getD r.mode ∧ (∀ n, r.retire.reg n = r.reg n) ∧ r.retire.instret = r.instret + 1 := by
  obtain ⟨hk, hm, -, hr, hi, -⟩ := Proc.retireTo_spec r (r.pc + 4)
  refine ⟨hk, hm.trans (by simp [Proc.modeAfter, h]), fun n => (hr n).trans ?_, hi.trans (by simp [h])⟩
  by_cases hn : n = 0 <;> simp [hn, Proc.linkAt, h]

/-- Outside a delay slot no link is pending, so registers that stand are the same registers. -/
theorem sameRegs_setProc {s : State} {p : Nat} {q : Proc} (hd : (s.proc p).delay = none) (h : ∀ n, q.reg n = (s.proc p).reg n) :
    SameRegs s (s.setProc p q) p := by
  intro n
  by_cases hn : n = 0 <;> simp [h, hn, Proc.linkAt, hd]

/-! ## SETMODE and ERET -/

/-- SETMODE in supervisor mode, outside slot and shadow, completes and leaves its mode as a shadow (R69, R71). -/
theorem State.setmode_runs {s : State} {p : Pid} {gs : Reg} (h : CanIssue s p [gs]) (hd : (s.proc p).delay = none) (hsup : (s.proc p).sup = true)
    (hsh : (s.proc p).shadow = none) (hgs : ((s.proc p).reg gs).toNat < 4) :
    exec (.setmode p gs) s = .next (s.setProc p { (s.proc p).retire with shadow := some (((s.proc p).reg gs).truncate 2) }) := by
  rw [exec_setmode]
  refine (State.issue_runs h rfl rfl (by simp [hd]) rfl).trans ?_
  simp [hsh, hsup, Nat.not_le.2 hgs]

/-- SETMODE with a reserved bit set, or in the shadow of another, is illegal (R69, R71). -/
theorem State.setmode_illegal {s : State} {p : Pid} {gs : Reg} (h : CanIssue s p [gs]) (hd : (s.proc p).delay = none)
    (hbad : 4 ≤ ((s.proc p).reg gs).toNat ∨ (s.proc p).shadow.isSome = true) :
    exec (.setmode p gs) s = .next (s.takeException p 0x01 (encReg 0x30 0 gs 0 0)) := by
  rw [exec_setmode]
  refine (State.issue_runs h rfl rfl (by simp [hd]) rfl).trans ?_
  rcases hbad with hbad | hbad <;> simp [hbad]

/-- A SETMODE's shadow is one instruction: completing it puts the mode asked for in force and leaves no shadow (R71). -/
theorem Proc.retire_of_shadow (r : Proc) (m : BitVec 2) (hd : r.delay = none) (hs : r.shadow = some m) : r.retire.mode = m ∧ r.retire.shadow = none := by
  obtain ⟨-, hm, -, -⟩ := r.retire_of_delay_none hd
  exact ⟨by simpa [hs] using hm, Proc.retireTo_shadow r _ hd⟩

/-- ERET outside a shadow returns with the saved mode, re-arms a pending mode and clears EXL; a lane's fetch buffer is empty then (R57, R104). -/
theorem State.eret_returns {s : State} {p : Pid} (h : CanIssue s p []) (hd : (s.proc p).delay = none) (hsup : (s.proc p).sup = true)
    (hsh : (s.proc p).shadow = none) : let r := s.proc p
    ∃ t, exec (.eret p) s = .next t ∧ t = s.setProc p (t.proc p) ∧ (∀ n, (t.proc p).reg n = r.reg n)
      ∧ (t.proc p).mode = r.estat.extractLsb' 0 2 ∧ (t.proc p).exl = false ∧ (t.proc p).pc = r.epc &&& ~~~3#32
      ∧ (t.proc p).shadow = (if r.estat.getLsbD 3 then some (r.estat.extractLsb' 4 2) else none)
      ∧ (p.val ≠ 128 → (t.proc p).stale = []) ∧ (t.proc p).epc = r.epc ∧ (t.proc p).lstat = r.lstat ∧ (t.proc p).instret = r.instret + 1 := by
  have hpend : ((s.proc p).estat >>> 4).truncate 2 = (s.proc p).estat.extractLsb' 4 2 := by
    apply BitVec.eq_of_toNat_eq
    simp [Nat.shiftRight_eq_div_pow]
  refine ⟨_, (exec_eret p s).trans (State.issue_runs h rfl rfl (by simp [hd]) (by simp [hsup])), by simp, ?_⟩
  rw [State.updProc_eq, State.proc_setProc_same, hsh, hpend]
  refine ⟨fun _ => rfl, ?_, ?_, rfl, rfl, fun hp => if_neg hp, rfl, rfl, rfl⟩
  · exact BitVec.eq_of_toNat_eq (by simp)
  · simp [Proc.exl]

/-! ## EVWAIT, FENCE and FLUSHI -/

/-- A processor that waits does not run (R98). -/
theorem State.running_setProc_waiting (s : State) (p : Nat) {r : Proc} (h : r.waiting = true) : (s.setProc p r).running p = false := by
  by_cases hp : p = 128 <;> simp [State.running, State.setProc, hp, h]

/-- EVWAIT runs in supervisor mode: an enabled event completes it at once, and none suspends the processor (R98, R334). -/
theorem State.evwait_runs {s : State} {p : Pid} (h : CanIssue s p []) (hsup : (s.proc p).sup = true) :
    exec (.evwait p) s = .next (s.setProc p (if s.wakeWord p ≠ 0 then (s.proc p).retire else { s.proc p with waiting := true })) := by
  rw [exec_evwait]
  refine (State.issue_runs h rfl rfl rfl (by simp [hsup])).trans ?_
  rw [apply_ite (s.setProc p)]
  rfl

/-- A suspended EVWAIT with an event pending and interrupts off completes (R98). -/
theorem State.evwaitResume_runs {s : State} {p : Pid} (hw : (s.proc p).waiting = true) (he : s.wakeWord p ≠ 0) (hie : (s.proc p).ie = false) :
    exec (.evwaitResume p) s = .next (s.setProc p (Proc.retire { s.proc p with waiting := false })) := by
  have hends : ((s.proc p).waiting && decide (s.wakeWord p ≠ 0) && !(s.proc p).ie) = true := by rw [hw, hie, decide_eq_true he]; rfl
  simp only [exec_evwaitResume, execEvwaitResume, hends, if_true]

/-- FENCE completes once no access is outstanding, and holds until then (R53, R80, R328). -/
theorem State.fence_runs {s : State} {p : Pid} (h : CanIssue s p []) : exec (.fence p) s = .next (
    if (s.proc p).loads = [] ∧ (s.proc p).stores = [] ∧ (s.proc p).port = [] then s.setProc p (s.proc p).retire else s) := by
  rw [exec_fence]
  refine (State.issue_runs h rfl rfl rfl rfl).trans ?_
  simp [and_assoc]

/-- FLUSHI with no store to an instruction RAM outstanding completes, and every fetch returns the new content (R57). -/
theorem State.flushi_runs {s : State} {p : Pid} (h : CanIssue s p []) (hsup : (s.proc p).sup = true)
    (hst : ∀ x ∈ (s.proc p).stores, x.loc.space ≠ 0 ∧ x.loc.space ≠ 4) :
    exec (.flushi p) s = .next (s.setProc p (Proc.retire { s.proc p with stale := [] })) := by
  rw [exec_flushi]
  refine (State.issue_runs h rfl rfl rfl (by simp [hsup])).trans ?_
  have hany : (s.proc p).stores.any (fun x => x.loc.space = 0 || x.loc.space = 4) = false := by simpa using hst
  simp [hany]

end Sys2Proof.Machine

open Sys2Proof Sys2Proof.Machine

/-- Settles O14: each operation by the one step it takes when it issues outside a delay slot. -/
theorem systemOpsComplete : Obligations.SystemOpsComplete := by
  unfold Obligations.SystemOpsComplete
  intro s p gs hd hsup
  refine ⟨fun h hsh hgs => ?setmode, fun h hbad => State.setmode_illegal h hd hbad, fun h hsh => State.eret_returns h hd hsup hsh,
    fun h he => ?evwait, fun h he => ?suspend, fun hw he hie => ?resume, fun h hl hs hp => ?fence, fun h hout => ?hold, fun h hst => ?flushi⟩
  case setmode =>
    obtain ⟨hk, hm, hr, -⟩ := (s.proc p).retire_of_delay_none hd
    obtain ⟨-, -, hdl, -, -, -⟩ := Proc.retireTo_spec (s.proc p) _
    refine ⟨_, State.setmode_runs h hd hsup hsh hgs, by simp, sameRegs_setProc hd hr, ?_⟩
    rw [State.proc_setProc_same]
    refine ⟨rfl, hm.trans (by simp [hsh]), KeepsRest.trans hk (by constructor <;> rfl), ?_⟩
    exact Proc.retire_of_shadow _ _ hdl rfl
  case evwait =>
    refine ⟨_, State.evwait_runs h hsup, ?_⟩
    rw [if_pos he]
    exact State.retire_completes s p 0 _
  case suspend =>
    refine ⟨_, State.evwait_runs h hsup, ?_⟩
    rw [if_neg (not_not.2 he)]
    exact ⟨State.proc_setProc_same _ _ _, State.running_setProc_waiting _ _ rfl⟩
  case resume =>
    obtain ⟨hk, -, hr, hi⟩ := Proc.retire_of_delay_none { s.proc p with waiting := false } hd
    refine ⟨_, State.evwaitResume_runs hw he hie, ?_, sameRegs_setProc hd hr, ?_⟩ <;> rw [State.proc_setProc_same]
    · exact hk.waiting
    · exact hi
  case fence =>
    refine ⟨_, State.fence_runs h, ?_⟩
    rw [if_pos ⟨hl, hs, hp⟩]
    exact State.retire_completes s p 0 _
  case hold =>
    rw [State.fence_runs h, if_neg fun ⟨hl, hs, hp⟩ => by simp_all]
  case flushi =>
    obtain ⟨hk, -, hr, -⟩ := Proc.retire_of_delay_none { s.proc p with stale := [] } hd
    refine ⟨_, State.flushi_runs h hsup hst, sameRegs_setProc hd hr, fun l => State.locByte_setProc _ _ _ _, ?_⟩
    rw [State.proc_setProc_same]
    exact ⟨hk.stale, hk.stores⟩
end

section
/-!
PROOFS. Taking an exception (R49, R69, R99, R101 to R106, R319, R330), and the obligation about entering a handler once.
-/

namespace Sys2Proof.Machine

/-! ## ESTAT at entry -/

/-- An ESTAT with EXL set, from its DS, MP, PSUP and PIE, and PM (R102). -/
def entryWord (ds mp : Bool) (old pm : BitVec 2) : Word := BitVec.ofNat 32 (0x80 + b2n ds * 4 + old.toNat + (b2n mp * 8 + pm.toNat * 16))

theorem entryWord_fields : ∀ (ds mp : Bool) (old pm : BitVec 2),
    (entryWord ds mp old pm).getLsbD 7 = true ∧ (entryWord ds mp old pm).getLsbD 2 = ds ∧ (entryWord ds mp old pm).extractLsb' 0 2 = old
      ∧ (entryWord ds mp old pm).getLsbD 3 = mp ∧ (entryWord ds mp old pm).extractLsb' 4 2 = pm := by
  decide

/-- PM of an ESTAT as a number (R102). -/
theorem fld_estat_pm (x : Word) : fld x.toNat 5 4 = (x.extractLsb' 4 2).toNat := by
  simp [fld, Nat.shiftRight_eq_div_pow]

/-- Entry outside a delay slot: the mode before it is saved, and the mode that a shadow was to put in force with MP; PM stands without one
(R101, R106). -/
theorem Proc.entryStat_of_delay_none (r : Proc) (h : r.delay = none) :
    r.entryStat = entryWord false r.shadow.isSome r.mode (r.shadow.getD (r.estat.extractLsb' 4 2)) := by
  rcases hs : r.shadow with _ | m <;> simp [Proc.entryStat, entryWord, h, hs, b2n, fld_estat_pm]

/-- Entry at a delay slot sets DS; MP and PM are those of the shadow that the branch ended (R105, R106). -/
theorem Proc.entryStat_of_delay_some (r : Proc) (d : Delay) (h : r.delay = some d) :
    ∃ mp old pm, r.entryStat = entryWord true mp old pm := by
  rcases hs : d.shadowOf with _ | ⟨old, m⟩
  · exact ⟨false, r.mode, r.estat.extractLsb' 4 2, by simp [Proc.entryStat, entryWord, h, hs, b2n, fld_estat_pm]⟩
  · exact ⟨true, old, m, by simp [Proc.entryStat, entryWord, h, hs, b2n]⟩

/-- Entry sets EXL, and DS exactly at a delay slot (R101, R105). -/
theorem Proc.entryStat_exl_ds (r : Proc) : r.entryStat.getLsbD 7 = true ∧ r.entryStat.getLsbD 2 = r.delay.isSome := by
  rcases h : r.delay with _ | d
  · rw [r.entryStat_of_delay_none h]
    obtain ⟨hexl, hds, -⟩ := entryWord_fields false r.shadow.isSome r.mode (r.shadow.getD (r.estat.extractLsb' 4 2))
    exact ⟨hexl, hds⟩
  · obtain ⟨mp, old, pm, he⟩ := r.entryStat_of_delay_some d h
    obtain ⟨hexl, hds, -⟩ := entryWord_fields true mp old pm
    exact he ▸ ⟨hexl, hds⟩

/-- Entry outside a delay slot saves MODE, and has MP and PM say which mode was pending (R101, R106). -/
theorem Proc.entryStat_saves (r : Proc) (h : r.delay = none) : r.entryStat.extractLsb' 0 2 = r.mode
    ∧ r.entryStat.getLsbD 3 = r.shadow.isSome ∧ r.entryStat.extractLsb' 4 2 = r.shadow.getD (r.estat.extractLsb' 4 2) := by
  rw [r.entryStat_of_delay_none h]
  obtain ⟨-, -, hold, hmp, hpm⟩ := entryWord_fields false r.shadow.isSome r.mode (r.shadow.getD (r.estat.extractLsb' 4 2))
  exact ⟨hold, hmp, hpm⟩

/-! ## Which exception an instruction takes -/

/-- TRAP outside a delay slot takes its exception with its code in EVAL (R69, R99). -/
theorem State.trap_runs {s : State} {p : Pid} (code : U10) (h : CanIssue s p []) (hd : (s.proc p).delay = none) :
    exec (.trap p code) s = .next (s.takeException p 0x09 (code.zeroExtend 32)) := by
  rw [exec_trap]
  exact State.issue_runs h rfl rfl (by simp [hd]) rfl

/-- BREAK takes its exception wherever it stands (R69, R99). -/
theorem State.breakpoint_runs {s : State} {p : Pid} (h : CanIssue s p []) : exec (.breakpoint p) s = .next (s.takeException p 0x0A 0) := by
  rw [exec_breakpoint]
  exact State.issue_runs h rfl rfl rfl rfl

/-- A word that decodes to no instruction is ILLEGAL, with the word in EVAL (R40, R99). -/
theorem State.illegal_runs {s : State} {p : Pid} {word : Word} (h : CanIssue s p []) (hw : decodeSialven p word = none) :
    exec (.illegal p word false) s = .next (s.takeException p 0x01 word) := by
  simp [exec_illegal, execIllegal, h.runs, h.fetch, hw]

/-- A word of a lane whose parity fails is counted and raises IPARITY, with its address in EVAL (R86, R99). -/
theorem State.iparity_runs {s : State} {p : Pid} {word : Word} (h : CanIssue s p []) (hp : p.val ≠ 128) :
    exec (.illegal p word true) s = .next ((s.countParity p).takeException p 0x0B (s.proc p).pc) := by
  have hlane : p ≠ 128 := fun e => hp (congrArg Fin.val e)
  simp [exec_illegal, execIllegal, h.runs, hlane]

/-- An instruction at an address that may not be fetched raises FETCH_FAULT, whatever it is (R49, R100). -/
theorem State.issue_fetchFault {s : State} {p : Nat} (q : IssueReq) (body : State → State) (h : s.running p = true)
    (hf : s.fetchOk p (s.proc p).pc = false) : s.issue p q body = .next (s.takeException p 0x03 (s.proc p).pc) := by
  simp [State.issue, h, hf]

/-- An enabled event with interrupts on is taken, with the event word in EVAL (R95, R96). -/
theorem State.interruptAccept_runs {s : State} {p : Pid} (h : s.canAccept p = true) (hie : (s.proc p).ie = true) (he : s.wakeWord p ≠ 0) :
    exec (.interruptAccept p) s = .next (s.takeException p 0x80000000 (s.wakeWord p)) := by
  have hends : (s.canAccept p && (s.proc p).ie && decide (s.wakeWord p ≠ 0)) = true := by rw [h, hie, decide_eq_true he]; rfl
  simp only [exec_interruptAccept, execInterruptAccept, hends, if_true]

/-! ## What an exception leaves of memory -/

/-- An engine that keeps its two memories keeps every byte of the part's. -/
theorem State.sameMemory_setEng {s : State} {n : Nat} {g : Engine} (hi : g.iram = (s.eng n).iram) (hd : g.dram = (s.eng n).dram) :
    SameMemory s (s.setEng n g) := by
  refine fun l => State.locByte_eq _ _ l (fun k => ?_) (fun _ => rfl) (fun _ => rfl) rfl rfl (fun _ => rfl)
  rw [State.eng_setEng]
  split
  · next hk => exact hk ▸ ⟨hi, hd⟩
  · exact ⟨rfl, rfl⟩

/-- A fault event is no access to memory (R319). -/
theorem State.locByte_faultEvent (s : State) (d c i : Nat) (x : Word) (l : Loc) : (s.faultEvent d c i x).locByte l = s.locByte l := by
  unfold State.faultEvent
  split_ifs <;> rfl

/-- Counting a parity error changes no processor and no byte of memory (R110). -/
theorem State.countParity_keeps (s : State) {p : Nat} (hp : p ≠ 128) : (s.countParity p).proc p = s.proc p ∧ SameMemory s (s.countParity p) := by
  simp only [State.countParity, hp, if_false, State.updEng_eq]
  exact ⟨by simp [State.proc, hp], State.sameMemory_setEng rfl rfl⟩

/-! ## An exception in a handler -/

/-- A lane engine's exception with EXL set halts it: its registers, EPC, ECAUSE and EVAL stand, and so does memory (R103). -/
theorem State.takeException_doubleFault {s : State} {p : Nat} (cause eval : Word) (h : (s.proc p).exl = true) (hp : p ≠ 128) :
    let t := s.takeException p cause eval
    (t.eng p).run = 2 ∧ (t.eng p).hcause = 2 ∧ (t.proc p).epc = (s.proc p).epc ∧ (t.proc p).ecause = (s.proc p).ecause
      ∧ (t.proc p).eval = (s.proc p).eval ∧ (∀ n, (t.proc p).reg n = (s.proc p).reg n) ∧ SameMemory s t := by
  intro t
  have ht : t = _ := State.takeException_lane s p cause eval h hp
  have heng : t.eng p = (s.eng p).halted 2 := by simp [ht]
  have hproc : t.proc p = ((s.eng p).halted 2).proc := by simp [State.proc, hp, heng]
  have hs : s.proc p = (s.eng p).proc := by simp [State.proc, hp]
  rw [hproc, heng, hs]
  refine ⟨rfl, rfl, rfl, rfl, rfl, fun _ => rfl, fun l => ?_⟩
  have hmem : SameMemory s (s.setEng p ((s.eng p).halted 2)) := State.sameMemory_setEng rfl rfl
  rw [ht, State.locByte_faultEvent]
  exact hmem l

/-- The fault event that a double fault raises (R103, R319). -/
def State.doubleFaultEvent (s : State) (p : Nat) : FaultEvt :=
  { cause := 0x01, index := p, detail := (s.proc p).epc, time := s.time.extractLsb' 0 32 }

/-- While the warden domain is on, a double fault enters the fault queue of its engine's die, last (R257, R319). -/
theorem State.takeException_events {s : State} {p : Nat} (cause eval : Word) (h : (s.proc p).exl = true) (hp : p ≠ 128) (hon : s.domOn 36 = true) :
    let t := s.takeException p cause eval
    (p < 64 → t.flt.events0 = s.flt.events0 ++ [s.doubleFaultEvent p]) ∧ (64 ≤ p → t.flt.events1 = s.flt.events1 ++ [s.doubleFaultEvent p]) := by
  have hdie : dieOfTile (tileOf p) = p / 64 := Nat.div_div_eq_div_mul p 8 8
  have htime : s.time.truncate 32 = s.time.extractLsb' 0 32 := BitVec.eq_of_toNat_eq (by simp)
  rw [State.takeException_lane s p cause eval h hp, hdie]
  refine ⟨fun hlt => ?_, fun hge => ?_⟩
  · have h0 : p / 64 = 0 := Nat.div_eq_of_lt hlt
    simp [State.faultEvent, State.doubleFaultEvent, hon, h0, htime]
  · have h0 : p / 64 ≠ 0 := by omega
    simp [State.faultEvent, State.doubleFaultEvent, hon, h0, htime]

@[simp] theorem State.vaultEvent_warden (s : State) (k d : Nat) : (s.vaultEvent k d).warden = s.warden := rfl

@[simp] theorem State.vaultEvent_restarts (s : State) (k d : Nat) : (s.vaultEvent k d).vault.restarts = s.vault.restarts := by
  simp only [State.vaultEvent]
  split <;> rfl

/-- A warden restart: the warden boots from its ROM with its SRAM kept, and RESTARTS counts it (R340, R342, log 19). -/
theorem State.wardenRestart_spec (s : State) (cause : Nat) : let t := s.wardenRestart cause
    t.warden.proc.pc = 0x10000000 ∧ t.warden.fw = false ∧ t.vault.restarts = s.vault.restarts + 1 ∧ t.warden.sram = s.warden.sram := by
  unfold State.wardenRestart
  dsimp only
  split <;> simp [Warden.restarted, Warden.init, Proc.init]

end Sys2Proof.Machine

open Sys2Proof Sys2Proof.Machine

/-- Settles O15: every cause reaches the one entry, which the processor's fields show; with EXL set the lane halts and the warden restarts. -/
theorem exceptionsEnterOnce : Obligations.ExceptionsEnterOnce := by
  unfold Obligations.ExceptionsEnterOnce
  refine ⟨fun s p code word hexl => ?_, fun s p code cause eval hexl => ⟨fun h hd hc hv => ?_, fun hp => ?_, fun hp => ?_⟩⟩
  · intro r enters
    have enter : ∀ {c : Instr} {cause eval : Word} (u : State), exec c s = .next (u.takeException p cause eval) → u.proc p = r →
        SameMemory s u → enters c cause eval := by
      intro c cause eval u hc hu hmem
      rw [State.takeException_enters u p cause eval (hu ▸ hexl), hu] at hc
      refine ⟨_, hc, ?_⟩
      rw [State.proc_setProc_same]
      obtain ⟨hset, hds⟩ := r.entryStat_exl_ds
      refine ⟨rfl, rfl, rfl, rfl, rfl, hset, hds, fun hs hd => ?_, fun m hs hd => ?_, rfl, rfl, rfl, rfl, fun _ => rfl,
        fun l => (State.locByte_setProc _ _ _ _).trans (hmem l)⟩
      · simpa [Proc.entered, hs] using r.entryStat_saves hd
      · simpa [Proc.entered, hs] using r.entryStat_saves hd
    have direct : ∀ {c : Instr} {cause eval : Word}, exec c s = .next (s.takeException p cause eval) → enters c cause eval :=
      fun hc => enter s hc rfl fun _ => rfl
    refine ⟨fun h hd => direct (State.trap_runs code h hd), fun h => direct (State.breakpoint_runs h),
      fun h hw => direct (State.illegal_runs h hw), fun h hp => ?_, fun h hf => direct ((exec_trap p code s).trans (State.issue_fetchFault _ _ h hf)),
      fun h hie he => direct (State.interruptAccept_runs h hie he)⟩
    obtain ⟨hproc, hmem⟩ := s.countParity_keeps hp
    exact enter _ (State.iparity_runs h hp) hproc hmem
  · rw [hc, hv]
    exact State.trap_runs code h hd
  · obtain ⟨hrun, hcause, hepc, hecause, heval, hreg, hmem⟩ := State.takeException_doubleFault cause eval hexl hp
    exact ⟨hrun, hcause, hepc, hecause, heval, hreg, hmem, fun hlt hon => (State.takeException_events cause eval hexl hp hon).1 hlt,
      fun hge hon => (State.takeException_events cause eval hexl hp hon).2 hge⟩
  · rw [hp] at hexl ⊢
    rw [State.takeException_warden s cause eval hexl]
    exact State.wardenRestart_spec s 3
end

section
/-!
PROOFS. Credit queues and the warden's own commands: the control blocks of the queues and the bursts of a spill queue's middle (R250 to R258), the
access that the register port ends (R329), the croak (R339, R340) and the software interrupt sources (R337), and the obligation about them.
-/

namespace Sys2Proof.Machine

/-! ## Buffer DRAM -/

@[simp] theorem State.queue_dramSet (s : State) (a n : Nat) (bs : List Byte) : (s.dramSet a bs).queue n = s.queue n := by
  unfold State.dramSet; split <;> rfl

@[simp] theorem State.queue_recInit (s : State) (a n : Nat) : (s.recInit a).queue n = s.queue n := by
  unfold State.recInit
  split
  · exact State.queue_dramSet s _ n _
  · rfl

@[simp] theorem State.queue_dramPut (bs : List Byte) (n : Nat) : ∀ (s : State) (a : Nat), (s.dramPut a bs).queue n = s.queue n := by
  induction bs with
  | nil => intro s a; rfl
  | cons b bs ih => intro s a; simp [State.dramPut, ih]

@[simp] theorem State.dramBytes_setQueue (s : State) (n a k : Nat) (q : Queue) : (s.setQueue n q).dramBytes a k = s.dramBytes a k := rfl

/-- Bytes written to buffer DRAM read back. -/
theorem State.dramBytes_dramPut (s : State) (a : Nat) (bs : List Byte) : (s.dramPut a bs).dramBytes a bs.length = bs := by
  refine List.ext_getElem (by simp [State.dramBytes]) fun i _ h => ?_
  simp [State.dramBytes, State.dramByte_dramPut, h]

/-! ## What the end of commands leaves of the queues -/

/-- The control block of every queue stands, and of every controller whether it has failed and what is spilled. -/
structure KeepsSpill (s u : State) : Prop where
  queue : ∀ n, u.queue n = s.queue n
  cfs : ∀ f, (u.ctl f).cfs = (s.ctl f).cfs
  spill : ∀ f, (u.ctl f).spill = (s.ctl f).spill

theorem KeepsSpill.refl (s : State) : KeepsSpill s s := ⟨fun _ => rfl, fun _ => rfl, fun _ => rfl⟩

section
variable {s t : State} (h : KeepsSpill s t)
include h

theorem KeepsSpill.setEng (n : Nat) (g : Engine) : KeepsSpill s (t.setEng n g) := ⟨h.queue, h.cfs, h.spill⟩
theorem KeepsSpill.setTile (n : Nat) (x : Tile) : KeepsSpill s (t.setTile n x) := ⟨h.queue, h.cfs, h.spill⟩
theorem KeepsSpill.setQuad (n : Nat) (q : Quad) : KeepsSpill s (t.setQuad n q) := ⟨h.queue, h.cfs, h.spill⟩
theorem KeepsSpill.emit (o : Out) : KeepsSpill s (t.emit o) := ⟨h.queue, h.cfs, h.spill⟩

/-- A controller's other fields change. -/
theorem KeepsSpill.updCtl {n : Nat} {g : Ctl → Ctl} (hcfs : ∀ c, (g c).cfs = c.cfs := by intro; rfl)
    (hspill : ∀ c, (g c).spill = c.spill := by intro; rfl) : KeepsSpill s (t.updCtl n g) := by
  refine ⟨h.queue, fun f => ?_, fun f => ?_⟩ <;> rw [State.updCtl, State.ctl_setCtl] <;> split
  · next hn => rw [hcfs, hn, h.cfs]
  · exact h.cfs f
  · next hn => rw [hspill, hn, h.spill]
  · exact h.spill f

theorem KeepsSpill.foldl {α : Type} {g : State → α → State} (hg : ∀ u a, KeepsSpill s u → KeepsSpill s (g u a)) (l : List α) :
    KeepsSpill s (l.foldl g t) := by
  induction l generalizing t with
  | nil => exact h
  | cons a l ih => exact ih (hg t a h)

/-- A fold that counts as it goes. -/
theorem KeepsSpill.foldl_fst {α β : Type} {g : State × β → α → State × β} (hg : ∀ r a, KeepsSpill s r.1 → KeepsSpill s (g r a).1)
    (l : List α) (b : β) : KeepsSpill s (l.foldl g (t, b)).1 := by
  induction l generalizing t b with
  | nil => exact h
  | cons a l ih => exact ih (hg (t, b) a h) _

theorem KeepsSpill.ite {u : State} {c : Prop} [Decidable c] (hu : KeepsSpill s u) : KeepsSpill s (if c then t else u) := by
  split
  · exact h
  · exact hu

theorem KeepsSpill.msixDue (f v : Nat) : KeepsSpill s (t.msixDue f v) := .ite h.updCtl (.ite (.emit h.updCtl _) h.updCtl)

theorem KeepsSpill.vecEntry (f v : Nat) : KeepsSpill s (t.vecEntry f v) := .ite (.msixDue h.updCtl f v) h.updCtl

theorem KeepsSpill.cplWrite (f : Nat) (c : Cpl) : KeepsSpill s (t.cplWrite f c) :=
  have hentry : KeepsSpill s (t.cplEntry f c) := .emit h.updCtl _
  .ite (hentry.vecEntry f _) hentry

theorem KeepsSpill.pmeCheck (f sqid : Nat) : KeepsSpill s (t.pmeCheck f sqid) := .ite (.ite (.emit h.updCtl _) h.updCtl) h

theorem KeepsSpill.cplPost (f : Nat) (c : Cpl) : KeepsSpill s (t.cplPost f c) :=
  have hlog : KeepsSpill s (t.errLog f c) := .ite h h.updCtl
  .ite hlog (.ite (.pmeCheck hlog.updCtl f _) (hlog.cplWrite f c))

theorem KeepsSpill.adminDone (f cid : Nat) (dw0 : Word) (sct sc : Nat) (dnr : Bool) : KeepsSpill s (t.adminDone f cid dw0 sct sc dnr) := by
  unfold State.adminDone
  exact .cplPost h.updCtl f _

theorem KeepsSpill.endCheck (f : Nat) : KeepsSpill s (t.endCheck f) := by
  unfold State.endCheck
  refine .foldl (.ite h.updCtl h) (fun u p hu => ?_) _
  split
  · exact .ite (.adminDone hu.updCtl f _ _ _ _ _) hu
  · exact hu

theorem KeepsSpill.freeSlot (e k : Nat) : KeepsSpill s (t.freeSlot e k) := .ite (.endCheck (h.setEng e _) _) (h.setEng e _)

theorem KeepsSpill.cplSent (c : Cpl) : KeepsSpill s (t.cplSent c) := by
  unfold State.cplSent
  split
  · exact .ite (h.freeSlot _ _) h
  · exact h

theorem KeepsSpill.reportUse (e : Nat) (l : Option Latched) (n : Nat) : KeepsSpill s (t.reportUse e l n) := by
  unfold State.reportUse
  split
  · exact h
  · refine .ite h ?_
    dsimp only
    split
    · exact h.setEng e _
    · exact .setEng (h.setTile _ _) e _

/-- A transfer that its release ends (R137). -/
theorem KeepsSpill.endXfer_released (e k : Nat) : KeepsSpill s (t.endXfer e k 0x33) := by
  unfold State.endXfer
  split
  · exact h
  next x _ =>
    have hrefuse : KeepsSpill s (x.held.foldl (fun u r => u.emit (.driveRefuse r.drive 2)) t) := h.foldl (fun u _ hu => hu.emit _) _
    have hused := (hrefuse.reportUse e x.c1 x.used).reportUse e x.c2 x.used2
    exact .ite h (.ite (.setEng (hused.setEng e _) e _) (hused.setEng e _))

theorem KeepsSpill.endQuietly (e k : Nat) : KeepsSpill s (t.endQuietly e k) := by
  have hfree : ∀ u j, KeepsSpill s u → KeepsSpill s ((u.endXfer e j 0x33).freeSlot e j) := fun u j hu =>
    (hu.endXfer_released e j).freeSlot e j
  refine hfree _ k (.foldl (.ite (h.setQuad _ _) (.updCtl (h.setQuad _ _) (fun c => ?_) fun c => ?_)) hfree _) <;> split <;> rfl

theorem KeepsSpill.endCommands (f : Nat) (sq : Option Nat) : KeepsSpill s (t.endCommands f sq) :=
  .foldl h (fun _ _ hu => .ite (hu.setEng _ _) (hu.endQuietly _ _)) _

theorem KeepsSpill.cplDrain (f : Nat) : KeepsSpill s (t.cplDrain f) :=
  .ite (.foldl h.updCtl (fun _ c hu => .ite hu.updCtl ((hu.cplWrite f c).cplSent c)) _) h

end

/-- The words of a spill queue follow its entries, and no entry is left where none was; MERR stands (R251, R256). -/
theorem State.dropEntries_spec (s : State) (f : Nat) (sq : Option Nat) (h : (s.ctl f).spill = []) : let t := s.dropEntries f sq
    (t.ctl f).spill = [] ∧ (t.queue (512 + f)).merr = (s.queue (512 + f)).merr := by
  simp [State.dropEntries, State.updCtl, State.updQuad, Queue.fit, h]

/-- A controller that fails has CFS set, nothing spilled where nothing was, and its queue's MERR stands (R242, R256). -/
theorem State.ctlFail_spec (s : State) (f : Nat) (viol : Bool) (hcfs : (s.ctl f).cfs = false) (hspill : (s.ctl f).spill = []) :
    let t := s.ctlFail f viol
    (t.ctl f).cfs = true ∧ (t.ctl f).spill = [] ∧ (t.queue (512 + f)).merr = (s.queue (512 + f)).merr := by
  intro t
  obtain ⟨hdrop, hmerr⟩ := s.dropEntries_spec f none hspill
  have ht : KeepsSpill ((s.dropEntries f none).updCtl f fun c => { c with cfs := true, waitCpl := [], hostq := [], ledger := { c.ledger with
      violations := c.ledger.violations + b2n viol } }) t := by
    simp only [t, State.ctlFail, hcfs, Bool.false_eq_true, if_false]
    exact .updCtl (.foldl (.endCommands (.refl _) f none) (fun _ c hu => hu.cplSent c) _)
  refine ⟨(ht.cfs f).trans ?_, (ht.spill f).trans ?_, (congrArg Queue.merr (ht.queue _)).trans hmerr⟩
  · simp [State.updCtl]
  · simpa [State.updCtl] using hdrop

/-! ## Flush and enable (R250, R254, R257, R258) -/

/-- Items of a queue depend on its control block by EN alone. -/
theorem State.queueItems_setQueue (s : State) {n : Nat} {q : Queue} (h : n < 1536 ∨ q.en = (s.queue n).en) :
    (s.setQueue n q).queueItems n = s.queueItems n := by
  rcases h with h | h
  · simp only [State.queueItems, h, if_true]
    rfl
  · simp only [State.queueItems, State.queue_setQueue_same, h]
    rfl

/-- A completion or fault queue that is disabled holds nothing. -/
theorem State.queueItems_of_disabled {s : State} {n : Nat} (h : 1536 ≤ n) (he : (s.queue n).en = false) : s.queueItems n = 0 := by
  have hlow : ¬ n < 128 ∧ ¬ n < 256 ∧ ¬ n < 384 ∧ ¬ n < 512 ∧ ¬ n < 1536 := by omega
  simp [State.queueItems, he, hlow]

theorem State.queue_ite {s t u : State} {m : Nat} {c : Prop} [Decidable c] (ht : t.queue m = s.queue m) (hu : u.queue m = s.queue m) :
    (if c then t else u).queue m = s.queue m := by
  split
  · exact ht
  · exact hu

/-- Discarding a queue's items changes no control block. -/
theorem State.queue_queueEmpty (s : State) (n m : Nat) : (s.queueEmpty n).queue m = s.queue m := by
  unfold State.queueEmpty
  refine State.queue_ite rfl (State.queue_ite rfl (State.queue_ite rfl (State.queue_ite rfl (State.queue_ite rfl (State.queue_ite rfl ?_)))))
  refine State.queue_ite (KeepsSpill.queue ?_ m) (State.queue_ite rfl (State.queue_ite rfl rfl))
  exact (KeepsSpill.refl s).foldl_fst (fun r f hr => .foldl hr.updCtl (fun _ c hu => hu.cplSent c) _) _ _

/-- A command, inbox, molt or spill queue is empty once its items are discarded, if no tile holds an item for want of a credit (R250, R254). -/
theorem State.queueItems_queueEmpty_of_lt (s : State) {n : Nat} (hn : n < 1536)
    (hinbox : 128 ≤ n ∧ n < 256 → (s.eng (n - 128)).dcqHold = []) : (s.queueEmpty n).queueItems n = 0 := by
  unfold State.queueEmpty
  split
  · next hcmd => simp [State.queueItems, hcmd]
  split
  · next hcmd hin => simp [State.queueItems, hcmd, hin, Engine.dcqFill, hinbox ⟨by omega, hin⟩]
  split
  · next hcmd hin hmolt => simp [State.queueItems, hcmd, hin, hmolt]
  split
  · next hcmd hin hmolt hpost => simp [State.queueItems, hcmd, hin, hmolt, hpost]
  · next hcmd hin hmolt hpost => simp [State.queueItems, State.updCtl, hcmd, hin, hmolt, hpost, hn]

/-- A fault or vault event queue that is not full is empty once its items are discarded (R254, R257). -/
theorem State.queueItems_queueEmpty_of_ge (s : State) {n : Nat} (hn : 1540 ≤ n) (hlt : n < 1543) (hroom : s.queueItems n < 16) :
    (s.queueEmpty n).queueItems n = 0 := by
  cases he : (s.queue n).en with
  | false =>
    refine State.queueItems_of_disabled (by omega) ?_
    rw [State.queue_queueEmpty, he]
  | true =>
    obtain rfl | rfl | rfl : n = 1540 ∨ n = 1541 ∨ n = 1542 := by omega
    all_goals
      simp [State.queueItems, he] at hroom
      simp only [State.queueItems, State.queue_queueEmpty, he]
      simp [State.queueEmpty, State.updVault, he]
      omega

/-- A flushed control block: FLUSHED tells whether anything was discarded, and every word has left (R254). -/
def Queue.afterFlush (q : Queue) (any : Bool) : Queue := { q with flushed := q.flushed || any, tailW := 0, midB := 0, headW := 0, midW := 0 }

theorem State.queueFlush_eq (s : State) (n : Nat) :
    s.queueFlush n = (s.queueEmpty n).setQueue n ((s.queue n).afterFlush (decide (s.queueItems n ≠ 0))) := by
  simp only [State.queueFlush, State.updQueue_eq, State.queue_queueEmpty]
  rfl

@[simp] theorem State.queue_queueFlush (s : State) (n : Nat) :
    (s.queueFlush n).queue n = (s.queue n).afterFlush (decide (s.queueItems n ≠ 0)) := by
  rw [State.queueFlush_eq, State.queue_setQueue_same]

/-- A flush leaves no item in a queue that neither a tile nor a fault source fills again (R250, R254, R257). -/
theorem State.queueItems_queueFlush (s : State) {n : Nat} (hlt : n < 1543) (hport : ¬ (1536 ≤ n ∧ n < 1540))
    (hinbox : 128 ≤ n ∧ n < 256 → (s.eng (n - 128)).dcqHold = []) (hroom : 1540 ≤ n → s.queueItems n < 16) :
    (s.queueFlush n).queueItems n = 0 := by
  rw [State.queueFlush_eq, State.queueItems_setQueue]
  · rcases Nat.lt_or_ge n 1536 with hn | hn
    · exact s.queueItems_queueEmpty_of_lt hn hinbox
    · have hge : 1540 ≤ n := by omega
      exact s.queueItems_queueEmpty_of_ge hge hlt (hroom hge)
  · exact .inr (congrArg Queue.en (s.queue_queueEmpty n n)).symm

/-- What producers held for want of a credit enters the queue; no control block changes. -/
@[simp] theorem State.queue_queueFill (s : State) (n m : Nat) : (s.queueFill n).queue m = s.queue m := by
  have hport : KeepsSpill s ((s.funcsOfPort (n - 1536)).foldl State.cplDrain s) := (KeepsSpill.refl s).foldl (fun _ f hu => hu.cplDrain f) _
  unfold State.queueFill
  exact State.queue_ite rfl (State.queue_ite (hport.queue m) rfl)

/-- Only an inbox and the completion queues have producers that hold items (R250). -/
theorem State.queueFill_eq_self (s : State) {n : Nat} (hinbox : ¬ (128 ≤ n ∧ n < 256)) (hport : ¬ (1536 ≤ n ∧ n < 1540)) :
    s.queueFill n = s := by
  simp [State.queueFill, hinbox, hport]

/-- Disabling flushes first, so that a disabled queue is empty (R258). -/
theorem State.queueItems_queueDisable (s : State) {n : Nat} (hinbox : 128 ≤ n ∧ n < 256 → (s.eng (n - 128)).dcqHold = []) :
    (s.queueEnable n false).queueItems n = 0 := by
  rcases Nat.lt_or_ge n 1536 with hn | hn
  · simp only [State.queueEnable, Bool.false_eq_true, if_false, State.updQueue_eq]
    rw [State.queueItems_setQueue _ (.inl hn)]
    exact s.queueItems_queueFlush (by omega) (by omega) hinbox (by omega)
  · exact State.queueItems_of_disabled hn (by simp [State.queueEnable])

/-! ## The middle of a spill queue (R251, R256) -/

/-- A burst that leaves the tail: the tail's first 32 words after those of the head and middle stand at the ring's next place (R251). -/
theorem State.spillUp_spec (s : State) {f : Nat} (htail : 32 ≤ (s.queue (512 + f)).tailW)
    (hroom : (s.queue (512 + f)).midB < fld (s.queue (512 + f)).rsize.toNat 15 0) :
    let q := s.queue (512 + f)
    let ws := (((s.ctl f).spill.flatMap Spilled.bytes).drop (16 * (q.headW + 32 * q.midB))).take 512
    (s.spillUp f).queue (512 + f) = { q with tailW := q.tailW - 32, midB := q.midB + 1, midW := (q.midW + 1) % fld q.rsize.toNat 15 0 }
      ∧ (s.spillUp f).dramBytes (b2n (q.ring.getLsbD 0) * 2 ^ 32 + fld q.ring.toNat 31 9 * 512 + 512 * q.midW) ws.length = ws := by
  intro q ws
  have hgo : ¬ (decide (q.tailW < 32) || decide (fld q.rsize.toNat 15 0 ≤ q.midB)) = true := by simp [q, htail, hroom]
  have heq : s.spillUp f = (s.dramPut (b2n (q.ring.getLsbD 0) * 2 ^ 32 + fld q.ring.toNat 31 9 * 512 + 512 * q.midW) ws).updQueue (512 + f) fun x =>
      { x with tailW := x.tailW - 32, midB := x.midB + 1, midW := (x.midW + 1) % fld q.rsize.toNat 15 0 } := if_neg hgo
  rw [heq, State.updQueue_eq, State.queue_setQueue_same, State.queue_dramPut, State.dramBytes_setQueue]
  exact ⟨rfl, State.dramBytes_dramPut s _ ws⟩

/-- Words that settle leave the tail for the head; none goes the other way (R251). -/
theorem Queue.settle_spec (q : Queue) : q.settle.midB = q.midB ∧ q.headW ≤ q.settle.headW
    ∧ q.settle.headW + q.settle.tailW = q.headW + q.tailW := by
  unfold Queue.settle
  split
  · dsimp only
    omega
  · exact ⟨rfl, le_rfl, rfl⟩

/-- A burst leaves a middle that is not empty for a head that has room, and the tail's words settle behind it (R251). -/
theorem State.middleBurst_down_runs {s : State} {f : FuncId} (hmid : (s.queue (512 + f.val)).midB ≠ 0) (hhead : (s.queue (512 + f.val)).headW < 10) :
    exec (.queueMiddleBurst f false false) s = .next (s.updQueue (512 + f.val) fun q => Queue.settle { q with midB := q.midB - 1, headW := q.headW + 32 }) := by
  simp [exec_queueMiddleBurst, execQueueMiddleBurst, hmid, hhead]

/-- A burst that reads back uncorrectable flushes the queue, sets MERR and fails the controller (R256). -/
theorem State.middleBurst_error_spec {s : State} {f : FuncId} (hmid : (s.queue (512 + f.val)).midB ≠ 0) (hhead : (s.queue (512 + f.val)).headW < 10)
    (hcfs : (s.ctl f).cfs = false) : ∃ u, exec (.queueMiddleBurst f false true) s = .next u
      ∧ (u.queue (512 + f.val)).merr = true ∧ (u.ctl f).cfs = true ∧ (u.ctl f).spill = [] := by
  have hf := f.isLt
  have hflush : ((s.queueFlush (512 + f.val)).ctl f).cfs = (s.ctl f).cfs ∧ ((s.queueFlush (512 + f.val)).ctl f).spill = [] := by
    have hspill : 512 + f.val < 1536 ∧ ¬ 512 + f.val < 128 ∧ ¬ 512 + f.val < 256 ∧ ¬ 512 + f.val < 384 ∧ ¬ 512 + f.val < 512 := by omega
    simp [State.queueFlush_eq, State.queueEmpty, State.updCtl, hspill]
  obtain ⟨hfail, hspill, hmerr⟩ := State.ctlFail_spec (((s.queueFlush (512 + f.val)).updQueue (512 + f.val) fun q => { q with merr := true }).faultEvent
    (s.funcQuad f / 2) 0x21 (s.funcQuad f) (BitVec.ofNat 32 (512 + f.val))) f true (by simp [hflush, hcfs]) (by simp [hflush])
  refine ⟨_, ?_, hmerr.trans (by simp), hfail, hspill⟩
  simp [exec_queueMiddleBurst, execQueueMiddleBurst, hmid, hhead]

/-! ## The warden's own commands (R329, R337, R339, R340) -/

@[simp] theorem State.domOn_updWarden (s : State) (i : Nat) (f : Warden → Warden) : (s.updWarden f).domOn i = s.domOn i := rfl

@[simp] theorem State.domOn_raise (s : State) (k i : Nat) : (s.raise k).domOn i = s.domOn i := by
  rw [State.raise_eq]
  split <;> rfl

/-- Raising a source changes its pending bit alone of the warden, and only while the domain is on (R271, R335). -/
theorem State.warden_raise (s : State) (k : Nat) :
    (s.raise k).warden = { s.warden with pend := if s.domOn 36 then s.warden.pend ||| (1#256 <<< k) else s.warden.pend } := by
  rw [State.raise_eq]
  split <;> rfl

/-- BUSERR holds the access that was ended, and source 26 is raised while the domain is on (R329, R343). -/
theorem State.busError_spec (s : State) (a : PortAcc) : let t := s.busError a
    t.warden.proc = s.warden.proc ∧ t.warden.busAddr = a.addr ∧ t.warden.busValid = true ∧ t.warden.busWrite = a.write
      ∧ (s.domOn 36 = true → t.warden.pend.getLsbD 26 = true) := by
  simp +contextual [State.busError, State.warden_raise]

@[simp] theorem Proc.reg_clearBusy (r : Proc) (n m : Nat) : (r.clearBusy n).reg m = r.reg m := rfl

@[simp] theorem Proc.isBusy_clearBusy_same (r : Proc) (n : Nat) : (r.clearBusy n).isBusy n = false := by
  simp only [Proc.isBusy, Proc.clearBusy]
  grind

/-- The processor once access `a` at place `i` of its port has been ended: a store is discarded, a load returns 0xFFFF_FFFF (R329). -/
def Proc.endAccess (r : Proc) (i : Nat) (a : PortAcc) : Proc :=
  let r := { r with port := r.port.eraseIdx i }
  if a.write then r else (r.setReg a.gd 0xFFFFFFFF).clearBusy a.gd

theorem Proc.endAccess_store (r : Proc) (i : Nat) {a : PortAcc} (h : a.write = true) : r.endAccess i a = { r with port := r.port.eraseIdx i } :=
  if_pos h

/-- An ended load leaves the port with its register written and free, and takes no exception (R329). -/
theorem Proc.endAccess_load (r : Proc) (i : Nat) {a : PortAcc} (h : a.write = false) (hgd : a.gd ≠ 0) : let t := r.endAccess i a
    t.reg a.gd = 0xFFFFFFFF ∧ t.isBusy a.gd = false ∧ t.port = r.port.eraseIdx i ∧ (∀ m, m ≠ a.gd → t.reg m = r.reg m)
      ∧ t.pc = r.pc ∧ t.ecause = r.ecause := by
  intro t
  have ht : t = (({ r with port := r.port.eraseIdx i } : Proc).setReg a.gd 0xFFFFFFFF).clearBusy a.gd := by simp [t, Proc.endAccess, h]
  rw [ht]
  refine ⟨?_, Proc.isBusy_clearBusy_same _ _, Proc.setReg_port _ _ _, fun m hm => ?_, Proc.setReg_pc _ _ _, Proc.setReg_ecause _ _ _⟩
  · simp [Proc.reg_setReg, hgd]
  · rw [Proc.reg_clearBusy, Proc.reg_setReg, if_neg hm]
    by_cases h0 : m = 0 <;> simp [Proc.reg, h0]

/-- The access at place `i` of the port ends in the processor as `Proc.endAccess` says, and is recorded (R329, R343). -/
theorem State.regAccessTimeout_spec {s : State} {i : Fin 16} {a : PortAcc} (h : s.warden.proc.port[i.val]? = some a) :
    ∃ u, exec (.regAccessTimeout i) s = .next u ∧ u.warden.proc = s.warden.proc.endAccess i a ∧ u.warden.busAddr = a.addr
      ∧ u.warden.busValid = true ∧ u.warden.busWrite = a.write ∧ (s.domOn 36 = true → u.warden.pend.getLsbD 26 = true) := by
  refine ⟨_, ?_, State.busError_spec (s.updWarden fun w => { w with proc := w.proc.endAccess i a }) a⟩
  simp only [exec_regAccessTimeout, execRegAccessTimeout, Fin.toNat_eq_val, h]
  rfl

/-- A croak that the powered warden writes reaches the vault (R339). -/
theorem State.croak_runs {s : State} (seq : BitVec 16) (hup : s.warden.up = true) (hon : s.domOn 36 = true) :
    exec (.croak seq) s = .next (s.croak seq) := by
  simp [exec_croak, execCroak, hup, hon]

/-- The first croak after a reset, or the next in sequence, is taken (R339). -/
theorem State.croak_taken {s : State} {seq : BitVec 16} (h : s.vault.firstCroak = true ∨ seq = s.vault.lastSeq + 1) : s.croak seq =
    (s.updWarden fun w => { w with croak := seq.zeroExtend 32 }).updVault fun v => { v with lastSeq := seq, firstCroak := false } :=
  if_pos (by rwa [Bool.or_eq_true, decide_eq_true_eq])

/-- Any other croak counts as a miss (R339). -/
theorem State.croak_missed {s : State} {seq : BitVec 16} (h : ¬ (s.vault.firstCroak = true ∨ seq = s.vault.lastSeq + 1)) :
    s.croak seq = (s.updWarden fun w => { w with croak := seq.zeroExtend 32 }).wardenRestart 1 :=
  if_neg (by rwa [Bool.or_eq_true, decide_eq_true_eq])

@[simp] theorem State.vaultEvent_eng (s : State) (k d e : Nat) : (s.vaultEvent k d).eng e = s.eng e := rfl

@[simp] theorem State.vaultEvent_firstCroak (s : State) (k d : Nat) : (s.vaultEvent k d).vault.firstCroak = s.vault.firstCroak := by
  simp only [State.vaultEvent]
  split <;> rfl

/-- After a warden restart the vault takes any SEQ of the first croak, and no engine has seen it (R339, R340). -/
theorem State.wardenRestart_croak (s : State) (cause : Nat) : let t := s.wardenRestart cause
    t.vault.firstCroak = true ∧ ∀ e, t.eng e = s.eng e := by
  unfold State.wardenRestart
  dsimp only
  split
  · exact ⟨State.vaultEvent_firstCroak _ _ _, fun _ => rfl⟩
  · exact ⟨rfl, fun _ => rfl⟩

/-- Software sources raised one after another are all pending, and no other source changes (R335, R337). -/
theorem State.pend_raises (ks : List Nat) {j : Nat} (hj : j < 256) : ∀ s : State, s.domOn 36 = true →
    (ks.foldl (fun s k => s.raise (224 + k)) s).warden.pend.getLsbD j = (s.warden.pend.getLsbD j || ks.any fun k => 224 + k = j) := by
  induction ks with
  | nil => simp
  | cons k ks ih =>
    intro s hon
    have hone : (1#256 <<< (224 + k)).getLsbD j = decide (224 + k = j) := by
      rw [BitVec.getLsbD_shiftLeft, BitVec.getLsbD_one]
      grind
    simp only [List.foldl_cons, ih (s.raise (224 + k)) (by simpa using hon), State.warden_raise, hon, if_true, BitVec.getLsbD_or, hone,
      List.any_cons, Bool.or_assoc]

/-- The software sources that a value of ICU_SWSET names (R337). -/
theorem any_setBits_software (value : U8) (j : Nat) :
    ((setBits 8 value.toNat).any fun k => 224 + k = j) = (decide (224 ≤ j) && value.getLsbD (j - 224) && decide (j < 232)) := by
  rw [Bool.eq_iff_iff]
  simp only [setBits, bitOf, List.any_eq_true, List.mem_filter, List.mem_range, BitVec.getLsbD, decide_eq_true_eq, Bool.and_eq_true]
  constructor
  · rintro ⟨k, ⟨hk, hbit⟩, rfl⟩
    exact ⟨⟨by omega, by simpa using hbit⟩, by omega⟩
  · rintro ⟨⟨hge, hbit⟩, hlt⟩
    exact ⟨j - 224, ⟨by omega, hbit⟩, by omega⟩

end Sys2Proof.Machine

open Sys2Proof Sys2Proof.Machine

/-- Settles O36: the queues by what their flush, fill and bursts leave, the warden's commands by the one step that each takes. -/
theorem queuesAndWardenComplete : Obligations.QueuesAndWardenComplete := by
  unfold Obligations.QueuesAndWardenComplete
  intro s n f i seq value q y ws inbox port
  refine ⟨fun hp hin hroom => ?flush, fun hp hin => ?enable, ⟨_, rfl, ?enabled⟩, fun hin => ?disable, fun htail hroom => ?up, fun hmid hhead => ?down,
    fun hmid hhead hcfs => State.middleBurst_error_spec hmid hhead hcfs, fun a ha hw hgd => ?load, fun a ha hw => ?store, fun ha => ?idle,
    fun hup hon hseq => ?croak, fun hup hon hfirst hseq => ?badCroak, fun hup hon => ?miss, fun hon => ?swset⟩
  case flush => exact ⟨_, rfl, s.queueItems_queueFlush n.isLt hp hin hroom, s.queue_queueFlush n⟩
  case enable =>
    rw [exec_queueEnable, execQueueEnable, State.queueEnable, if_pos rfl, State.queueFill_eq_self _ hin hp]
    rfl
  case enabled => simp [State.queueEnable]
  case disable => exact ⟨_, rfl, s.queueItems_queueDisable hin, by simp [State.queueEnable]⟩
  case up => exact ⟨_, rfl, s.spillUp_spec htail hroom⟩
  case down =>
    obtain ⟨hm, hh, hsum⟩ := Queue.settle_spec { y with midB := y.midB - 1, headW := y.headW + 32 }
    refine ⟨_, State.middleBurst_down_runs hmid hhead, ?_⟩
    rw [State.updQueue_eq, State.queue_setQueue_same]
    exact ⟨hm, le_of_add_le_right hh, hsum.trans (by dsimp only; omega)⟩
  case load =>
    obtain ⟨u, hu, hproc, haddr, hvalid, hwrite, hpend⟩ := State.regAccessTimeout_spec ha
    obtain ⟨hreg, hbusy, hport, hrest, hpc, hecause⟩ := s.warden.proc.endAccess_load i hw hgd
    refine ⟨u, hu, ?_⟩
    rw [hproc]
    exact ⟨hreg, hbusy, hport, haddr, hvalid, hwrite.trans hw, hrest, hpend, hpc, hecause⟩
  case store =>
    obtain ⟨u, hu, hproc, haddr, hvalid, hwrite, hpend⟩ := State.regAccessTimeout_spec ha
    exact ⟨u, hu, hproc.trans (Proc.endAccess_store _ _ hw), haddr, hvalid, hwrite.trans hw, hpend⟩
  case idle => simp [exec_regAccessTimeout, execRegAccessTimeout, ha]
  case croak => exact ⟨_, (State.croak_runs seq hup hon).trans (congrArg _ (State.croak_taken hseq)), rfl, rfl⟩
  case badCroak =>
    have hmiss := State.croak_missed (fun h => h.elim (by simp [hfirst]) hseq)
    obtain ⟨hpc, hfw, hcount, -⟩ := State.wardenRestart_spec (s.updWarden fun w => { w with croak := seq.zeroExtend 32 }) 1
    exact ⟨_, (State.croak_runs seq hup hon).trans (congrArg _ hmiss), hcount, hpc, hfw⟩
  case miss =>
    obtain ⟨hpc, hfw, hcount, -⟩ := s.wardenRestart_spec 1
    obtain ⟨hfirst, heng⟩ := s.wardenRestart_croak 1
    exact ⟨_, by rw [exec_croakMiss, execCroakMiss, hup, hon]; rfl, hcount, hpc, hfw, hfirst, heng⟩
  case swset =>
    refine ⟨_, rfl, fun j hj => ?_⟩
    rw [← any_setBits_software, State.icuSwset, State.pend_raises _ hj s hon]
end
